-- ==== Sys2Proof/Word.lean ====
section
/-!
DEFINITION. Sys2Proof/Word.lean: the words of the module and their plainest arithmetic.
Control-space registers are 64 bits (R512), commands 512 bits (R98), descriptors 1,024 bits (R131).
-/
namespace Sys2Proof

/-- One control-space register (R512). -/
abbrev Reg64 := BitVec 64

/-- One command of 64 bytes (R98), byte 0 in bits 7 to 0. -/
abbrev Cmd512 := BitVec 512

/-- One descriptor of 128 bytes (R131), byte 0 in bits 7 to 0. -/
abbrev Desc1024 := BitVec 1024

/-- One byte of memory. -/
abbrev Byte := BitVec 8

end Sys2Proof
end

