-- ==== Sys2Proof/Syntax.lean ====
section
/-!
DEFINITION. Sys2Proof/Syntax.lean: the commands of the block, one constructor per row of spec/opcode_table.json,
and the types of their operands. The table gives its rows no fields: every operand is named here from the rule its
row cites. Clusters are named by physical number, as control space names them (R511).
-/
namespace Sys2Proof

/-- The parties of R398. -/
inductive Party where
  | ralrad
  | companion
  | ctx (c : Nat)
  | operator
  deriving DecidableEq, Repr

/-- What lies outside the module and decides part of an outcome: bytes of the companion's memory by window address
(bytes not given are free), granules at which a read meets an uncorrectable error, addresses of the words (scratchpad, region
buffer) and granules (HBM) that a read corrects, and of the words in which it finds a double-bit error, the status a far end
answers, and whether a write of unknown fate took effect (R251, R266, R270, R279, R327, R499). -/
structure Env where
  win    : List (Nat × List Byte)
  bad    : List Nat
  ce     : List Nat
  ue     : List Nat
  status : Nat
  landed : Bool
  deriving DecidableEq, Repr

/-- A packet of R312, with what its authentication found (R415) where ENC is 1. -/
structure Pkt where
  ptype    : Nat
  dst      : Nat
  src      : Nat
  epoch    : Nat
  job      : Nat
  cls      : Nat
  hops     : Nat
  vl       : Nat
  enc      : Bool
  pmask    : Option Nat
  status   : Nat
  tag      : Nat
  addr     : Nat
  aux      : Nat
  len      : Nat
  data     : List Byte
  reserved : Nat
  ctr      : Nat
  tagOk    : Bool
  deriving DecidableEq, Repr

/-- A flit of R307 as a receiver finds it: its 256 bytes, and how many of its codewords the FEC corrected and could not correct
(R308). -/
structure Flit where
  bytes  : List Byte
  fecCor : Nat
  fecBad : Nat
  deriving DecidableEq, Repr

/-- What a link control flit carries (R309, R310): the sender's state, number, board position and port, and the credits it returns
for each of the sixteen lanes (4 times the class, 2 for responses, 1 for virtual lane 1). -/
structure LinkCtl where
  member  : Bool
  modNum  : Nat
  bpos    : Nat
  port    : Nat
  credits : List Nat
  deriving DecidableEq, Repr

/-- Readings of the module's sensors (R39, R463, R487, R470): power in W, voltage in mV, current in 10 mA, energy
in mJ since the last reading, junction temperatures of D0-D3 and the plinth, hottest HBM (all in °C). -/
structure Readings where
  power  : Nat
  peak   : Nat
  vin    : Nat
  iin    : Nat
  energy : Nat
  temps  : List Int
  hbm    : Int
  deriving DecidableEq, Repr

/-- What the power-on and recovery self-test finds in one physical cluster (R465, R468). -/
structure SelfTest where
  columns : Nat
  other   : Bool
  rows    : Nat
  deriving DecidableEq, Repr

/-- What boot or recovery finds outside its control: flash device, stacks trained (one bit each), lanes repaired,
identity match, Eokoby widths as R337 codes them, round trips and the peers' link control flits (R309), CXL ports (SPEED of R280 plus 4 for WIDTH16), devices
with IDE, capacities, read latencies in ns, Muolmorn widths, failed loopbacks as HLT_ABIST_STATUS orders them,
self-test results by physical cluster p (default: none fails), straps, boot time. -/
structure BootEnv where
  flashOk  : Bool
  trained  : Nat
  lanes    : List Nat
  idOk     : Bool
  ekbUp    : List Nat
  ekbRtt   : List Nat
  ekbPeers : List LinkCtl
  cxlUp    : List Nat
  cxlIde   : Nat
  cxlCap   : List Nat
  cxlNs    : List Nat
  mlmUp    : List Nat
  loop     : Nat
  tests    : List (Nat × SelfTest)
  bpos     : Nat
  bootMs   : Nat
  deriving DecidableEq, Repr

/-- The commands: one constructor per row of the opcode table, in the table's order. Operands: `r` region, `k`
physical cluster, `q` queue (0 MQ, 1 VQ0, 2 VQ1, 3 XQ), `v` vector engine, `m` mover or Muolmorn port, `id` a
request's number at its region router, `p` the party that makes a control-space access, `w` the word written. -/
inductive Instr where
  | nop (r k q : Nat)
  | endq (r k q : Nat)
  | wait (r k q : Nat)
  | signal (r k q : Nat)
  | barrier (r k q : Nat)
  | stepPoint (r k q : Nat)
  | evalPoint (r k q : Nat)
  | evalEnd (r k q : Nat)
  | mma (r k : Nat)
  | distL1 (r k : Nat)
  | distL2 (r k : Nat)
  | minplus (r k : Nat)
  | maxplus (r k : Nat)
  | cmpcount (r k : Nat)
  | vmap (r k v : Nat)
  | vcvt (r k v : Nat)
  | vscan (r k v : Nat)
  | vstat (r k v : Nat)
  | vcarryStore (r k v : Nat)
  | vcarryLoad (r k v : Nat)
  | rmsnorm (r k v : Nat)
  | vsfu (r k v : Nat)
  | vchisel (r k v : Nat)
  | vredLeaf (r k v : Nat)
  | vredNode (r k v : Nat)
  | vredFinal (r k v : Nat)
  | vredFold (r k v : Nat)
  | vgrainSetid (r k v : Nat)
  | vgrainRaw (r k v : Nat)
  | vgrainUniform (r k v : Nat)
  | vgrainBernoulli (r k v : Nat)
  | vgrainNormal (r k v : Nat)
  | mvcopy (r k : Nat)
  | mvset (r k : Nat)
  | mvatom (r k : Nat)
  | mvcollUp (r k : Nat) (e : Env)
  | mvcollRecv (r k : Nat) (e : Env)
  | mvcollDown (r k : Nat) (e : Env)
  | mvcollRdown (r k : Nat) (e : Env)
  | ttin (r k : Nat)
  | ttout (r k : Nat)
  | descLoad (r k : Nat)
  | seqDoorbell (p : Party) (r k qmask : Nat)
  | seqLdoorbell (p : Party) (r lcluster qmask : Nat)
  | startBeat (r k : Nat)
  | queueFetchRequest (r k q : Nat)
  | queueFetchComplete (r id : Nat) (e : Env)
  | clusterBeat (r k : Nat) (e : Env)
  | stretchYield (r k : Nat)
  | holdBeat (r k : Nat)
  | timedDonePoint (r k id : Nat)
  | descLoadDone (r id : Nat) (e : Env)
  | moverCommandStart (r k m : Nat) (e : Env)
  | translationWalk (r id beats : Nat) (e : Env)
  | admissionAccept (r id : Nat) (e : Env)
  | moverRequestComplete (r id : Nat) (e : Env)
  | cxlRequestTimeout (r id : Nat) (e : Env)
  | mlmWindowTimeout (r id : Nat) (e : Env)
  | remoteRequestTimeout (r id : Nat) (e : Env)
  | evalSwitch (r k : Nat)
  | switchBeat (r k : Nat)
  | stepReturnNoSwitch (r k : Nat)
  | evalReturn (r k : Nat)
  | returnBeat (r k : Nat)
  | incrementVisible (r k n : Nat)
  | syncPoke (p : Party) (r index inc : Nat)
  | barrierNodeArrival (n : Nat)
  | barrierRelease (n : Nat)
  | swapBeat
  | governorInterval (x : Readings)
  | paceMeasurement (r k pace : Nat)
  | patinaMonitor (r k patina : Nat)
  | healthMonitorTick (e : Env)
  | telemetryUpdate (x : Readings)
  | heartbeat
  | sramScrubRead (r k bank : Nat) (e : Env)
  | patrolScrub (stack : Nat) (e : Env)
  | hbmRecalibration (e : Env)
  | analogueCheck (temps vin vref : Nat)
  | drbgReseed (healthy : Bool)
  | porstAssert
  | porstRelease (railsGood : Bool) (hottest : Int) (e : BootEnv)
  | bootReady (e : BootEnv)
  | vinUndervoltage (mv us : Nat)
  | vinOvervoltage (mv us : Nat)
  | thermalTrip (junction hbm : Int) (us : Nat)
  | recovEdge (us : Nat)
  | hltRecover (p : Party) (key : Nat) (go : Bool)
  | recoveryComplete (e : BootEnv)
  | regionReset (p : Party) (r : Nat)
  | dieReset (p : Party) (d : Nat)
  | dieCoreTimeout (d ms : Nat)
  | assign (p : Party) (r c : Nat)
  | release (p : Party) (r : Nat)
  | secRotate (p : Party) (c : Nat)
  | sweepPageComplete (c : Nat)
  | scrubGo (p : Party) (parts : Nat)
  | scrubDone
  | memXlateInv (p : Party) (c : Nat) (all : Bool) (page : Nat)
  | invalidationComplete
  | ekbJoin (p : Party) (modNum epoch : Nat) (go : Bool)
  | graceExpiry
  | defaultRoutingUpdate
  | ekbCtxJobWrite (p : Party) (c job : Nat) (valid : Bool)
  | flitReceive (port : Nat) (f : Flit)
  | flitReplay (port seq : Nat)
  | linkControlFlit (port : Nat) (l : LinkCtl)
  | portTrainingComplete (port lanes rtt : Nat) (l : LinkCtl)
  | portRetrainTimeout (port : Nat)
  | packetTransit (x : Pkt)
  | rdReq (x : Pkt) (e : Env)
  | rdData (x : Pkt)
  | wr (x : Pkt) (e : Env)
  | wrCpl (x : Pkt)
  | atom (x : Pkt) (e : Env)
  | atomCpl (x : Pkt)
  | flagInc (x : Pkt)
  | barArrive (x : Pkt)
  | barRelease (x : Pkt)
  | collUp (x : Pkt) (e : Env)
  | collDown (x : Pkt) (e : Env)
  | collCpl (x : Pkt)
  | kexHello (x : Pkt) (chainOk : Bool)
  | kexReply (x : Pkt) (chainOk : Bool)
  | recvRightComplete (r k id : Nat) (ns : Nat) (e : Env)
  | recvDeadline (r k id : Nat) (ns : Nat) (e : Env)
  | snapReq (p : Party) (c : Nat) (e : Env)
  | snapPartCopy (c : Nat) (e : Env)
  | maqLoad (p : Party)
  | maqLoadDone
  | maqSwap (p : Party) (now : Bool)
  | maqDiscard (p : Party)
  | fwActivate (p : Party) (persist : Bool)
  | fwCommit
  | fwActivateTimeout
  | stageGo (p : Party) (len target : Nat) (e : Env)
  | stageDone
  | cfgBootSel (p : Party) (slot set : Nat)
  | mboxInGo (p : Party) (len : Nat)
  | mboxInTaken
  | cfgMboxOutTail (p : Party) (tail : Nat)
  | memMlmWin (p : Party) (mode : Nat)
  | mlmRdReq (m : Nat) (x : Pkt) (e : Env)
  | mlmWr (m : Nat) (x : Pkt) (e : Env)
  | mlmAtom (m : Nat) (x : Pkt) (e : Env)
  | mlmKexHello (m : Nat) (x : Pkt)
  | mlmPortRetrain (m lanes : Nat)
  | pwrGovCtrlWrite (p : Party) (cap : Nat)
  | ekbGraceWrite (p : Party) (ms : Nat)
  | bistReqGo (p : Party) (r clusters kinds save : Nat)
  | bistReqCancel (p : Party) (r : Nat)
  | bistSlice (r k : Nat)
  | hltRetire (p : Party) (r k : Nat)
  | abistRerun (p : Party) (loopE loopM loopC : Nat)
  | csracc (offset : Nat) (write go : Bool) (data : Reg64)
  | memacc (addr : Nat) (go : Bool)
  | idcode
  | extest (drive : List Bool)
  | samplePreload (load : List Bool)
  | extestPulse (drive : List Bool)
  | extestTrain (drive : List Bool)
  | bypass (code : Nat)
  | getVersion
  | getCapabilities
  | negotiateAlgorithms (asym hash : Nat)
  | getDigests
  | getCertificate (slot offset len : Nat)
  | challenge (slot sumKind : Nat) (nonce : List Byte)
  | getMeasurements (index : Nat) (signed : Bool) (nonce : List Byte)
  | setdasa (static dynamic : Nat)
  | entdaa (dynamic : Nat)
  | pldmEffecterSet (effecter value : Nat)
  | registerWrite (p : Party) (offset : Nat) (w : Reg64)
  | internalResetRelease (railsGood : Bool) (hottest : Int) (e : BootEnv)
  | linkGoesDown (kind port : Nat)
  | cxlEventRecord (port corrected media : Nat)
  | counterSample
  | sliceComplete (r k : Nat) (failed : Bool) (columns : Nat)
  | resetComplete (die : Bool) (n trained : Nat)
  | regionLoadsComplete (r : Nat) (e : Env)
  | spdmUnsupportedRequest (code : Nat)
  | mctpControlMessage (command : Nat) (eid : Nat)
  | mandatoryCommonCommand (code : Nat)
  deriving DecidableEq, Repr

end Sys2Proof
end

