-- ==== Sys2Proof/Decode.lean ====
section
/-!
DEFINITION. Sys2Proof/Decode.lean: commands spelt by words. spec/opcode_table.json gives no row of this block any bit
field: no word spells a command, and the decoder refuses every word.
-/
namespace Sys2Proof

/-- The command a word of `nbits` bits spells: none, since the table gives its rows no bits. -/
def decodeTableWord (_nbits _w : Nat) : Option Instr := none

end Sys2Proof
end

