-- ==== Sys2Proof/Config.lean ====
section
/-!
DEFINITION. Sys2Proof/Config.lean: what this device fixes and the manual does not print, and the free values.
Every constant here is opaque: nothing can be proved of its value, so a statement holds for every value.
Byte strings of one length are numbers of that many bits, the first byte lowest.
-/
namespace Sys2Proof.Config

/-- R521: the SFU's coefficients, readable in the device and not printed in the manual. Segment `g` of the
table (FUNC, COMPAT, DERIV); c0 in bits 31 to 0, c1, c2, c3 above. -/
opaque sfuCoeff (func compat deriv g : Nat) : BitVec 128

/-- A free value: what the manual leaves open, drawn with the state's counter `freeCtr`. -/
opaque freeNat (n : Nat) : Nat

/-- A free byte of draw `n` at an address. -/
opaque freeByte (n addr : Nat) : Nat

/-- R409, R410: what a granule of 32 bytes reads as when it is decrypted with another key than the one it was
encrypted with, or read as stored: free, from the stored plaintext number, the key it was sealed under
and the key (0: none) it is read with. -/
opaque xtsBytes (plain sealedKey readKey addr : Nat) : Nat

/-- R417, R422, R435, R495: the Ed448 signature over a message with the device's or a session's key, and its check. -/
opaque ed448Sign (key : Nat) (msg : List (BitVec 8)) : BitVec 912
opaque ed448Verify (pub : List (BitVec 8)) (msg sig : List (BitVec 8)) : Bool

/-- R418: the X448 public value of a private key, and the shared secret's key number. -/
opaque x448Public (priv : Nat) : BitVec 448
opaque x448Key (priv : Nat) (peer : List (BitVec 8)) (label : Nat) : Nat

/-- R422: SHA3-512 of a byte string. -/
opaque sha3 (msg : List (BitVec 8)) : BitVec 512

/-- R422, R433, R435: the first 64 bytes of SHAKE256 of a byte string. -/
opaque shake256 (msg : List (BitVec 8)) : BitVec 512

/-- R435, R417: the root digest held in the boot ROM, and (R422) the digest of the boot ROM itself. -/
opaque rootDigest : BitVec 512
opaque romDigest : BitVec 512

/-- R422: the device certificate of a chain. -/
opaque deviceCert (chain : List (BitVec 8)) : List (BitVec 8)

/-- R499: a byte of the companion's memory where a command does not say what it holds: free. -/
opaque hostByte (addr : Nat) : Nat

/-- R154: a tile cell filled with elements of one width and read with another: the manual states no value. -/
opaque tileMixed (v w w' : Nat) : Nat

/-- R314: bits of a byte that travels in a packet and that the command does not write: the manual states no value. -/
opaque packByte (addr mask : Nat) : Nat

/-- R263: the SEC-DED check bits of a granule, from its data, KGEN and POISON: the manual does not print the code. -/
opaque checkBits (data : Nat) (kgen poison : Bool) : BitVec 10

/-- R422 index 5: the digest of the chisel programs a set binds, by slot: the manual does not say how they are joined. -/
opaque chiselDigest (images : List (Nat × List (BitVec 8))) : BitVec 512

/-- R422 index 6: eight bytes of security mode, spare mode and port enables: the manual does not say how they are packed. -/
opaque modeBytes (mode spare ekb ports : Nat) : BitVec 64

/-- R421, R422: the chain as SPDM slot 0 wraps it: DMTF's own framing of the certificates of R421. -/
opaque slotChain (chain : List (BitVec 8)) : List (BitVec 8)

/-- R331: the links that the route to a module crosses after the first: EKB_RTT_NS and lanes of each. They are registers of other
modules. -/
opaque farLinks (modNum : Nat) : List (Nat × Nat)

/-- R522: one less than the credits of a resource (Machine/Credit.lean numbers them), fixed by the implementation. -/
opaque creditCap (resource : Nat) : Nat

/-- R414: byte `i` of what AES-256-GCM gives for a packet's data under a session key (0: none) and an IV, with its additional
authenticated data: the encrypted data, then the tag of 16 bytes. -/
opaque gcmByte (key iv : Nat) (aad data : List (BitVec 8)) (i : Nat) : BitVec 8

/-- R309, R310: the body of a link control flit, from what it carries: the manual does not lay it out. -/
opaque controlBody (fields : List Nat) : List (BitVec 8)

end Sys2Proof.Config
end

