-- ==== Sys2Proof/Machine/Bits.lean ====
section
/-!
DEFINITION. Sys2Proof/Machine/Bits.lean: bit fields, byte order, sign extension and small list helpers.
Multi-byte values are little-endian everywhere in the module (R1, R67).
-/
namespace Sys2Proof.Machine

/-- Bits `hi` to `lo` of a number. -/
def field (w lo len : Nat) : Nat := (w >>> lo) % 2 ^ len

/-- One bit of a number. -/
def bitAt (w i : Nat) : Bool := w.testBit i

/-- Bits of a register as a number. -/
def regField (w : Reg64) (lo len : Nat) : Nat := Sys2Proof.Machine.field w.toNat lo len

/-- `w` with bits `lo .. lo+len-1` replaced by `v`. -/
def setField (w : BitVec 64) (lo len v : Nat) : BitVec 64 :=
  let m : BitVec 64 := BitVec.ofNat 64 ((2 ^ len - 1) <<< lo)
  (w &&& ~~~ m) ||| (BitVec.ofNat 64 ((v % 2 ^ len) <<< lo))

/-- `w` with one bit set or cleared. -/
def setBit (w : BitVec 64) (i : Nat) (b : Bool) : BitVec 64 := setField w i 1 (if b then 1 else 0)

/-- Two's complement reading of the low `n` bits. -/
def signed (n w : Nat) : Int :=
  let v := w % 2 ^ n
  if n ≠ 0 ∧ v.testBit (n - 1) then (v : Int) - (2 ^ n : Nat) else (v : Int)

/-- The low `n` bits of an integer, two's complement. -/
def toBits (n : Nat) (z : Int) : Nat := (z % ((2 ^ n : Nat) : Int)).toNat

/-- Little-endian number formed by a list of bytes. -/
def bytesToNat : List Byte → Nat
  | [] => 0
  | b :: bs => b.toNat + 256 * bytesToNat bs

/-- The `n` little-endian bytes of a number. -/
def natToBytes : Nat → Nat → List Byte
  | 0, _ => []
  | n + 1, w => BitVec.ofNat 8 w :: natToBytes n (w / 256)

/-- Number of bits needed to write `n`: `floor(log2 n) + 1`, and 0 for 0. -/
def bitLen (n : Nat) : Nat := if n = 0 then 0 else Nat.log2 n + 1

/-- Ceiling of a division. -/
def ceilDiv (a b : Nat) : Nat := (a + b - 1) / b

/-- How many of the low `n` bits of `w` are set. -/
def popCount : Nat → Nat → Nat
  | 0, _ => 0
  | n + 1, w => (if w % 2 = 1 then 1 else 0) + popCount n (w / 2)

/-- The positions of the set bits among the low `n`, lowest first. -/
def setBits (n w : Nat) : List Nat := (List.range n).filter fun i => w.testBit i

/-- Element `i` of a list, or a default. -/
def nth {α : Type} (d : α) : List α → Nat → α
  | [], _ => d
  | x :: _, 0 => x
  | _ :: xs, i + 1 => nth d xs i

/-- A list with element `i` replaced; unchanged when there is none. -/
def setNth {α : Type} (v : α) : List α → Nat → List α
  | [], _ => []
  | _ :: xs, 0 => v :: xs
  | x :: xs, i + 1 => x :: setNth v xs i

/-- A counter of 48 bits that stops at all ones (R514). -/
def satAdd (w a b : Nat) : Nat := min (a + b) (2 ^ w - 1)

/-- Sum of a list of numbers. -/
def sumNat : List Nat → Nat
  | [] => 0
  | x :: xs => x + sumNat xs

/-- Product of a list of numbers. -/
def prodNat : List Nat → Nat
  | [] => 1
  | x :: xs => x * prodNat xs

/-- Cut a list into pieces of `n` (`fuel` bounds how many). -/
def chunks {α : Type} (n : Nat) : Nat → List α → List (List α)
  | 0, _ => []
  | fuel + 1, xs => if xs.isEmpty then [] else xs.take n :: chunks n fuel (xs.drop n)

/-- No repeats, first occurrence kept. -/
def dedupNat : List Nat → List Nat
  | [] => []
  | x :: xs => x :: (dedupNat xs).filter (fun y => y ≠ x)

/-! ### Named primitives as byte strings -/

/-- R422: SHA3-512. -/
def sha3 (msg : List Byte) : List Byte := natToBytes 64 (Sys2Proof.Config.sha3 msg).toNat

/-- R433: the first 64 bytes of SHAKE256. -/
def shake256 (msg : List Byte) : List Byte := natToBytes 64 (Sys2Proof.Config.shake256 msg).toNat

/-- R422: an Ed448 signature, 114 bytes. -/
def ed448Sign (key : Nat) (msg : List Byte) : List Byte := natToBytes 114 (Sys2Proof.Config.ed448Sign key msg).toNat

end Sys2Proof.Machine
end

