-- ==== Sys2Proof/Machine/Addr.lean ====
section
/-!
DEFINITION. Sys2Proof/Machine/Addr.lean: where the registers lie, as offsets from 0x3F00_0000_0000 (R510), and the
ranges of the local physical map (R244, R247). Registers of the CXL ports are kept at offsets from 0x1_0000_0000,
because R510 gives their block addresses to HBM stacks 16 to 19 too (log 5).
-/
namespace Sys2Proof.Machine

/-! ### Local physical map (R244, R247) -/

def hbmEnd : Nat := 0x00F000000000
def cxlBase : Nat := 0x010000000000
def cxlEnd : Nat := 0x110000000000
def mlmBase : Nat := 0x200000000000
def mlmEnd : Nat := 0x300000000000
def winBase : Nat := 0x300000000000
def winEnd : Nat := 0x3000C0000000
def ownBase : Nat := 0x300100000000
def ownEnd : Nat := 0x300104000000
def physWin : Nat := 0x380000000000
def physEnd : Nat := 0x3800C0000000
def csrBase : Nat := 0x3F0000000000
def csrEnd : Nat := 0x3F0100000000

/-- Scratchpad byte `o` of physical cluster `k` of region `r`, and region-buffer byte `o` (R247). -/
def spAddr (r k o : Nat) : Nat := physWin + r * 0x4000000 + k * 0x400000 + o
def rbAddr (r o : Nat) : Nat := physWin + r * 0x4000000 + 0x3000000 + o

def isHbm (a : Nat) : Bool := a < hbmEnd
def isCxl (a : Nat) : Bool := cxlBase ≤ a && a < cxlEnd
def isMlm (a : Nat) : Bool := mlmBase ≤ a && a < mlmEnd
def isChip (a : Nat) : Bool := physWin ≤ a && a < physEnd
/-- Memory kept in 32-byte granules that can be poisoned (R263, R266). -/
def isGran (a : Nat) : Bool := isHbm a || isCxl a

/-! ### Blocks (R510) -/

namespace A
def cfg (o : Nat) : Nat := o
def pwr (o : Nat) : Nat := 0x10000 + o
def sec (o : Nat) : Nat := 0x11000 + o
def hlt (o : Nat) : Nat := 0x12000 + o
def mem (o : Nat) : Nat := 0x16000 + o
def sync (o : Nat) : Nat := 0x17000 + o
def sfu (o : Nat) : Nat := 0x18000 + o
def red (o : Nat) : Nat := 0x19000 + o
def ekb (o : Nat) : Nat := 0x20000 + o
def hbm (s o : Nat) : Nat := 0x100000 + 0x1000 * s + o
def cxl (p o : Nat) : Nat := 0x100000000 + 0x1000 * p + o
def rtr (r o : Nat) : Nat := 0x1000000 + 0x100000 * r + o
def rsync (r o : Nat) : Nat := rtr r (0x4000 + o)
def cl (r k o : Nat) : Nat := rtr r (0x10000 + 0x10000 * k + o)
def seq (r k o : Nat) : Nat := cl r k o
def pm (r k o : Nat) : Nat := cl r k (0x1000 + o)
def mv (r k o : Nat) : Nat := cl r k (0x2000 + o)
def tt (r k o : Nat) : Nat := cl r k (0x3000 + o)
def ma (r k o : Nat) : Nat := cl r k (0x4000 + o)
def ve (r k v o : Nat) : Nat := cl r k (0x5000 + 0x1000 * v + o)
def sfuV (r k v o : Nat) : Nat := cl r k (0x7000 + 0x1000 * v + o)

-- Configuration (R3, R27, R28, R454, R506)
def ident : Nat := cfg 0x0
def shape : Nat := cfg 0x8
def regionShape (n : Nat) : Nat := cfg (0x100 + 8 * n)
def bootStatus : Nat := cfg 0x400
def fwCtrl : Nat := cfg 0x408
def fwStatus : Nat := cfg 0x410
def stageSrc : Nat := cfg 0x418
def stageCtrl : Nat := cfg 0x420
def stageStatus : Nat := cfg 0x428
def bootSel : Nat := cfg 0x430
def hdrStatus : Nat := cfg 0x438
def maqCtrl : Nat := cfg 0x440
def maqStatus : Nat := cfg 0x448
def cfgSwaps : Nat := cfg 0x450
def flashErases : Nat := cfg 0x458
def cfgRefused : Nat := cfg 0x460
def mboxInCtrl : Nat := cfg 0x800
def mboxInStatus : Nat := cfg 0x808
def mboxOutBase : Nat := cfg 0x810
def mboxOutCfg : Nat := cfg 0x818
def mboxHead : Nat := cfg 0x820
def mboxTail : Nat := cfg 0x828
def mboxNotify : Nat := cfg 0x830
def mboxFull : Nat := cfg 0x838
def mboxHbDrop : Nat := cfg 0x840

-- Power (R43-R46, R487)
def govCtrl : Nat := pwr 0x0
def govStatus : Nat := pwr 0x8
def admSteps : Nat := pwr 0x10
def diePace (d : Nat) : Nat := pwr (0x40 + 8 * d)
def pwrIn : Nat := pwr 0x80
def pwrPeak : Nat := pwr 0x88
def energy : Nat := pwr 0x90
def pwrTemp : Nat := pwr 0x98
def vinStatus : Nat := pwr 0xA0

-- Security (R430)
def secStatus : Nat := sec 0x0
def secRotate : Nat := sec 0x8
def regionAssign : Nat := sec 0x10
def assignStatus : Nat := sec 0x18
def scrubBase : Nat := sec 0x20
def scrubCtrl : Nat := sec 0x28
def scrubStatus : Nat := sec 0x30
def rotRefused : Nat := sec 0x40
def sweepPages : Nat := sec 0x48
def nokeyReads : Nat := sec 0x50
def gcmFail : Nat := sec 0x58
def replayDrop : Nat := sec 0x60
def plainDrop : Nat := sec 0x68
def kexFail : Nat := sec 0x70
def denied : Nat := sec 0x78
def spdmBusy : Nat := sec 0x80
def keyStatus (c : Nat) : Nat := sec (0x100 + 8 * c)
def regionEpoch (n : Nat) : Nat := sec (0x200 + 8 * n)

-- Health (R396, R481)
def risk : Nat := hlt 0x0
def riskGain : Nat := hlt 0x8
def snapCtrl : Nat := hlt 0x10
def snapTriggers : Nat := hlt 0x18
def hltHeartbeat : Nat := hlt 0x40
def wdogStalled : Nat := hlt 0x48
def wdogFires : Nat := hlt 0x50
def hltRecover : Nat := hlt 0x58
def resetReq : Nat := hlt 0x60
def resetStatus : Nat := hlt 0x68
def bistReq : Nat := hlt 0x70
def bistStatus : Nat := hlt 0x78
def bistCtrl : Nat := hlt 0x80
def hltRetire : Nat := hlt 0x88
def abist : Nat := hlt 0x90
def scrubPasses : Nat := hlt 0xA0
def recoveries : Nat := hlt 0xA8
def hltCluster (p : Nat) : Nat := hlt (0x1000 + 8 * p)
def colFail (p : Nat) : Nat := hlt (0x2000 + 8 * p)
def hbmLanes (s : Nat) : Nat := hlt (0x3000 + 8 * s)

-- Plinth memory (R278, R397, R506)
def ctxRoot (c : Nat) : Nat := mem (0x10 * c)
def ctxRegions (c : Nat) : Nat := mem (0x8 + 0x10 * c)
def xlateInv : Nat := mem 0x100
def invStatus : Nat := mem 0x108
def invDrop : Nat := mem 0x110
def interleave : Nat := mem 0x118
def mlmTimeouts : Nat := mem 0x120
def snapList (c : Nat) : Nat := mem (0x200 + 0x20 * c)
def snapCtl (c : Nat) : Nat := mem (0x208 + 0x20 * c)
def snapDest (c : Nat) : Nat := mem (0x210 + 0x20 * c)
def snapStatus (c : Nat) : Nat := mem (0x218 + 0x20 * c)
def snapWaits : Nat := mem 0x400
def snapWaitNs : Nat := mem 0x408
def snapTorn : Nat := mem 0x410
def snapRefused : Nat := mem 0x418
def snapSkipped : Nat := mem 0x420
def mlmWin : Nat := mem 0x600
def mlmStatus (m : Nat) : Nat := mem (0x608 + 8 * m)
def mlmRetry (m : Nat) : Nat := mem (0x618 + 8 * m)
def mlmDowns (m : Nat) : Nat := mem (0x628 + 8 * m)
def mlmInFaults : Nat := mem 0x638

-- Plinth sync, SFU control, reduction (R305, R243, R395, R369)
def flagMap (c : Nat) : Nat := sync (0x20 * c)
def fabParent (c : Nat) : Nat := sync (0x8 + 0x20 * c)
def fabChildren (c : Nat) : Nat := sync (0x10 + 0x20 * c)
def barBroken (c : Nat) : Nat := sync (0x18 + 0x20 * c)
def chiselTable (c : Nat) : Nat := sfu (0x10 * c)
def chiselReject (c : Nat) : Nat := sfu (0x8 + 0x10 * c)
def grainSeed (c : Nat) : Nat := sfu (0x200 + 0x10 * c)
def grainStep (c : Nat) : Nat := sfu (0x208 + 0x10 * c)
def bucketTable (c : Nat) : Nat := red (0x80 * c)
def tableStatus (c : Nat) : Nat := red (0x8 + 0x80 * c)
def bucketValid (c w : Nat) : Nat := red (0x10 + 8 * w + 0x80 * c)
def redEsc (c : Nat) : Nat := red (0x30 + 0x80 * c)
def redSat (c : Nat) : Nat := red (0x38 + 0x80 * c)
def redNan (c : Nat) : Nat := red (0x40 + 0x80 * c)
def redExcluded (c : Nat) : Nat := red (0x48 + 0x80 * c)
def redLate (c : Nat) : Nat := red (0x50 + 0x80 * c)
def redFolds (c : Nat) : Nat := red (0x58 + 0x80 * c)
def redRefused : Nat := red 0x800

-- Eokoby (R336-R338)
def member : Nat := ekb 0x0
def join : Nat := ekb 0x8
def grace : Nat := ekb 0x10
def routeCtrl : Nat := ekb 0x18
def joinRefused : Nat := ekb 0x20
def epochOld : Nat := ekb 0x28
def epochNew : Nat := ekb 0x30
def notMember : Nat := ekb 0x38
def hopsDrop : Nat := ekb 0x40
def routeDrop : Nat := ekb 0x48
def badPkt : Nat := ekb 0x50
def remoteTimeouts : Nat := ekb 0x58
def remoteRefused : Nat := ekb 0x60
def ingressFaults : Nat := ekb 0x68
def atomPoison : Nat := ekb 0x70
def ingressInfo : Nat := ekb 0x78
def ctxJob (c : Nat) : Nat := ekb (0x80 + 8 * c)
def bpos : Nat := ekb 0x100
def portStatus (e : Nat) : Nat := ekb (0x1000 + 0x80 * e)
def portCtrl (e : Nat) : Nat := ekb (0x1008 + 0x80 * e)
def rtt (e : Nat) : Nat := ekb (0x1010 + 0x80 * e)
def retry (e : Nat) : Nat := ekb (0x1018 + 0x80 * e)
def fecCorr (e : Nat) : Nat := ekb (0x1020 + 0x80 * e)
def fecUncorr (e : Nat) : Nat := ekb (0x1028 + 0x80 * e)
def linkDowns (e : Nat) : Nat := ekb (0x1030 + 0x80 * e)
def txBytes (e : Nat) : Nat := ekb (0x1038 + 0x80 * e)
def rxBytes (e : Nat) : Nat := ekb (0x1040 + 0x80 * e)
def transitFlits (e : Nat) : Nat := ekb (0x1048 + 0x80 * e)
def route (w : Nat) : Nat := ekb (0x8000 + 8 * w)

-- HBM controllers and CXL ports (R279, R280)
def hbmStatus (s : Nat) : Nat := hbm s 0x0
def hbmCe (s : Nat) : Nat := hbm s 0x8
def hbmUe (s : Nat) : Nat := hbm s 0x10
def hbmOdecc (s : Nat) : Nat := hbm s 0x18
def hbmPoisonSet (s : Nat) : Nat := hbm s 0x20
def hbmPasses (s : Nat) : Nat := hbm s 0x30
def hbmErrAddr (s : Nat) : Nat := hbm s 0x38
def cxlStatus (p : Nat) : Nat := cxl p 0x0
def cxlCap (p : Nat) : Nat := cxl p 0x8
def cxlNs (p : Nat) : Nat := cxl p 0x10
def cxlTimeouts (p : Nat) : Nat := cxl p 0x18
def cxlPoison (p : Nat) : Nat := cxl p 0x20
def cxlEvents (p : Nat) : Nat := cxl p 0x28

-- Region router and region sync (R61, R277, R95, R304, R395)
def owner (r : Nat) : Nat := rtr r 0x0
def xHits (r : Nat) : Nat := rtr r 0x8
def xWalks (r : Nat) : Nat := rtr r 0x10
def xWalkBeats (r : Nat) : Nat := rtr r 0x18
def xFaults (r : Nat) : Nat := rtr r 0x20
def poisonReads (r : Nat) : Nat := rtr r 0x28
def spCe (r : Nat) : Nat := rtr r 0x30
def spUe (r : Nat) : Nat := rtr r 0x38
def faultAddr (r : Nat) : Nat := rtr r 0x40
def faultInfo (r : Nat) : Nat := rtr r 0x48
def admShare (r : Nat) : Nat := rtr r 0x200
def admWaits (r c : Nat) : Nat := rtr r (0x210 + 8 * c)
def admWaitBeats (r c : Nat) : Nat := rtr r (0x230 + 8 * c)
def admBusy (r : Nat) : Nat := rtr r 0x250
def absentRing (r : Nat) : Nat := rtr r 0x300
def ldoorbell (r : Nat) : Nat := rtr r 0x308
def nodeCnt (r i : Nat) : Nat := rsync r (8 * i)
def clCnt (r k i : Nat) : Nat := rsync r (0x1000 + 0x200 * k + 8 * i)
def poke (r : Nat) : Nat := rsync r 0x2400
def epoch (r : Nat) : Nat := rsync r 0x2408
def syncSat (r : Nat) : Nat := rsync r 0x2410
def unmapped (r : Nat) : Nat := rsync r 0x2418
def foreignDrop (r : Nat) : Nat := rsync r 0x2420
def barMismatch (r : Nat) : Nat := rsync r 0x2428
def mapStatus (r : Nat) : Nat := rsync r 0x2430
def barPending (r : Nat) : Nat := rsync r 0x2438
def step (r : Nat) : Nat := rsync r 0x2440

-- Sequencer (R54, R88, R128)
def qBase (r k q : Nat) : Nat := seq r k (0x20 * q)
def qLen (r k q : Nat) : Nat := seq r k (0x8 + 0x20 * q)
def qStatus (r k q : Nat) : Nat := seq r k (0x10 + 0x20 * q)
def qRetired (r k q : Nat) : Nat := seq r k (0x18 + 0x20 * q)
def doorbell (r k : Nat) : Nat := seq r k 0x80
def ringDrop (r k : Nat) : Nat := seq r k 0x88
def evalCtrl (r k : Nat) : Nat := seq r k 0x90
def evalStatus (r k : Nat) : Nat := seq r k 0x98
def evalBase (r k q : Nat) : Nat := seq r k (0xA0 + 8 * q)
def evalPos (r k q : Nat) : Nat := seq r k (0xC0 + 8 * q)
def seqBeat (r k : Nat) : Nat := seq r k 0x100
def collide (r k : Nat) : Nat := seq r k 0x108
def yield_ (r k : Nat) : Nat := seq r k 0x110
def pace (r k : Nat) : Nat := seq r k 0x118
def skipped (r k : Nat) : Nat := seq r k 0x120
def badField (r k : Nat) : Nat := seq r k 0x128
def holdFetch (r k : Nat) : Nat := seq r k 0x130
def holdDesc (r k : Nat) : Nat := seq r k 0x138
def holdLri (r k : Nat) : Nat := seq r k 0x140
def holdBusy (r k : Nat) : Nat := seq r k 0x148
def slipRaw (r k : Nat) : Nat := seq r k 0x150
def slipWar (r k : Nat) : Nat := seq r k 0x158
def slipWaw (r k : Nat) : Nat := seq r k 0x160
def slipInfo (r k : Nat) : Nat := seq r k 0x168
def slipBeat (r k : Nat) : Nat := seq r k 0x170
def lriStatus (r k : Nat) : Nat := seq r k 0x178

-- Engines (R158-R160, R180, R215, R394, R87, R242)
def pmMis (r k : Nat) : Nat := pm r k 0x0
def pmSplit (r k : Nat) : Nat := pm r k 0x8
def pmPadw (r k : Nat) : Nat := pm r k 0x10
def pmMasked (r k : Nat) : Nat := pm r k 0x18
def mvPending (r k m : Nat) : Nat := mv r k (0x40 * m)
def mvNarrow (r k m : Nat) : Nat := mv r k (0x8 + 0x40 * m)
def mvOrdered (r k m : Nat) : Nat := mv r k (0x10 + 0x40 * m)
def mvBytes (r k m : Nat) : Nat := mv r k (0x18 + 0x40 * m)
def ttFills (r k : Nat) : Nat := tt r k 0x0
def ttDrains (r k : Nat) : Nat := tt r k 0x8
def maShape (r k : Nat) : Nat := ma r k 0x0
def maColmap (r k : Nat) : Nat := ma r k 0x8
def maWidthSkip (r k : Nat) : Nat := ma r k 0x10
def maCmds (r k : Nat) : Nat := ma r k 0x18
def maGated (r k : Nat) : Nat := ma r k 0x20
def maSwitch (r k : Nat) : Nat := ma r k 0x28
def maFp (r k : Nat) : Nat := ma r k 0x300
def veCmds (r k v : Nat) : Nat := ve r k v 0x0
def veElems (r k v : Nat) : Nat := ve r k v 0x8
def veEvals (r k v : Nat) : Nat := ve r k v 0x10
def veCarryEarly (r k v : Nat) : Nat := ve r k v 0x18
def veSegments (r k v : Nat) : Nat := ve r k v 0x20
def veTid (r k v : Nat) : Nat := ve r k v 0x40
def veIbase (r k v : Nat) : Nat := ve r k v 0x48
def veFp (r k v : Nat) : Nat := ve r k v 0x300
def sfuValid (r k v : Nat) : Nat := sfuV r k v 0x0
def sfuCfg (r k v : Nat) : Nat := sfuV r k v 0x8
def sfuCompat (r k v : Nat) : Nat := sfuV r k v 0x10
def sfuChisel (r k v : Nat) : Nat := sfuV r k v 0x18
def sfuDeriv (r k v : Nat) : Nat := sfuV r k v 0x20
def sfuRms (r k v : Nat) : Nat := sfuV r k v 0x28
end A

end Sys2Proof.Machine
end

