-- ==== Sys2Proof/Machine/Num.lean ====
section
/-!
DEFINITION. Sys2Proof/Machine/Num.lean: number formats, rounding and conversion (03_numeric_formats.md, R65 to R86).
A value is exact: a NaN, an infinity, or a sign with a natural times a power of two. Each rounding
returns the rounded value and the status bits of R87.
-/
namespace Sys2Proof.Machine

/-- Floating-point status bits in the order of R87: INVALID, DIVZERO, OVERFLOW, UNDERFLOW, INEXACT, SAT. -/
abbrev Fl := BitVec 6

namespace Flag
def none : Fl := 0#6
def invalid : Fl := 1#6
def divzero : Fl := 2#6
def overflow : Fl := 4#6
def underflow : Fl := 8#6
def inexact : Fl := 16#6
def sat : Fl := 32#6
end Flag

/-- An exact value: `fin neg m e` is (−1)^neg × m × 2^e; a signalling NaN is kept apart (R66). -/
inductive FV where
  | nan (signalling : Bool)
  | inf (neg : Bool)
  | fin (neg : Bool) (m : Nat) (e : Int)
  deriving DecidableEq, Repr

/-- What an operation gives: the value and the status bits it raises. -/
structure Res where
  v  : FV
  fl : Fl
  deriving DecidableEq, Repr

/-- The 16 format codes of R65. -/
inductive Fmt where
  | fp32 | bf16 | fp16 | e4m3 | e5m2 | mxE4m3 | mxE5m2 | mxE3m2 | mxE2m3 | mxE2m1
  | int32 | int16 | int8 | int4 | uint8 | fp64
  deriving DecidableEq, Repr

/-- R65: the format a 4-bit code names. -/
def Fmt.ofCode (c : Nat) : Fmt :=
  match c % 16 with
  | 0 => .fp32 | 1 => .bf16 | 2 => .fp16 | 3 => .e4m3 | 4 => .e5m2 | 5 => .mxE4m3 | 6 => .mxE5m2
  | 7 => .mxE3m2 | 8 => .mxE2m3 | 9 => .mxE2m1 | 10 => .int32 | 11 => .int16 | 12 => .int8
  | 13 => .int4 | 14 => .uint8 | _ => .fp64

/-- R65: element width in bits. -/
def Fmt.bits : Fmt → Nat
  | .fp32 => 32 | .bf16 => 16 | .fp16 => 16 | .e4m3 => 8 | .e5m2 => 8 | .mxE4m3 => 8 | .mxE5m2 => 8
  | .mxE3m2 => 6 | .mxE2m3 => 6 | .mxE2m1 => 4 | .int32 => 32 | .int16 => 16 | .int8 => 8 | .int4 => 4
  | .uint8 => 8 | .fp64 => 64

/-- How a float format spells its special values (R65). -/
inductive Specials where
  | ieee | e4m3 | none
  deriving DecidableEq, Repr

/-- Exponent bits, fraction bits, bias and special values of a float format; `none` for integers. -/
structure FloatShape where
  eb   : Nat
  mb   : Nat
  bias : Nat
  sp   : Specials
  deriving DecidableEq, Repr

/-- R65: the layout of a format's elements, `none` for the integer formats. -/
def Fmt.shape : Fmt → Option FloatShape
  | .fp32 => some ⟨8, 23, 127, .ieee⟩
  | .bf16 => some ⟨8, 7, 127, .ieee⟩
  | .fp16 => some ⟨5, 10, 15, .ieee⟩
  | .e4m3 => some ⟨4, 3, 7, .e4m3⟩
  | .e5m2 => some ⟨5, 2, 15, .ieee⟩
  | .mxE4m3 => some ⟨4, 3, 7, .e4m3⟩
  | .mxE5m2 => some ⟨5, 2, 15, .ieee⟩
  | .mxE3m2 => some ⟨3, 2, 3, .none⟩
  | .mxE2m3 => some ⟨2, 3, 1, .none⟩
  | .mxE2m1 => some ⟨2, 1, 1, .none⟩
  | .fp64 => some ⟨11, 52, 1023, .ieee⟩
  | _ => none

def Fmt.isInt : Fmt → Bool
  | .int32 | .int16 | .int8 | .int4 | .uint8 => true
  | _ => false

/-- The five block-scaled codes (R68). -/
def Fmt.isMx : Fmt → Bool
  | .mxE4m3 | .mxE5m2 | .mxE3m2 | .mxE2m3 | .mxE2m1 => true
  | _ => false

/-- R70 step 3: the exponent of the largest element. -/
def Fmt.emax : Fmt → Nat
  | .mxE4m3 => 8 | .mxE5m2 => 15 | .mxE3m2 => 4 | .mxE2m3 => 2 | .mxE2m1 => 2 | .e5m2 => 15
  | _ => 0

def Fmt.isSigned : Fmt → Bool
  | .uint8 => false
  | _ => true

/-- R65: the smallest and largest value of an integer format. -/
def Fmt.intMin (f : Fmt) : Int := if f.isSigned then -((2 ^ (f.bits - 1) : Nat) : Int) else 0
def Fmt.intMax (f : Fmt) : Int :=
  if f.isSigned then ((2 ^ (f.bits - 1) : Nat) : Int) - 1 else ((2 ^ f.bits : Nat) : Int) - 1

/-- Rounding modes of R75; codes 5 to 7 are not executed (R76). -/
inductive Rnd where
  | rne | rtz | rup | rdn | sr
  deriving DecidableEq, Repr

def Rnd.ofCode (c : Nat) : Option Rnd :=
  match c with
  | 0 => some .rne | 1 => some .rtz | 2 => some .rup | 3 => some .rdn | 4 => some .sr
  | _ => none

/-- A rounding mode with the grain value u of R77, which only SR reads, and the saturate bit. -/
structure RndCtx where
  mode : Rnd
  u    : Nat
  sat  : Bool
  deriving DecidableEq, Repr

def RndCtx.rne : RndCtx := ⟨.rne, 0, false⟩

namespace FV

def zero (neg : Bool) : FV := .fin neg 0 0
def one : FV := .fin false 1 0
def ofNat (n : Nat) : FV := .fin false n 0
def ofInt (z : Int) : FV := .fin (z < 0) z.natAbs 0

def isNan : FV → Bool
  | .nan _ => true
  | _ => false

def isSig : FV → Bool
  | .nan s => s
  | _ => false

def isInf : FV → Bool
  | .inf _ => true
  | _ => false

def isZero : FV → Bool
  | .fin _ m _ => m == 0
  | _ => false

def isFinite : FV → Bool
  | .fin _ _ _ => true
  | _ => false

/-- Sign bit; a canonical NaN has sign 0 (R66). -/
def sign : FV → Bool
  | .nan _ => false
  | .inf n => n
  | .fin n _ _ => n

def neg : FV → FV
  | .nan s => .nan s
  | .inf n => .inf (!n)
  | .fin n m e => .fin (!n) m e

def abs : FV → FV
  | .nan s => .nan s
  | .inf _ => .inf false
  | .fin _ m e => .fin false m e

/-- Multiply by a power of two, exactly. -/
def scale (k : Int) : FV → FV
  | .fin n m e => .fin n m (e + k)
  | x => x

end FV

/-- `m × 2^e` in units of `2^q`, for `q ≤ e`. -/
def inUnits (m : Nat) (e q : Int) : Nat := m <<< (e - q).toNat

/-- floor(log2 (m × 2^e)) for m > 0. -/
def ilog2 (m : Nat) (e : Int) : Int := (Nat.log2 m : Int) + e

/-- Round `m × 2^e` to a multiple of `2^q`: the multiple, and whether it is exact (R75, R77). -/
def roundUnits (c : RndCtx) (neg : Bool) (m : Nat) (e q : Int) : Nat × Bool :=
  if q ≤ e then (inUnits m e q, true)
  else
    let sh := (q - e).toNat
    let y0 := m >>> sh
    let rem := m % 2 ^ sh
    if rem = 0 then (y0, true)
    else
      let up : Bool :=
        match c.mode with
        | .rne => 2 * rem > 2 ^ sh || (2 * rem == 2 ^ sh && y0 % 2 == 1)
        | .rtz => false
        | .rup => !neg
        | .rdn => neg
        | .sr => rem * 65536 > c.u * 2 ^ sh
      (if up then y0 + 1 else y0, false)

/-- The largest finite magnitude of a float shape as (significand, exponent) (R65). -/
def FloatShape.maxFin (f : FloatShape) : Nat × Int :=
  let top := 2 ^ f.eb - 1
  match f.sp with
  | .ieee => (2 ^ (f.mb + 1) - 1, (top : Int) - 1 - f.bias - f.mb)
  | .e4m3 => (2 ^ (f.mb + 1) - 2, (top : Int) - f.bias - f.mb)
  | .none => (2 ^ (f.mb + 1) - 1, (top : Int) - f.bias - f.mb)

/-- `a × 2^ea ≤ b × 2^eb`. -/
def magLe (a : Nat) (ea : Int) (b : Nat) (eb : Int) : Bool :=
  let q := min ea eb
  inUnits a ea q ≤ inUnits b eb q

/-- R86 for a float destination: what a result beyond the range becomes. `away` says that SR chose
the magnitude away from zero. -/
def overflowTo (f : FloatShape) (c : RndCtx) (neg away : Bool) : Res :=
  let mx := FV.fin neg f.maxFin.1 f.maxFin.2
  if c.sat then ⟨mx, Flag.sat ||| Flag.inexact⟩
  else
    match f.sp with
    | .ieee =>
      let toMax := match c.mode with
        | .rne => false
        | .rtz => true
        | .rup => neg
        | .rdn => !neg
        | .sr => !away
      ⟨if toMax then mx else .inf neg, Flag.overflow ||| Flag.inexact⟩
    | _ => ⟨.nan false, Flag.overflow ||| Flag.inexact⟩

/-- Round an exact value to a float shape (R75, R77, R79, R81, R85, R86). -/
def roundFloat (f : FloatShape) (c : RndCtx) : FV → Res
  | .nan s => ⟨.nan false, if s then Flag.invalid else Flag.none⟩
  | .inf n => if f.sp = .ieee then ⟨.inf n, Flag.none⟩ else overflowTo f c n true
  | .fin n 0 _ => ⟨FV.zero n, Flag.none⟩
  | .fin n m e =>
    let emin : Int := 1 - f.bias
    let l := ilog2 m e
    let q := max l emin - f.mb
    let (y, exact) := roundUnits c n m e q
    if !magLe y q f.maxFin.1 f.maxFin.2 then
      let away := match c.mode with
        | .sr => !exact && !magLe y q m e
        | _ => true
      overflowTo f c n away
    else if exact then ⟨.fin n y q, Flag.none⟩
    else
      let q2 := l - f.mb
      let y2 := (roundUnits c n m e q2).1
      let tiny := l < emin && !magLe 1 emin y2 q2
      ⟨.fin n y q, Flag.inexact ||| (if tiny then Flag.underflow else Flag.none)⟩

/-- Signed integer value of an exact integral magnitude in units of 1. -/
def signedOf (neg : Bool) (n : Nat) : Int := if neg then -(n : Int) else (n : Int)

/-- Integer reading of a finite integral value. -/
def FV.toInt : FV → Int
  | .fin n m e => signedOf n (if 0 ≤ e then m <<< e.toNat else m >>> (-e).toNat)
  | _ => 0

/-- Round an exact value to an integer format (R77, R85, R86). -/
def roundInt (f : Fmt) (c : RndCtx) : FV → Res
  | .nan _ => ⟨FV.zero false, Flag.invalid⟩
  | .inf n => ⟨FV.ofInt (if n then f.intMin else f.intMax), Flag.invalid⟩
  | .fin n m e =>
    let (y, exact) := roundUnits c n m e 0
    let z := signedOf n y
    let ie := if exact then Flag.none else Flag.inexact
    if f.intMin ≤ z ∧ z ≤ f.intMax then ⟨FV.ofInt z, ie⟩
    else if c.sat then
      ⟨FV.ofInt (if z < 0 then f.intMin else f.intMax), Flag.sat ||| Flag.inexact⟩
    else
      let w := toBits f.bits z
      ⟨FV.ofInt (if f.isSigned then signed f.bits w else (w : Int)), Flag.overflow ||| Flag.inexact⟩

/-- Round into a format that is no block-scaled code; an MX element always saturates (R70, R86). -/
def roundTo (f : Fmt) (c : RndCtx) (x : FV) : Res :=
  match f.shape with
  | some s => roundFloat s (if f.isMx then { c with sat := true } else c) x
  | none => roundInt f c x

/-- R65: the value of an element's bits. -/
def decodeFmt (f : Fmt) (w : Nat) : FV :=
  match f.shape with
  | some s =>
    let n := bitAt w (s.eb + s.mb)
    let e := field w s.mb s.eb
    let m := field w 0 s.mb
    let top := 2 ^ s.eb - 1
    if e = 0 then .fin n m (1 - (s.bias : Int) - s.mb)
    else if e = top ∧ s.sp = .ieee then
      if m = 0 then .inf n else .nan (!bitAt m (s.mb - 1))
    else if e = top ∧ s.sp = .e4m3 ∧ m = 2 ^ s.mb - 1 then .nan false
    else .fin n (2 ^ s.mb + m) ((e : Int) - s.bias - s.mb)
  | none => FV.ofInt (if f.isSigned then signed f.bits w else ((w % 2 ^ f.bits : Nat) : Int))

/-- R66: the canonical quiet NaN of a float shape. -/
def FloatShape.qnan (s : FloatShape) : Nat :=
  match s.sp with
  | .ieee => ((2 ^ s.eb - 1) <<< s.mb) + 2 ^ (s.mb - 1)
  | .e4m3 => 2 ^ (s.eb + s.mb) - 1
  | .none => 2 ^ (s.eb + s.mb) - 1

/-- The bits of a value that the format represents (as a rounding leaves it). -/
def encodeFmt (f : Fmt) (x : FV) : Nat :=
  match f.shape with
  | some s =>
    match x with
    | .nan _ => s.qnan
    | .inf n => (if n then 2 ^ (s.eb + s.mb) else 0) + ((2 ^ s.eb - 1) <<< s.mb)
    | .fin n m e =>
      let sgn := if n then 2 ^ (s.eb + s.mb) else 0
      if m = 0 then sgn
      else
        let q := max (ilog2 m e) (1 - (s.bias : Int)) - s.mb
        let y := if q ≤ e then inUnits m e q else m >>> (q - e).toNat
        if y < 2 ^ s.mb then sgn + y
        else sgn + ((q + s.mb + s.bias).toNat <<< s.mb) + y % 2 ^ s.mb
  | none =>
    match x with
    | .fin n m e => toBits f.bits (signedOf n (if 0 ≤ e then m <<< e.toNat else m >>> (-e).toNat))
    | _ => 0

/-- Convert bits of one format to bits of another, neither block-scaled (R85). -/
def convertBits (src dst : Fmt) (c : RndCtx) (w : Nat) : Nat × Fl :=
  let r := roundTo dst c (decodeFmt src w)
  (encodeFmt dst r.v, r.fl)

/-! ### Exact arithmetic -/

/-- Signed sum of two finite values at a common exponent. -/
def addExact (n1 : Bool) (m1 : Nat) (e1 : Int) (n2 : Bool) (m2 : Nat) (e2 : Int) : Int × Int :=
  let q := min e1 e2
  (signedOf n1 (inUnits m1 e1 q) + signedOf n2 (inUnits m2 e2 q), q)

/-- R79: sign of an exact zero sum. -/
def zeroSumSign (c : Rnd) (n1 n2 : Bool) (z1 z2 : Bool) : Bool :=
  if z1 && z2 && n1 == n2 then n1 else c == .rdn

def sigFl (x : FV) : Fl := if x.isSig then Flag.invalid else Flag.none

/-- IEEE 754 addition, exact before the rounding `rnd` (R79, R81). -/
def addV (mode : Rnd) (a b : FV) : Res :=
  match a, b with
  | .nan s, y => ⟨.nan false, (if s then Flag.invalid else Flag.none) ||| sigFl y⟩
  | x, .nan s => ⟨.nan false, (if s then Flag.invalid else Flag.none) ||| sigFl x⟩
  | .inf n, .inf k => if n == k then ⟨.inf n, Flag.none⟩ else ⟨.nan false, Flag.invalid⟩
  | .inf n, _ => ⟨.inf n, Flag.none⟩
  | _, .inf k => ⟨.inf k, Flag.none⟩
  | .fin n1 m1 e1, .fin n2 m2 e2 =>
    let (z, q) := addExact n1 m1 e1 n2 m2 e2
    if z = 0 then ⟨FV.zero (zeroSumSign mode n1 n2 (m1 == 0) (m2 == 0)), Flag.none⟩
    else ⟨.fin (z < 0) z.natAbs q, Flag.none⟩

/-- IEEE 754 multiplication, exact. -/
def mulV (a b : FV) : Res :=
  match a, b with
  | .nan s, y => ⟨.nan false, (if s then Flag.invalid else Flag.none) ||| sigFl y⟩
  | x, .nan s => ⟨.nan false, (if s then Flag.invalid else Flag.none) ||| sigFl x⟩
  | .inf n, .inf k => ⟨.inf (n != k), Flag.none⟩
  | .inf n, .fin k m _ => if m = 0 then ⟨.nan false, Flag.invalid⟩ else ⟨.inf (n != k), Flag.none⟩
  | .fin n m _, .inf k => if m = 0 then ⟨.nan false, Flag.invalid⟩ else ⟨.inf (n != k), Flag.none⟩
  | .fin n1 m1 e1, .fin n2 m2 e2 => ⟨.fin (n1 != n2) (m1 * m2) (e1 + e2), Flag.none⟩

/-- Exact a × b + c; the caller rounds once (R81). DESIGN CHOICE (log 89): zero times infinity raises INVALID whatever
c is, a quiet NaN included. -/
def fmaV (mode : Rnd) (a b c : FV) : Res :=
  let p := mulV a b
  let r := addV mode p.v c
  ⟨r.v, p.fl ||| r.fl⟩

/-- Bits kept of a quotient or a root before its sticky bit: more than any precision of R65 plus the
16 bits SR looks at. -/
def divBits : Nat := 80

/-- IEEE 754 division: an exact quotient, or one whose lowest bit says that a remainder is left. -/
def divV (a b : FV) : Res :=
  match a, b with
  | .nan s, y => ⟨.nan false, (if s then Flag.invalid else Flag.none) ||| sigFl y⟩
  | x, .nan s => ⟨.nan false, (if s then Flag.invalid else Flag.none) ||| sigFl x⟩
  | .inf _, .inf _ => ⟨.nan false, Flag.invalid⟩
  | .inf n, .fin k _ _ => ⟨.inf (n != k), Flag.none⟩
  | .fin n _ _, .inf k => ⟨FV.zero (n != k), Flag.none⟩
  | .fin n1 m1 e1, .fin n2 m2 e2 =>
    if m2 = 0 then
      if m1 = 0 then ⟨.nan false, Flag.invalid⟩ else ⟨.inf (n1 != n2), Flag.divzero⟩
    else if m1 = 0 then ⟨FV.zero (n1 != n2), Flag.none⟩
    else
      let sh := divBits + bitLen m2
      let num := m1 <<< sh
      let q := num / m2
      let st := if num % m2 = 0 then 0 else 1
      ⟨.fin (n1 != n2) (2 * q + st) (e1 - e2 - sh - 1), Flag.none⟩

/-- Exact comparison of two values that are no NaN: less, equal, greater as −1, 0, 1. -/
def cmpV (a b : FV) : Int :=
  match a, b with
  | .inf n, .inf k => if n == k then 0 else if n then -1 else 1
  | .inf n, _ => if n then -1 else 1
  | _, .inf k => if k then 1 else -1
  | .fin n1 m1 e1, .fin n2 m2 e2 =>
    let (z, _) := addExact n1 m1 e1 (!n2) m2 e2
    if z < 0 then -1 else if z = 0 then 0 else 1
  | _, _ => 0

/-- `a < b` with −0 < +0 (R81); both no NaN. -/
def ltTotal (a b : FV) : Bool :=
  match cmpV a b with
  | .negSucc _ => true
  | .ofNat 0 => a.sign && !b.sign
  | .ofNat _ => false

/-- IEEE 754-2019 minimum: a NaN operand gives NaN, −0 is less than +0 (R81). -/
def minV (a b : FV) : Res :=
  if a.isNan || b.isNan then ⟨.nan false, sigFl a ||| sigFl b⟩
  else ⟨if ltTotal b a then b else a, Flag.none⟩

def maxV (a b : FV) : Res :=
  if a.isNan || b.isNan then ⟨.nan false, sigFl a ||| sigFl b⟩
  else ⟨if ltTotal a b then b else a, Flag.none⟩

/-- IEEE 754-2019 minimumNumber: a NaN operand gives the other one (R81). -/
def minNumV (a b : FV) : Res :=
  if a.isNan && b.isNan then ⟨.nan false, sigFl a ||| sigFl b⟩
  else if a.isNan then ⟨b, sigFl a⟩
  else if b.isNan then ⟨a, sigFl b⟩
  else ⟨if ltTotal b a then b else a, Flag.none⟩

def maxNumV (a b : FV) : Res :=
  if a.isNan && b.isNan then ⟨.nan false, sigFl a ||| sigFl b⟩
  else if a.isNan then ⟨b, sigFl a⟩
  else if b.isNan then ⟨a, sigFl b⟩
  else ⟨if ltTotal a b then b else a, Flag.none⟩

/-- Round the outcome of an exact operation into a format, joining the status bits. -/
def Res.round (f : Fmt) (c : RndCtx) (r : Res) : Res :=
  let t := roundTo f c r.v
  ⟨t.v, r.fl ||| t.fl⟩

/-! ### Block-scaled formats (R68 to R74, R520) -/

/-- R68: value of an MX element under its scale byte. -/
def mxValue (f : Fmt) (scale elem : Nat) : FV :=
  if scale % 256 = 255 then .nan false else (decodeFmt f elem).scale ((scale % 256 : Nat) - 127)

/-- R74: value of a GX8 element under its scale word; HEADROOM and ESC never change it. -/
def gx8Value (word elem : Nat) : FV :=
  if field word 0 8 = 255 then .nan false else (decodeFmt .e5m2 elem).scale ((field word 0 8 : Nat) - 127)

/-- floor(log2) of the largest finite magnitude of a list, `none` when all are zero (R70 step 1). -/
def blockLog : List FV → Option Int
  | [] => none
  | .fin _ m e :: xs =>
    if m = 0 then blockLog xs
    else match blockLog xs with
      | none => some (ilog2 m e)
      | some l => some (max l (ilog2 m e))
  | _ :: xs => blockLog xs

/-- R70 steps 2 and 3: the scale code of a block, for elements of largest exponent `emax`. DESIGN CHOICE (log 90): a
block none of whose elements is active has no amax and takes code 0, as one whose amax is 0. -/
def blockScale (emax : Nat) (xs : List FV) : Nat :=
  match blockLog xs with
  | none => 0
  | some l => (max 0 (min 254 (l - emax + 127))).toNat

/-- One encoded block: its scale code (or GX8 scale word), its elements and the status bits raised. -/
structure EncBlock where
  scale : Nat
  elems : List Nat
  fl    : Fl
  deriving DecidableEq, Repr

/-- R70 step 4: each present input divided by the scale and rounded; a missing one is +0 (R71). -/
def encodeElems (f : Fmt) (x : Nat) : List (Option (FV × RndCtx)) → List Nat × Fl
  | [] => ([], Flag.none)
  | none :: r => let (es, fl) := encodeElems f x r; (0 :: es, fl)
  | some (v, c) :: r =>
    let t := roundTo f { c with sat := true } (v.scale (127 - (x : Int)))
    let (es, fl) := encodeElems f x r
    (encodeFmt f t.v :: es, t.fl ||| fl)

def presentOf : List (Option (FV × RndCtx)) → List FV
  | [] => []
  | none :: r => presentOf r
  | some (v, _) :: r => v :: presentOf r

/-- Encode a block into elements of `f` under a given scale code (R70, R72). -/
def encodeUnder (f : Fmt) (x : Nat) (xs : List (Option (FV × RndCtx))) : EncBlock :=
  if (presentOf xs).any (fun v => !v.isFinite) then ⟨255, xs.map (fun _ => 0), Flag.invalid⟩
  else if x = 255 then ⟨255, xs.map (fun _ => 0), Flag.none⟩
  else let (es, fl) := encodeElems f x xs; ⟨x, es, fl⟩

/-- R70 to R72: encode one MX block. -/
def mxEncode (f : Fmt) (xs : List (Option (FV × RndCtx))) : EncBlock :=
  encodeUnder f (blockScale f.emax ((presentOf xs).filter FV.isFinite)) xs

/-- R73: the scale word with headroom and escalation. -/
def gx8Word (scale headroom : Nat) (esc : Bool) : Nat :=
  scale % 256 + (headroom % 4) * 256 + (if esc then 1024 else 0)

/-- R74: encode a GX8 block with a scale of its own choosing and headroom `h`. -/
def gx8Encode (h : Nat) (xs : List (Option (FV × RndCtx))) : EncBlock :=
  let x := min 254 (blockScale 15 ((presentOf xs).filter FV.isFinite) + h)
  let b := encodeUnder .mxE5m2 x xs
  { b with scale := gx8Word b.scale h false }

/-- R74: encode a GX8 block under an agreed scale word, taken as given. DESIGN CHOICE (log 91): a NaN block (R72) keeps
the agreed HEADROOM beside its SCALE 0xFF. -/
def gx8EncodeAgreed (word : Nat) (xs : List (Option (FV × RndCtx))) : EncBlock :=
  let b := encodeUnder .mxE5m2 (field word 0 8) xs
  { b with scale := gx8Word b.scale (field word 8 2) false }

end Sys2Proof.Machine
end

