-- ==== Sys2Proof/Machine/Grain.lean ====
section
/-!
DEFINITION. Sys2Proof/Machine/Grain.lean: the grain generator (R370, R371, R373, R78).
-/
namespace Sys2Proof.Machine

def m32 (n : Nat) : Nat := n % 4294967296

/-- Rotate a 32-bit word left. -/
def rotl32 (v n : Nat) : Nat := m32 ((m32 v <<< n) ||| (m32 v >>> (32 - n)))

/-- The generator's four words and two key words. -/
structure GrainSt where
  x0 : Nat
  x1 : Nat
  x2 : Nat
  x3 : Nat
  k0 : Nat
  k1 : Nat
  deriving DecidableEq, Repr

/-- One round of R370. -/
def grainRound (s : GrainSt) : GrainSt :=
  let x0 := m32 ((s.x0 ^^^ s.k0) * 0x8f3b6c25)
  let x1 := m32 (s.x1 + rotl32 x0 11)
  let x2 := m32 ((s.x2 ^^^ rotl32 x1 7) * 0xc2d17a4b)
  let x3 := m32 (s.x3 + (x2 ^^^ s.k1))
  let y0 := x0 ^^^ rotl32 x3 19
  let k0 := m32 (s.k0 + 0x5c3a91e7)
  { x0 := x1, x1 := x2, x2 := x3, x3 := y0, k0 := k0, k1 := s.k1 ^^^ rotl32 k0 13 }

def grainRounds : Nat → GrainSt → GrainSt
  | 0, s => s
  | n + 1, s => grainRounds n (grainRound s)

/-- R370: output words of the counter (step, index, tid) under a seed. -/
def grain (seed step index tid : Nat) : GrainSt :=
  grainRounds 10
    { x0 := m32 step, x1 := m32 index, x2 := m32 (index >>> 32), x3 := m32 tid
      k0 := m32 seed, k1 := m32 (seed >>> 32) }

/-- What a command reads at its issue beat for its draws (R371, R373). -/
structure GrainCtx where
  seed  : Nat
  step  : Nat
  ibase : Nat
  tid   : Nat
  deriving DecidableEq, Repr

/-- R78: the 16-bit value u of the element at ordinal `k`. -/
def GrainCtx.u (g : GrainCtx) (k : Nat) : Nat := (grain g.seed g.step (g.ibase + k) g.tid).x0 % 65536

/-- Rounding context of the element at ordinal `k`: only SR draws. -/
def GrainCtx.rc (g : GrainCtx) (mode : Rnd) (sat : Bool) (k : Nat) : RndCtx :=
  ⟨mode, if mode = .sr then g.u k else 0, sat⟩

end Sys2Proof.Machine
end

