-- ==== Sys2Proof/Machine/Operands.lean ====
section
/-!
DEFINITION. Sys2Proof/Machine/Operands.lean: descriptors and the pointing machine (05_pointing_machine.md):
fields, checks, the position sequence, runs, blocks, bank accesses, groups and intents.
-/
namespace Sys2Proof.Machine

/-- One loop level of a descriptor (R131). -/
structure Level where
  count  : Nat
  stride : Int
  lo     : Nat
  hi     : Nat
  bound  : Nat
  deriving DecidableEq, Repr

/-- A descriptor's fields (R131); `lv` holds the levels in use only (R132). `space` is the size in bits of the address
space its slot works in: 2^52 bytes (R134), and 2^22 for a timed slot (R135). -/
structure Desc where
  base       : Nat
  esize      : Nat
  levels     : Nat
  swz        : Nat
  padw       : Bool
  rstore     : Bool
  maskBounds : Bool
  maskTensor : Bool
  lv         : List Level
  padValue   : Nat
  maskBase   : Nat
  scaleEntry : Nat
  scaleUse   : Bool
  space      : Nat
  deriving DecidableEq, Repr

/-- R135: bits of a scratchpad. -/
def padSpace : Nat := 2 ^ 25

def levelOf (w n : Nat) : Level :=
  { count := field w (8 * (8 + 3 * n)) 24
    stride := signed 48 (w >>> (8 * (26 + 6 * n)))
    lo := field w (8 * (62 + 2 * n)) 16
    hi := field w (8 * (74 + 2 * n)) 16
    bound := field w (8 * (86 + 3 * n)) 24 }

/-- R131: read a descriptor from its 128 bytes. -/
def Desc.ofBits (d : Desc1024) : Desc :=
  let w := d.toNat
  let levels := field w 55 3
  { base := field w 0 52
    esize := field w 52 3
    levels := levels
    swz := field w 58 2
    padw := bitAt w 60
    rstore := bitAt w 61
    maskBounds := bitAt w 62
    maskTensor := bitAt w 63
    lv := (List.range (min levels 6)).map (levelOf w)
    padValue := field w (8 * 104) 64
    maskBase := field w (8 * 112) 52
    scaleEntry := field w (8 * 112 + 52) 8
    scaleUse := bitAt w (8 * 112 + 60)
    space := 2 ^ 55 }

/-- R135: a descriptor as a timed slot reads it, on the cluster's own scratchpad. -/
def Desc.onPad (d : Desc) : Desc := { d with space := padSpace }

/-- Element size in bits, `none` for the invalid codes (R131). -/
def esizeBits (c : Nat) : Option Nat :=
  match c with
  | 0 => some 4 | 1 => some 6 | 2 => some 8 | 3 => some 16 | 4 => some 32 | 5 => some 64
  | _ => none

def Desc.ebits (d : Desc) : Nat := (esizeBits d.esize).getD 8

/-- Positions of one level, pads included. -/
def Level.total (l : Level) : Nat := l.lo + l.count + l.hi

/-- Number of positions, pads included. -/
def Desc.positions (d : Desc) : Nat := prodNat (d.lv.map Level.total)

/-- Number of positions without pads. -/
def Desc.elements (d : Desc) : Nat := prodNat (d.lv.map Level.count)

def Desc.count (d : Desc) (n : Nat) : Nat := (nth ⟨1, 0, 0, 0, 0⟩ d.lv n).count

/-- R133: the conditions on any named descriptor; `bits` is the size the format wants, 0 when the
command names no format for the slot. -/
def Desc.ok (d : Desc) (bits : Nat) : Bool :=
  (esizeBits d.esize).isSome && d.levels ≥ 1 && d.levels ≤ 6 && d.swz ≠ 3
    && d.lv.all (fun l => l.count ≠ 0)
    && (bits == 0 || bits == d.ebits)
    && (d.ebits < 8 || (d.base % (d.ebits / 8) == 0 && d.lv.all (fun l => l.stride % ((d.ebits / 8 : Nat) : Int) == 0)))
    && (d.ebits ≠ 6 || (d.lv.drop 1).all (fun l => l.stride % 3 == 0))
    && d.positions ≤ 2 ^ 40
    && (!d.maskTensor || d.maskBase % 128 == 0)

/-- R136: a mover slot of sub-byte elements writes whole bytes. -/
def Desc.moverWriteOk (d : Desc) : Bool :=
  match d.lv with
  | [] => false
  | l :: _ => if d.ebits = 4 then l.total % 2 == 0 else if d.ebits = 6 then l.total % 4 == 0 else true

/-- All pads are absent (R148). -/
def Desc.noPads (d : Desc) : Bool := d.lv.all fun l => l.lo == 0 && l.hi == 0

/-- R148: the scale array's descriptor agrees with the element descriptor. -/
def scaleDescOk (gx8 : Bool) (d s : Desc) : Bool :=
  s.ok (if gx8 then 16 else 8) && s.levels == d.levels && s.noPads
    && s.count 0 == ceilDiv (d.count 0) 32
    && (s.lv.drop 1).map Level.count == (d.lv.drop 1).map Level.count

/-! ### The position sequence (R134) -/

/-- A position: ordinal, indices (level 0 first), first bit (not yet wrapped), pad mark, and active
mark by bounds; the mask tensor's bit is read with its line. -/
structure Pos where
  k     : Nat
  idx   : List Int
  bits  : Int
  pad   : Bool
  inBnd : Bool
  deriving DecidableEq, Repr

/-- Index vectors with level 0 fastest. -/
def indexVectors : List Level → List (List Int)
  | [] => [[]]
  | l :: ls =>
    (indexVectors ls).flatMap fun outer =>
      (List.range l.total).map fun (j : Nat) => ((j : Int) - (l.lo : Int)) :: outer

def strideSum : List Level → List Int → Int
  | l :: ls, i :: is => i * l.stride + strideSum ls is
  | _, _ => 0

def padMark : List Level → List Int → Bool
  | l :: ls, i :: is => i < 0 || i ≥ (l.count : Int) || padMark ls is
  | _, _ => false

def boundMark : List Level → List Int → Bool
  | l :: ls, i :: is => i ≥ (l.bound : Int) || boundMark ls is
  | _, _ => false

/-- R134: first bit of a position. -/
def Desc.bitsAt (d : Desc) (ix : List Int) : Int :=
  if d.ebits ≥ 8 then 8 * (d.base : Int) + 8 * strideSum d.lv ix
  else 8 * (d.base : Int) + (ix.headD 0) * (d.ebits : Int) + 8 * strideSum (d.lv.drop 1) (ix.drop 1)

def Desc.posAt (d : Desc) (k : Nat) (ix : List Int) : Pos :=
  { k := k, idx := ix, bits := d.bitsAt ix, pad := padMark d.lv ix
    inBnd := !(d.maskBounds && boundMark d.lv ix) }

def numberFrom {α β : Type} (f : Nat → α → β) : Nat → List α → List β
  | _, [] => []
  | k, x :: xs => f k x :: numberFrom f (k + 1) xs

/-- R134: every position in ordinal order. -/
def Desc.seq (d : Desc) : List Pos := numberFrom d.posAt 0 (indexVectors d.lv)

/-- Byte address of a position in the 52-bit space. -/
def Pos.addr (p : Pos) : Nat := ((p.bits / 8) % (2 ^ 52 : Nat)).toNat

def Pos.bitoff (p : Pos) : Nat := (p.bits % 8).toNat

/-- Two positions of a space alias when they have the same address and bit offset (R135, R137). -/
def Pos.aliases (space : Nat) (p q : Pos) : Bool := (p.bits - q.bits) % (space : Int) == 0

/-- R148: ordinal, in the scale array, of the block an element belongs to. -/
def scaleOrdinal : List Level → List Int → Nat
  | l :: ls, i :: is => (i / 32).toNat + ceilDiv l.count 32 * go ls is
  | _, _ => 0
where
  go : List Level → List Int → Nat
    | l :: ls, i :: is => i.toNat + l.count * go ls is
    | _, _ => 0

/-! ### Runs, blocks and accesses (R143 to R147) -/

/-- A run: whether its positions are pads, its first bit, its length in bits, its positions. -/
structure Run where
  pad   : Bool
  start : Int
  len   : Nat
  ps    : List Pos
  deriving DecidableEq, Repr

/-- Where a position lies that continues a run (R143): at the bit after the last position's, or at its address; addresses
are those of R134 and R135, which wrap. `none`: it starts a run of its own. -/
def continues (space eb : Nat) (last p : Pos) : Option Pos :=
  if last.pad != p.pad then none
  else if (p.bits - last.bits - (eb : Int)) % (space : Int) == 0 then some { p with bits := last.bits + (eb : Int) }
  else if p.aliases space last then some { p with bits := last.bits }
  else none

/-- Close the run whose positions, newest first, are `rev`. -/
def closeRun (eb : Nat) (rev : List Pos) : List Run :=
  match rev, rev.reverse with
  | last :: _, first :: _ =>
    [{ pad := first.pad, start := first.bits, len := (last.bits - first.bits).toNat + eb, ps := rev.reverse }]
  | _, _ => []

def runsFrom (space eb : Nat) : List Pos → List Pos → List Run
  | rev, [] => closeRun eb rev
  | [], p :: ps => runsFrom space eb [p] ps
  | last :: rev, p :: ps =>
    match continues space eb last p with
    | some p' => runsFrom space eb (p' :: last :: rev) ps
    | none => closeRun eb (last :: rev) ++ runsFrom space eb [p] ps

/-- R143: the runs of a descriptor. -/
def Desc.runs (d : Desc) : List Run := runsFrom d.space d.ebits [] d.seq

/-- A block: pad or data, its first bit and length, the ordinals of its elements. -/
structure Block where
  run   : Nat
  pad   : Bool
  start : Int
  len   : Nat
  ps    : List Pos
  deriving DecidableEq, Repr

/-- Block of a run that a position belongs to: the later one where it straddles two (R143). -/
def blockIndex (eb : Nat) (r : Run) (p : Pos) : Nat := ((p.bits - r.start).toNat + eb - 1) / 1024

def Run.blocks (eb : Nat) (id : Nat) (r : Run) : List Block :=
  (List.range (ceilDiv r.len 1024)).map fun i =>
    { run := id, pad := r.pad, start := r.start + (1024 * i : Nat), len := min 1024 (r.len - 1024 * i)
      ps := r.ps.filter fun p => blockIndex eb r p == i }

def Desc.blocks (d : Desc) : List Block := (numberFrom (Run.blocks d.ebits) 0 d.runs).flatten

/-- Every position beside the number of its run, in ordinal order; within a run its bits go on from the run's first. -/
def Desc.seqRuns (d : Desc) : List (Nat × Pos) :=
  (numberFrom (fun i (r : Run) => r.ps.map fun p => (i, p)) 0 d.runs).flatten

/-- What an access reaches: elements, the scale array or the mask tensor. -/
inductive AccKind where
  | elem | scale | mask
  deriving DecidableEq, Repr

/-- One line access of a timed slot: its line (none: occupies no bank), the bits of the line's block
that it covers, whether it writes pad values, whether its block is misaligned and counted here. -/
structure Acc where
  kind   : AccKind
  run    : Nat
  line   : Option Nat
  bank   : Nat
  phys   : Nat
  start  : Int
  len    : Nat
  padw   : Bool
  mis    : Bool
  weight : Nat
  k0     : Nat
  deriving DecidableEq, Repr

/-- Scratchpad line number of a bit position (R135, R145): offset[21:7]. -/
def lineOfBit (b : Int) : Nat := ((b / 1024) % 32768).toNat

/-- R145: the bank of a line under a swizzle. -/
def bankOf (swz l : Nat) : Nat :=
  let s := if swz = 1 then field l 5 5 else if swz = 2 then field l 10 5 else 0
  (field l 0 5) ^^^ s

/-- R145: physical line number, row × 32 + bank. -/
def physLine (swz l : Nat) : Nat := (field l 5 10) * 32 + bankOf swz l

def mkAcc (kind : AccKind) (run swz : Nat) (weight : Nat) (start : Int) (len : Nat) (padw mis : Bool) (k0 : Nat) : Acc :=
  let l := lineOfBit start
  { kind, run, line := some l, bank := bankOf swz l, phys := physLine swz l, start, len, padw, mis, weight, k0 }

/-- R144: the accesses of one block; `wr` says that the slot is written. -/
def blockAccs (kind : AccKind) (d : Desc) (wr : Bool) (b : Block) : List Acc :=
  let k0 := match b.ps with | p :: _ => p.k | [] => 0
  let w := if d.rstore && kind == .elem then 2 else 1
  if b.pad && !(wr && d.padw) then
    [{ kind, run := b.run, line := none, bank := 0, phys := 0, start := b.start, len := b.len, padw := false, mis := false, weight := 1, k0 }]
  else
    let room := (1024 - b.start % 1024).toNat
    if b.len ≤ room then [mkAcc kind b.run d.swz w b.start b.len b.pad false k0]
    else [mkAcc kind b.run d.swz w b.start room b.pad true k0,
          mkAcc kind b.run d.swz w (b.start + (room : Int)) (b.len - room) b.pad false k0]

/-- Element blocks with their accesses and the ordinals they hold. -/
structure PlacedBlock where
  accs : List Acc
  kMin : Nat
  kMax : Nat
  sMin : Nat
  sMax : Nat
  deriving DecidableEq, Repr

def placedBlock (d : Desc) (so : Pos → Nat) (wr : Bool) (b : Block) : PlacedBlock :=
  let ks := b.ps.map Pos.k
  let ss := b.ps.map so
  { accs := blockAccs .elem d wr b
    kMin := ks.headD 0, kMax := ks.foldl max 0
    sMin := ss.headD 0, sMax := ss.foldl max 0 }

/-- Mask-tensor accesses not yet placed that a block reaching ordinal `k` needs (R144). -/
def maskAccs (d : Desc) (from_ k : Nat) : List Acc :=
  if d.maskTensor then
    (List.range (k / 1024 + 1 - from_)).map fun i =>
      mkAcc .mask 0 d.swz 1 (8 * (d.maskBase : Int) + 1024 * ((from_ + i : Nat) : Int)) 1024 false false (1024 * (from_ + i))
  else []

/-- Scale accesses placed before the first block that needs them (reads). -/
def mergeRead (d : Desc) : Nat → List Acc → List PlacedBlock → List Acc
  | _, sc, [] => sc
  | m, sc, b :: bs =>
    let ms := maskAccs d m b.kMax
    let now := sc.takeWhile fun a => a.k0 ≤ b.sMax
    ms ++ now ++ b.accs ++ mergeRead d (m + ms.length) (sc.drop now.length) bs

/-- Scale accesses placed after the last block whose scales they hold (writes); `ends` pairs each
with the last scale ordinal it holds. -/
def mergeWrite (d : Desc) : Nat → List (Acc × Nat) → List PlacedBlock → List Acc
  | _, sc, [] => sc.map Prod.fst
  | m, sc, b :: bs =>
    let ms := maskAccs d m b.kMax
    let nextMin := match bs with | [] => b.sMax + 1 | c :: _ => c.sMin
    let now := sc.takeWhile fun a => a.2 < nextMin
    ms ++ b.accs ++ now.map Prod.fst ++ mergeWrite d (m + ms.length) (sc.drop now.length) bs

/-- The scale array's accesses in order, each with the last scale ordinal it holds. -/
def scaleAccs (s : Desc) (wr : Bool) : List (Acc × Nat) :=
  s.blocks.flatMap fun b =>
    let last := (b.ps.map Pos.k).foldl max 0
    (blockAccs .scale s wr b).map fun a => (a, last)

/-- R148, R364: position in the scale array of the block a position belongs to; a compressed VRED slot
(`ident`) has one magnitude per position. -/
def Desc.scalePos (d : Desc) (ident : Bool) (p : Pos) : Nat := if ident then p.k else scaleOrdinal d.lv p.idx

/-- Every access of a slot in order: elements, scales (R148) and mask lines. -/
def slotAccs (d : Desc) (s : Option Desc) (ident wr : Bool) : List Acc :=
  let bs := d.blocks.map (placedBlock d (d.scalePos ident) wr)
  let sc := match s with | some sd => scaleAccs sd wr | none => []
  if wr then mergeWrite d 0 sc bs else mergeRead d 0 (sc.map Prod.fst) bs

/-- A group being filled: its accesses newest first, its weight, its banks. -/
structure GroupAcc where
  rev   : List Acc
  wt    : Nat
  banks : List Nat
  deriving DecidableEq, Repr

/-- R146: pack accesses into groups; the second part counts groups closed by a repeated bank. -/
def packGroups (w : Nat) : GroupAcc → List Acc → List (List Acc) × Nat
  | g, [] => (if g.rev.isEmpty then [] else [g.rev.reverse], 0)
  | g, a :: as =>
    let wide := g.wt + a.weight > w
    let rep := a.line.isSome && g.banks.contains a.bank
    let bk := if a.line.isSome then [a.bank] else []
    if !g.rev.isEmpty && (wide || rep) then
      let (gs, n) := packGroups w ⟨[a], a.weight, bk⟩ as
      (g.rev.reverse :: gs, n + if rep && !wide then 1 else 0)
    else packGroups w ⟨a :: g.rev, g.wt + a.weight, bk ++ g.banks⟩ as

def groupsOf (w : Nat) (as : List Acc) : List (List Acc) × Nat := packGroups w ⟨[], 0, []⟩ as

/-- R147: range of physical lines of a slot's accesses. -/
def physRange (as : List Acc) : Option (Nat × Nat) :=
  as.foldl (fun r a =>
    if a.line.isSome then
      match r with
      | none => some (a.phys, a.phys)
      | some (lo, hi) => some (min lo a.phys, max hi a.phys)
    else r) none

/-- Bits `[lo, lo+len)` of an access that fall on an element: bits taken out of the line's content. -/
def Acc.covers (a : Acc) (b : Int) : Bool := a.start ≤ b && b < a.start + (a.len : Int)

/-- Bits of an element held by one access's line content: shifted to their place in the element. -/
def Acc.part (a : Acc) (content : Nat) (b : Int) (eb : Nat) : Nat :=
  let lo := max a.start b
  let hi := min (a.start + (a.len : Int)) (b + (eb : Int))
  if hi ≤ lo then 0
  else field content (lo % 1024).toNat (hi - lo).toNat <<< (lo - b).toNat

/-! ### Missing positions of a short block (R71) -/

/-- Two elements of `eb` bits of a space share a bit. -/
def bitsMeet (space eb : Nat) (a b : Int) : Bool :=
  (a - b) % (space : Int) < (eb : Int) || (b - a) % (space : Int) < (eb : Int)

/-- First bits of the missing positions after the last position of a pass of level 0: those that level 0 would reach up to
the end of the pass's last block. -/
def Desc.missingAfter (d : Desc) (p : Pos) : List Int :=
  let step : Int := if d.ebits < 8 then (d.ebits : Int) else match d.lv with | l :: _ => 8 * l.stride | [] => 0
  (List.range (ceilDiv (d.count 0) 32 * 32 - d.count 0)).map fun (j : Nat) => p.bits + ((j : Int) + 1) * step

/-- Whether a position is the last of its pass of level 0. -/
def Desc.endsPass (d : Desc) (p : Pos) : Bool := p.idx.headD 0 == (d.count 0 : Int) - 1

/-- An access with everything that follows it on its line. -/
def Acc.toLineEnd (a : Acc) : Acc := { a with len := (1024 - a.start % 1024).toNat }

/-- The mover's run lengths in bytes are what R151 looks at: some run but the last is under 64 bytes. -/
def Desc.hasShortRun (d : Desc) : Bool := d.runs.dropLast.any fun r => r.len < 512

end Sys2Proof.Machine
end

