-- ==== Sys2Proof/Machine/Plan.lean ====
section
/-!
DEFINITION. Sys2Proof/Machine/Plan.lean: command fields (R98, R99), streams of accesses of a timed command,
what their latched lines hold, and the checks every operand slot meets (R133, R138, R148, R520).
-/
namespace Sys2Proof.Machine

/-! ### The common header and the body (R98, R99) -/

/-- Bits of a command. -/
def cf (c : Cmd512) (lo len : Nat) : Nat := field c.toNat lo len

/-- Bits of a command's body counted from byte `b`. -/
def cb (c : Cmd512) (b lo len : Nat) : Nat := field c.toNat (8 * b + lo) len

def Hdr.opcode (c : Cmd512) : Nat := cf c 0 10
def Hdr.delay (c : Cmd512) : Nat := cf c 10 16
def Hdr.predFlag (c : Cmd512) : Nat := cf c 26 12
def Hdr.predSense (c : Cmd512) : Bool := bitAt c.toNat 38
def Hdr.doneEn (c : Cmd512) : Bool := bitAt c.toNat 39
def Hdr.doneFlag (c : Cmd512) : Nat := cf c 40 12
def Hdr.doneInc (c : Cmd512) : Nat := cf c 52 4 + 1
def Hdr.tag (c : Cmd512) : Nat := cf c 56 8
def Hdr.predValue (c : Cmd512) : Nat := cf c 64 24
def Hdr.desc (c : Cmd512) (slot : Nat) : Nat := cb c (12 + slot) 0 8
def Hdr.descUse (c : Cmd512) : Nat := cb c 15 0 3
def Hdr.moverSel (c : Cmd512) : Nat := cb c 15 3 1

/-! ### Streams -/

/-- One operand stream of a timed command: its slot, whether it is written, its descriptors, format,
its groups of accesses (R146) and the beat, counted from issue, of group 0. -/
structure Stream where
  slot   : Nat
  wr     : Bool
  d      : Desc
  sd     : Option Desc
  fmt    : Fmt
  gx8    : Bool
  ident  : Bool
  groups : List (List Acc)
  splits : Nat
  off    : Nat
  deriving DecidableEq, Repr

/-- Build a stream of a slot with `w` accesses a beat. -/
def mkStream (slot : Nat) (wr : Bool) (d : Desc) (sd : Option Desc) (fmt : Fmt) (gx8 : Bool) (w off : Nat) : Stream :=
  let (gs, n) := groupsOf w (slotAccs d sd false wr)
  { slot, wr, d, sd, fmt, gx8, ident := false, groups := gs, splits := n, off }

/-- A compressed VRED slot (R364): sign words with one magnitude each. -/
def mkStreamIdent (slot : Nat) (wr : Bool) (d : Desc) (sd : Option Desc) (w off : Nat) : Stream :=
  let (gs, n) := groupsOf w (slotAccs d sd true wr)
  { slot, wr, d, sd, fmt := .int32, gx8 := false, ident := true, groups := gs, splits := n, off }

def Stream.scalePos (s : Stream) (p : Pos) : Nat := s.d.scalePos s.ident p

def Stream.cost (s : Stream) : Nat := s.groups.length

def Stream.accs (s : Stream) : List Acc := s.groups.flatten

/-- Index of the first access of group `g`. -/
def Stream.accBase (s : Stream) (g : Nat) : Nat := sumNat ((s.groups.take g).map List.length)

/-- What one lane of a slot holds: whether it is active, whether it is a pad, its bits, and the code of
its block's scale where the format is block-scaled. -/
structure Lane where
  active : Bool
  pad    : Bool
  raw    : Nat
  scale  : Nat
  deriving DecidableEq, Repr

def Lane.off : Lane := ⟨false, false, 0, 0⟩

/-- Lines latched so far, one entry per access of a stream. -/
abbrev Latch := List (Option Nat)

/-- Accesses beside the line contents they latched; a line not yet read counts as zero bits. -/
def Stream.latched (s : Stream) (l : Latch) : List (Acc × Nat) :=
  numberFrom (fun i (a : Acc) => (a, (nth none l i).getD 0)) 0 s.accs

/-- Bits of an element out of the accesses of its run. -/
def gatherBits (al : List (Acc × Nat)) (kind : AccKind) (run eb : Nat) (b : Int) : Nat :=
  al.foldl (fun v p => if p.1.kind == kind && p.1.run == run then v ||| p.1.part p.2 b eb else v) 0

/-- Mask bit of an ordinal: bit k mod 1,024 of its mask line (R141). -/
def maskBitOf (al : List (Acc × Nat)) (k : Nat) : Bool :=
  match al.find? (fun p => p.1.kind == .mask && p.1.k0 == 1024 * (k / 1024)) with
  | some (_, content) => content.testBit (k % 1024)
  | none => false

/-- Whether position `k` is active (R141). -/
def activeOf (d : Desc) (al : List (Acc × Nat)) (p : Pos) : Bool :=
  p.inBnd && (!d.maskTensor || maskBitOf al p.k)

/-- Scale codes of a block-scaled slot, in the scale array's ordinal order. -/
def scalesOf (sd : Desc) (al : List (Acc × Nat)) : List Nat :=
  sd.seqRuns.map fun (r, p) => gatherBits al .scale r sd.ebits p.bits

/-- R134, R139, R141, R148: every lane of a read slot. -/
def Stream.lanes (s : Stream) (l : Latch) : List Lane :=
  let al := s.latched l
  let eb := s.d.ebits
  let scs := match s.sd with | some sd => (scalesOf sd al).toArray | none => #[]
  s.d.seqRuns.map fun (r, p) =>
    { active := activeOf s.d al p
      pad := p.pad
      raw := if p.pad then s.d.padValue % 2 ^ eb else gatherBits al .elem r eb p.bits
      scale := if s.sd.isSome then scs.getD (s.scalePos p) 0 else 0 }

/-- Exact value of a lane under its slot's format (R65, R68, R74). -/
def laneVal (f : Fmt) (gx8 : Bool) (l : Lane) : FV :=
  if gx8 then gx8Value l.scale l.raw
  else if f.isMx then mxValue f l.scale l.raw
  else decodeFmt f l.raw

def Stream.value (s : Stream) (l : Lane) : FV := laneVal s.fmt s.gx8 l

/-! ### Operand checks -/

/-- Formats RSTORE accepts (R138). -/
def Fmt.rstoreOk : Fmt → Bool
  | .fp32 | .bf16 | .fp16 | .int32 | .int16 => true
  | _ => false

/-- R520: whether a slot that names this format is a GX8 slot. -/
def isGx8 (f : Fmt) (d : Desc) : Bool := f == .e5m2 && d.scaleUse

/-- R133, R138, R148, R520: a slot of format `f`; `gx` says that GX8 is accepted there, `rs` that it is a
slot RSTORE may be used on. -/
def slotOk (d sd : Desc) (f : Fmt) (gx rs : Bool) : Bool :=
  d.ok f.bits
    && (!d.rstore || (rs && f.rstoreOk))
    && (if f.isMx then d.scaleUse && d.noPads && !d.rstore && scaleDescOk false d sd
        else if d.scaleUse then gx && f == .e5m2 && d.noPads && !d.rstore && scaleDescOk true d sd
        else true)

/-- The scale descriptor of a slot where the format uses one. -/
def scaleOf (d sd : Desc) : Option Desc := if d.scaleUse then some sd else none

/-! ### What a written slot writes -/

/-- One element write: access-ordered by ordinal. `none` leaves the element unwritten. -/
structure Put where
  k   : Nat
  val : Nat
  deriving DecidableEq, Repr

/-- What a command writes on one slot, by ordinal: non-pad values, then scale codes by scale ordinal; for a slot RSTORE
may be used on, also which elements are active (R138, R190). -/
structure Outs where
  elems  : List (Option Nat)
  scales : List (Option Nat)
  acts   : List Bool
  deriving DecidableEq, Repr

def Outs.empty : Outs := ⟨[], [], []⟩

/-- R140, R142: what position `p` of a written slot writes, given what its active non-pad element would
be; `pass` is the opcode's pass-through value where it writes inactive positions. -/
def posWrite (d : Desc) (pass : Option Nat) (active : Bool) (p : Pos) (v : Option Nat) : Option Nat :=
  if active then
    if p.pad then (if d.padw then some (d.padValue % 2 ^ d.ebits) else none) else v
  else if p.pad && !d.padw then none
  else pass.map (· % 2 ^ d.ebits)

end Sys2Proof.Machine
end

