-- ==== Sys2Proof/Machine/Sfu.lean ====
section
/-!
DEFINITION. Sys2Proof/Machine/Sfu.lean: the special function unit (08_special_functions.md): reductions, segments and
Horner evaluation of the built-in functions over the device's own coefficient tables (R219, R220, R521),
special inputs (R224), compatibility mode (R225), derivatives (R228) and chisel programs (R234 to R241).
-/
namespace Sys2Proof.Machine

def fma32 (a b c : FV) : Res := (fmaV .rne a b c).round .fp32 .rne

/-- R220: Horner's rule, every operation rounded RNE to FP32, with the status bits of its operations. -/
def horner (w : BitVec 128) (v : FV) : Res :=
  let c (i : Nat) := decodeFmt .fp32 (field w.toNat (32 * i) 32)
  let r2 := fma32 (c 3) v (c 2)
  let r1 := fma32 r2.v v (c 1)
  let r0 := fma32 r1.v v (c 0)
  ⟨r0.v, r2.fl ||| r1.fl ||| r0.fl⟩

/-- One table of R521. -/
structure SfuTable where
  func   : Nat
  compat : Bool
  deriv  : Bool
  deriving DecidableEq, Repr

def SfuTable.poly (t : SfuTable) (g : Nat) (v : FV) : FV :=
  (horner (Config.sfuCoeff t.func (if t.compat then 1 else 0) (if t.deriv then 1 else 0) g) v).v

/-- Segment and offset of a magnitude in `nb` binades of 32 segments from 2^lo, numbered from `base`;
at or above the top binade the last segment serves. -/
def segOf (lo : Int) (nb base : Nat) (m : Nat) (e : Int) : Nat × FV :=
  let l := ilog2 m e
  let b := (l - lo).toNat
  if b < nb then
    let len := bitLen m
    let lead := if len ≥ 6 then m >>> (len - 6) else m <<< (6 - len)
    let q := min e (l - 5)
    (base + 32 * b + (lead - 32), .fin false (inUnits m e q - inUnits lead (l - 5) q) q)
  else
    let top := lo + nb - 6
    let q := min e top
    (base + 32 * nb - 1, .fin false (inUnits m e q - inUnits 63 top q) q)

/-- Evaluate a table at magnitude `m·2^e`: the near-zero segment takes `near` itself. -/
def SfuTable.seg (t : SfuTable) (lo : Int) (nb base : Nat) (near : FV) (m : Nat) (e : Int) : FV :=
  if m = 0 ∨ ilog2 m e < lo then t.poly 0 near
  else let (g, v) := segOf lo nb base m e; t.poly g v

/-- floor of n·2^q. -/
def floorDy (n q : Int) : Int := if 0 ≤ q then n * (2 ^ q.toNat : Nat) else n / ((2 ^ (-q).toNat : Nat) : Int)

/-- Fraction of n·2^q above its floor, in units of 2^q (0 when q ≥ 0). -/
def fracDy (n q : Int) : Nat := if 0 ≤ q then 0 else (n % ((2 ^ (-q).toNat : Nat) : Int)).toNat

/-- log₂e and ln 2 to 48 bits, 2/π and π/2 to 72 bits (R219). -/
def log2e48 : Nat := 0x171547652b830
def ln2_48 : Nat := 0xb17217f7d1cf
def twoOverPi72 : Nat := 0xa2f9836e4e441529fc
def piOver2_72 : Nat := 0x1921fb54442d184698a

/-- Status bits of an evaluation of a finite nonzero input that is not exact (R219, R224). -/
def sfuFinish (v : FV) : Res :=
  match v with
  | .nan _ => ⟨.nan false, Flag.invalid⟩
  | .inf n => ⟨.inf n, Flag.overflow ||| Flag.inexact⟩
  | .fin n m e =>
    if m = 0 ∨ ilog2 m e < -126 then ⟨.fin n m e, Flag.underflow ||| Flag.inexact⟩
    else ⟨.fin n m e, Flag.inexact⟩

/-- Reconstruction by 2^n (R220). -/
def recon (n : Int) (p : FV) : FV := (roundTo .fp32 .rne (p.scale n)).v

/-- Signed numerator of a finite value. -/
def sgn (neg : Bool) (m : Nat) : Int := signedOf neg m

/-- x × 100 compared with an integer: the decimal limits of R219. -/
def cent (neg : Bool) (m : Nat) (e : Int) : FV := .fin neg (100 * m) e

def gtInt (x : FV) (z : Int) : Bool := cmpV x (FV.ofInt z) == 1
def geInt (x : FV) (z : Int) : Bool := cmpV x (FV.ofInt z) != -1
def ltInt (x : FV) (z : Int) : Bool := cmpV x (FV.ofInt z) == -1
def leInt (x : FV) (z : Int) : Bool := cmpV x (FV.ofInt z) != 1

/-- EXP and EXP2 by R219: n + u = t, f = 2ⁿ·p(u). -/
def sfuExp (t : SfuTable) (num q : Int) : FV :=
  let n := floorDy num q
  let u := fracDy num q
  recon n (t.seg (-8) 8 1 (.fin false u q) u q)

/-- LOG2's exact n + p(u) before its last rounding (R219). -/
def sfuLog2 (t : SfuTable) (m : Nat) (e : Int) : FV :=
  let l := ilog2 m e
  let hi := magLe 3 0 (2 * m) (e - l)
  let n := if hi then l + 1 else l
  let q := min (e - n) 0
  let d : Int := (inUnits m (e - n) q : Int) - (inUnits 1 0 q : Int)
  let p := if d < 0 then t.seg (-8) 6 225 (.fin true d.natAbs q) d.natAbs q
           else t.seg (-8) 7 1 (.fin false d.natAbs q) d.natAbs q
  (addV .rne (FV.ofInt n) p).v

/-- SIN and COS by R219: k = rint(|x|·2/π), u = |x| − k·π/2; quadrant k mod 4, sign of u, |u|. -/
def sfuQuad (m : Nat) (e : Int) : Nat × Bool × FV :=
  let k := (roundUnits .rne false (m * twoOverPi72) (e - 72) 0).1
  let q := min e (-72)
  let d : Int := (inUnits m e q : Int) - (inUnits (k * piOver2_72) (-72) q : Int)
  (k % 4, d < 0, .fin false d.natAbs q)

/-- A kernel of SIN or COS: sine segments 0 to 192, cosine 193 to 385 (R521). -/
def sfuKernel (t : SfuTable) (cosine odd un : Bool) (u : FV) : FV :=
  match u with
  | .fin _ m e =>
    let p :=
      if m = 0 ∨ ilog2 m e < -6 then t.poly (if cosine then 193 else 0) u
      else let (g, v) := segOf (-6) 6 (if cosine then 194 else 1) m e; t.poly g v
    if odd && un then p.neg else p
  | _ => .nan false

/-- A function with a table per sign from 2⁻⁶ (R219): `np` binades above zero, `nn` below. -/
def sfuSigned (t : SfuTable) (np nn : Nat) (neg : Bool) (m : Nat) (e : Int) : FV :=
  if neg then t.seg (-6) nn (1 + 32 * np) (.fin neg m e) m e
  else t.seg (-6) np 1 (.fin neg m e) m e

/-- Value of a built-in function at a finite nonzero input, native or compatibility table (R219). -/
def sfuFinite (func : Nat) (compat : Bool) (neg : Bool) (m : Nat) (e : Int) : Res :=
  let t : SfuTable := ⟨func, compat, false⟩
  let x : FV := .fin neg m e
  let posx : FV := .fin false m e
  match func with
  | 0x00 =>
    if gtInt (cent neg m e) 8872 then sfuFinish (.inf false)
    else if ltInt (cent neg m e) (-10398) then sfuFinish (FV.zero false)
    else sfuFinish (sfuExp t (sgn neg m * log2e48) (e - 48))
  | 0x01 =>
    if geInt x 128 then sfuFinish (.inf false)
    else if ltInt x (-150) then sfuFinish (FV.zero false)
    else sfuFinish (sfuExp t (sgn neg m) e)
  | 0x02 =>
    if neg then ⟨.nan false, Flag.invalid⟩
    else if cmpV x FV.one = 0 then ⟨FV.zero false, Flag.none⟩
    else sfuFinish (roundTo .fp32 .rne (mulV (sfuLog2 t m e) (.fin false ln2_48 (-48))).v).v
  | 0x03 =>
    if neg then ⟨.nan false, Flag.invalid⟩
    else if cmpV x FV.one = 0 then ⟨FV.zero false, Flag.none⟩
    else sfuFinish (roundTo .fp32 .rne (sfuLog2 t m e)).v
  | 0x04 =>
    let n := ilog2 m e
    let (g, v) := segOf 0 1 0 m (e - n)
    let r := recon (-n) (t.poly g v)
    sfuFinish (if neg then r.neg else r)
  | 0x05 | 0x06 =>
    if neg then ⟨.nan false, Flag.invalid⟩
    else
      let n := ilog2 m e / 2
      let (g, v) := segOf 0 2 0 m (e - 2 * n)
      sfuFinish (recon (if func = 5 then n else -n) (t.poly g v))
  | 0x07 =>
    if geInt x 32 then sfuFinish FV.one
    else if leInt x (-128) then sfuFinish (FV.zero false)
    else sfuFinish (sfuSigned t 11 13 neg m e)
  | 0x08 =>
    let r := if geInt posx 16 then FV.one else t.seg (-6) 10 1 posx m e
    sfuFinish (if neg then r.neg else r)
  | 0x09 =>
    let r := if geInt posx 4 then FV.one else t.seg (-6) 8 1 posx m e
    sfuFinish (if neg then r.neg else r)
  | 0x0A | 0x0B =>
    if geInt x 8 then sfuFinish x
    else if leInt x (-16) then sfuFinish (FV.zero true)
    else sfuFinish (sfuSigned t 9 10 neg m e)
  | 0x0C =>
    if geInt x 32 then sfuFinish x
    else if leInt x (-128) then sfuFinish (FV.zero true)
    else sfuFinish (sfuSigned t 11 13 neg m e)
  | 0x0D =>
    if geInt x 32 then sfuFinish x
    else if leInt x (-128) then sfuFinish (FV.zero false)
    else sfuFinish (sfuSigned t 11 13 neg m e)
  | 0x0E =>
    if geInt posx 4194304 then ⟨.nan false, Flag.invalid⟩
    else
      let (k, un, u) := sfuQuad m e
      let r := sfuKernel t (k % 2 == 1) (k % 2 == 0) un u
      let r := if k ≥ 2 then r.neg else r
      sfuFinish (if neg then r.neg else r)
  | 0x0F =>
    if geInt posx 4194304 then ⟨.nan false, Flag.invalid⟩
    else
      let (k, un, u) := sfuQuad m e
      let r := sfuKernel t (k % 2 == 0) (k % 2 == 1) un u
      sfuFinish (if k = 1 ∨ k = 2 then r.neg else r)
  | _ => ⟨.nan false, Flag.invalid⟩

/-- R224: special inputs of the built-in functions, and R221's exact points at zero. -/
def sfuSpecial (func : Nat) : FV → Option Res
  | .nan s => some ⟨.nan false, if s then Flag.invalid else Flag.none⟩
  | .inf n =>
    let inv : Res := ⟨.nan false, Flag.invalid⟩
    let ok (v : FV) : Res := ⟨v, Flag.none⟩
    some (match func with
      | 0x00 | 0x01 => ok (if n then FV.zero false else .inf false)
      | 0x02 | 0x03 | 0x05 => if n then inv else ok (.inf false)
      | 0x04 => ok (FV.zero n)
      | 0x06 => if n then inv else ok (FV.zero false)
      | 0x07 => ok (if n then FV.zero false else FV.one)
      | 0x08 | 0x09 => ok (if n then FV.one.neg else FV.one)
      | 0x0A | 0x0B | 0x0C => ok (if n then FV.zero true else .inf false)
      | 0x0D => ok (if n then FV.zero false else .inf false)
      | _ => inv)
  | .fin n 0 _ =>
    let ok (v : FV) : Res := ⟨v, Flag.none⟩
    some (match func with
      | 0x00 | 0x01 | 0x0F => ok FV.one
      | 0x02 | 0x03 => ⟨.inf true, Flag.divzero⟩
      | 0x04 | 0x06 => ⟨.inf n, Flag.divzero⟩
      | 0x07 => ok (.fin false 1 (-1))
      | 0x0D => ok (decodeFmt .fp32 0x3F317218)
      | _ => ok (FV.zero n))
  | _ => none

/-- R219, R224: a native evaluation of an FP32 input. -/
def sfuNative (func : Nat) (x : FV) : Res :=
  match sfuSpecial func x with
  | some r => r
  | none =>
    match x with
    | .fin n m e => sfuFinite func false n m e
    | _ => ⟨.nan false, Flag.invalid⟩

/-- Functions of compatibility mode (R225). -/
def sfuCompatOk (func : Nat) : Bool :=
  func == 0 || func == 2 || func == 6 || func == 7 || func == 8 || func == 0xB

/-- R225: a compatibility-mode evaluation. -/
def sfuCompat (func : Nat) (x : FV) : Res :=
  let x' := match x with
    | .fin n m e => if m = 0 ∨ ilog2 m e < -126 then FV.zero n else .fin n m e
    | y => y
  match sfuSpecial func x' with
  | some r => r
  | none =>
    match x' with
    | .fin n m e =>
      let r := sfuFinite func true n m e
      -- a zero that INEXACT marks stands for a nonzero result
      match r.v with
      | .fin _ m' e' =>
        if (m' = 0 ∨ ilog2 m' e' < -126) ∧ r.fl &&& Flag.inexact ≠ 0 then ⟨FV.zero false, Flag.underflow ||| Flag.inexact⟩ else r
      | _ => r
    | _ => ⟨.nan false, Flag.invalid⟩

/-- A built-in evaluation (R218). -/
def sfuEval (func : Nat) (compat : Bool) (x : FV) : Res := if compat then sfuCompat func x else sfuNative func x

/-- Functions whose derivative VSFU writes (R228). -/
def sfuDerivOk (func : Nat) : Bool :=
  func == 0 || func == 1 || func == 7 || func == 8 || func == 9 || (func ≥ 0xA && func ≤ 0xF)

/-- R228: value of the derivative at a finite input, +0 and −0 included. -/
def sfuDerivFinite (func : Nat) (neg : Bool) (m : Nat) (e : Int) : FV :=
  let t : SfuTable := ⟨func, false, true⟩
  let x : FV := .fin neg m e
  let posx : FV := .fin false m e
  match func with
  | 0x00 =>
    if gtInt (cent neg m e) 8872 then .inf false
    else if ltInt (cent neg m e) (-10398) then FV.zero false
    else sfuExp t (sgn neg m * log2e48) (e - 48)
  | 0x01 =>
    if geInt x 128 then .inf false else if ltInt x (-150) then FV.zero false else sfuExp t (sgn neg m) e
  | 0x07 => if geInt x 32 || leInt x (-128) then FV.zero false else sfuSigned t 11 13 neg m e
  | 0x08 => if geInt posx 16 then FV.zero false else t.seg (-6) 10 1 posx m e
  | 0x09 => if geInt posx 16 then FV.zero false else t.seg (-6) 10 1 posx m e
  | 0x0A | 0x0B =>
    if geInt x 8 then FV.one else if leInt x (-16) then FV.zero false else sfuSigned t 9 10 neg m e
  | 0x0C | 0x0D =>
    if geInt x 32 then FV.one else if leInt x (-128) then FV.zero false else sfuSigned t 11 13 neg m e
  | 0x0E =>
    if geInt posx 4194304 then .nan false
    else
      let (k, un, u) := sfuQuad m e
      let r := sfuKernel t (k % 2 == 1) (k % 2 == 1) un u
      if k ≥ 2 then r.neg else r
  | 0x0F =>
    if geInt posx 4194304 then .nan false
    else
      let (k, un, u) := sfuQuad m e
      let r := sfuKernel t (k % 2 == 0) (k % 2 == 0) un u
      let r := if k = 1 ∨ k = 2 then r.neg else r
      if neg then r.neg else r
  | _ => .nan false

/-- R228: a derivative with its status bits. -/
def sfuDeriv (func : Nat) (x : FV) : Res :=
  match x with
  | .nan s => ⟨.nan false, if s then Flag.invalid else Flag.none⟩
  | .inf n =>
    match func with
    | 0x07 | 0x08 | 0x09 => ⟨FV.zero false, Flag.none⟩
    | 0x0A | 0x0B | 0x0C | 0x0D => ⟨if n then FV.zero false else FV.one, Flag.none⟩
    | 0x00 | 0x01 => ⟨if n then FV.zero false else .inf false, Flag.none⟩
    | _ => ⟨.nan false, Flag.invalid⟩
  | .fin n m e =>
    let v := (roundTo .fp32 .rne (sfuDerivFinite func n m e)).v
    match v with
    | .nan _ => ⟨.nan false, Flag.invalid⟩
    | .inf k => ⟨.inf k, Flag.inexact ||| Flag.overflow⟩
    | .fin k p q =>
      if p = 0 ∧ ¬(func = 0xF ∧ m = 0) then ⟨.fin k p q, Flag.inexact ||| Flag.underflow⟩
      else ⟨.fin k p q, Flag.inexact⟩

/-- Weight of a chisel program of `l` steps (R216). -/
def chiselWeight (l : Nat) : Nat := if l ≤ 16 then 1 else if l ≤ 32 then 2 else 4

/-! ### Chisel programs (R234 to R241) -/

/-- A loaded program: its step words, its table, its tag. -/
structure ChiselProg where
  steps : List Nat
  table : List Nat
  tag   : Nat
  deriving DecidableEq, Repr

/-- The running program's registers, latched table entry and status bits. -/
structure ChiselSt where
  q    : List FV
  coef : Nat
  fl   : Fl
  deriving DecidableEq, Repr

def ChiselSt.get (s : ChiselSt) (i : Nat) : FV := nth (FV.zero false) s.q i

/-- floor of a finite value. -/
def FV.floor : FV → Int
  | .fin n m e => floorDy (signedOf n m) e
  | _ => 0

/-- An integral value with the sign of what it came from when it is zero. -/
def integralOf (z : Int) (neg : Bool) : FV := if z = 0 then FV.zero neg else FV.ofInt z

/-- x rounded to an integral value in a mode. -/
def rintV (mode : Rnd) : FV → Res
  | .nan s => ⟨.nan false, if s then Flag.invalid else Flag.none⟩
  | .inf n => ⟨.inf n, Flag.none⟩
  | .fin n m e =>
    let (y, _) := roundUnits ⟨mode, 0, false⟩ n m e 0
    ⟨integralOf (signedOf n y) n, Flag.none⟩

def clampInt (z lo hi : Int) : Int := max lo (min hi z)

/-- R236, SEL: whether the condition holds. -/
def chiselCond (c : Nat) (a k : FV) : Bool :=
  if c = 6 then a.isNan
  else if c = 7 then a.isInf
  else if a.isNan || k.isNan then c == 5
  else
    let r := cmpV a k
    match c with
    | 0 => r == -1
    | 1 => r != 1
    | 2 => r == 0
    | 3 => r != -1
    | 4 => r == 1
    | _ => r != 0

/-- R236, LOOKUP: segment index and offset. -/
def chiselLookup (tlast k : Nat) (a : FV) : Nat × Res :=
  match a with
  | .nan _ => (tlast, ⟨.nan false, Flag.none⟩)
  | .inf n => (if n then 0 else tlast, ⟨.inf n, Flag.none⟩)
  | .fin _ _ _ =>
    let i := clampInt (a.scale k).floor 0 tlast
    (i.toNat, (addV .rne a (FV.fin true i.toNat (-(k : Int)))).round .fp32 .rne)

/-- R236, LOOKUPB: table entry and offset, which rounds where it lies far above the top binade. -/
def chiselLookupB (tbase nb : Nat) (emin : Int) (a : FV) : Nat × Res :=
  let last := tbase + 32 * nb - 1
  match a with
  | .nan _ => (last, ⟨.nan false, Flag.none⟩)
  | .inf _ => (last, ⟨.inf false, Flag.none⟩)
  | .fin _ m e =>
    if m = 0 ∨ ilog2 m e < emin then (tbase + 32 * nb, ⟨.fin false m e, Flag.none⟩)
    else
      let (i, v) := segOf emin nb tbase m e
      (i, roundTo .fp32 .rne v)

/-- One step of R236. -/
def chiselStep (p : ChiselProg) (s : ChiselSt) (w : Nat) : ChiselSt :=
  let opc := field w 0 6
  let d := field w 6 3
  let a := s.get (field w 9 3)
  let b := s.get (field w 12 3)
  let c := s.get (field w 15 3)
  let imm := field w 32 32
  let put (r : Res) : ChiselSt := { s with q := setNth r.v s.q d, fl := s.fl ||| r.fl }
  let r32 (r : Res) : ChiselSt := put (r.round .fp32 .rne)
  let pure (v : FV) : ChiselSt := put ⟨v, Flag.none⟩
  match opc with
  | 0x01 => pure a
  | 0x02 => r32 (addV .rne a b)
  | 0x03 => r32 (addV .rne a b.neg)
  | 0x04 => r32 (mulV a b)
  | 0x05 => r32 (fmaV .rne a b c)
  | 0x06 => pure (match decodeFmt .fp32 imm with | .nan _ => .nan false | v => v)
  | 0x07 => pure a.abs
  | 0x08 => put (minV a b)
  | 0x09 => put (maxV a b)
  | 0x0A => pure (if b.sign then a.abs.neg else a.abs)
  | 0x10 => put (rintV .rdn a)
  | 0x11 =>
    match a with
    | .nan _ => pure (.nan false)
    | .inf _ => pure (FV.zero false)
    | .fin n m e =>
      let f := fracDy (signedOf n m) e
      put (roundTo .fp32 ⟨.rtz, 0, false⟩ (.fin false f e))
  | 0x12 => put (rintV .rne a)
  | 0x13 =>
    match a with
    | .nan _ => pure (.nan false)
    | .inf _ => pure (.inf false)
    | .fin _ m e => pure (if m = 0 then .inf true else FV.ofInt (ilog2 m e))
  | 0x14 =>
    match a with
    | .nan _ => pure (.nan false)
    | .inf _ => pure (.inf false)
    | .fin _ m e => pure (if m = 0 then FV.zero false else .fin false m (e - ilog2 m e))
  | 0x15 =>
    match a, b with
    | .nan _, _ => pure (.nan false)
    | _, .nan _ => pure (.nan false)
    | _, .inf n => r32 ⟨a.scale (if n then -300 else 300), Flag.none⟩
    | _, .fin _ _ _ => r32 ⟨a.scale (clampInt b.floor (-300) 300), Flag.none⟩
  | 0x18 =>
    let (i, r) := chiselLookup (field imm 8 8) (field imm 16 5) a
    { put r with coef := nth 0 p.table (field imm 0 8 + i) }
  | 0x19 =>
    let (i, r) := chiselLookupB (field imm 0 8) (field imm 16 4) ((field imm 8 8 : Nat) - 127) a
    { put r with coef := nth 0 p.table i }
  | 0x1A => put (horner (BitVec.ofNat 128 s.coef) a)
  | 0x1C => pure (if chiselCond (field w 18 3) a (decodeFmt .fp32 imm) then b else c)
  | _ => s

/-- Run the steps up to END; the result is END's Qa (R235). -/
def chiselRun (p : ChiselProg) : List Nat → ChiselSt → Res
  | [], s => ⟨s.get 0, s.fl⟩
  | w :: ws, s =>
    if field w 0 6 = 0 then ⟨s.get (field w 9 3), s.fl⟩ else chiselRun p ws (chiselStep p s w)

/-- R235: one evaluation of a program at `x`. -/
def ChiselProg.eval (p : ChiselProg) (x : FV) : Res :=
  chiselRun p p.steps ⟨x :: List.replicate 7 (FV.zero false), 0, Flag.none⟩

def ChiselProg.weight (p : ChiselProg) : Nat := chiselWeight p.steps.length

/-- Opcodes of R236. -/
def chiselOpcOk (o : Nat) : Bool :=
  o ≤ 0x0A || (0x10 ≤ o && o ≤ 0x15) || (0x18 ≤ o && o ≤ 0x1A) || o == 0x1C

/-- R239: one step word, given the table's length and whether a lookup came before it. -/
def chiselStepOk (tent : Nat) (seen : Bool) (last : Bool) (w : Nat) : Bool :=
  let o := field w 0 6
  let imm := field w 32 32
  let look := o == 0x18
  let lookb := o == 0x19
  chiselOpcOk o && field w 21 11 == 0 && ((o == 0) == last)
    && (!look || (field imm 0 8 + field imm 8 8 < tent))
    && (!lookb || (field imm 0 8 + 32 * field imm 16 4 < tent && field imm 16 4 ≥ 1 && field imm 16 4 ≤ 8
          && field imm 8 8 ≥ 1 && field imm 8 8 ≤ 254))
    && (o != 0x1A || seen)

def chiselStepsOk (tent : Nat) : Bool → List Nat → Bool
  | _, [] => false
  | seen, [w] => chiselStepOk tent seen true w
  | seen, w :: ws => chiselStepOk tent seen false w && chiselStepsOk tent (seen || field w 0 6 == 0x18 || field w 0 6 == 0x19) ws

/-- Number of words of `n` bytes read from offset `o` of an image. -/
def imageWord (img : List Byte) (o n : Nat) : Nat := bytesToNat ((img.drop o).take n)

/-- R234, R239: read and check an image; `none` rejects it. -/
def chiselParse (img : List Byte) : Option ChiselProg :=
  let l := imageWord img 6 1
  let tent := imageWord img 8 2
  let tbase := ceilDiv (16 + 8 * l) 16 * 16
  let steps := (List.range l).map fun i => imageWord img (16 + 8 * i) 8
  if imageWord img 0 4 = 0x4C534843 ∧ imageWord img 4 2 = 1 ∧ imageWord img 7 1 = 0 ∧ imageWord img 10 2 = 0
      ∧ 1 ≤ l ∧ l ≤ 64 ∧ tent ≤ 256 ∧ chiselStepsOk tent false steps then
    some { steps, table := (List.range tent).map fun i => imageWord img (tbase + 16 * i) 16, tag := imageWord img 12 4 }
  else none

end Sys2Proof.Machine
end

