-- ==== Sys2Proof/Machine/Sparse.lean ====
section
/-!
DEFINITION. Sys2Proof/Machine/Sparse.lean: sparse data by key in one canonical form: keys strictly rising and no entry
equal to the default, so that equal contents are equal lists. Memory is one such list of bytes.
-/
namespace Sys2Proof.Machine

/-- Sparse data: what is not listed is the default of its kind. -/
abbrev Sparse (α : Type) := List (Nat × α)

/-- Read a key. -/
def Sparse.get {α : Type} (d : α) : Sparse α → Nat → α
  | [], _ => d
  | (k, v) :: m, a => if k = a then v else if a < k then d else Sparse.get d m a

/-- Drop the entries at the front whose keys are not above a bound (none, in a list of rising keys above it). -/
def Sparse.after {α : Type} (a : Nat) : Sparse α → Sparse α
  | [] => []
  | (k, v) :: m => if k ≤ a then Sparse.after a m else (k, v) :: m

/-- Write a key, keeping the canonical form. -/
def Sparse.set {α : Type} [DecidableEq α] (d : α) : Sparse α → Nat → α → Sparse α
  | [], a, v => if v = d then [] else [(a, v)]
  | (k, w) :: m, a, v =>
    if a < k then (if v = d then (k, w) :: m else (a, v) :: (k, w) :: m)
    else if a = k then (if v = d then Sparse.after a m else (a, v) :: m)
    else (k, w) :: Sparse.set d m a v

/-- Every key of a list is above a bound. -/
def Sparse.above {α : Type} (a : Nat) : Sparse α → Bool
  | [] => true
  | (k, _) :: _ => decide (a < k)

/-- The canonical form. -/
def Sparse.wf {α : Type} [DecidableEq α] (d : α) : Sparse α → Bool
  | [] => true
  | (k, v) :: m => decide (v ≠ d) && Sparse.above k m && Sparse.wf d m

/-- Drop the entries below a bound or named by a predicate, going up: an entry below one before it is never read. -/
def Sparse.eraseFrom {α : Type} (p : Nat → Bool) : Nat → Sparse α → Sparse α
  | _, [] => []
  | n, (k, v) :: m =>
    if k < n then Sparse.eraseFrom p n m
    else if p k then Sparse.eraseFrom p (k + 1) m
    else (k, v) :: Sparse.eraseFrom p (k + 1) m

/-- Drop every entry whose key a predicate names. -/
def Sparse.erase {α : Type} (p : Nat → Bool) (m : Sparse α) : Sparse α := Sparse.eraseFrom p 0 m

/-! ### Memory -/

/-- Memory bytes by local physical address (R244); an unlisted byte reads 0. -/
abbrev Memory := List Host.Cell

def Memory.read (m : Memory) (a : Nat) : BitVec 8 := Sparse.get 0#8 m a

def Memory.write (m : Memory) (a : Nat) (v : BitVec 8) : Memory := Sparse.set 0#8 m a v

/-- The canonical form of memory. -/
def Memory.wf (m : Memory) : Bool := Sparse.wf 0#8 m

/-- `n` bytes from an address. -/
def Memory.readBytes (m : Memory) : Nat → Nat → List (BitVec 8)
  | _, 0 => []
  | a, n + 1 => m.read a :: m.readBytes (a + 1) n

/-- Consecutive bytes from an address. -/
def Memory.writeBytes (m : Memory) : Nat → List (BitVec 8) → Memory
  | _, [] => m
  | a, b :: bs => (m.write a b).writeBytes (a + 1) bs

/-- `n` bytes set to zero. -/
def Memory.zeroRange (m : Memory) (a n : Nat) : Memory := Sparse.erase (fun k => a ≤ k && k < a + n) m

end Sys2Proof.Machine
end

