-- ==== Sys2Proof/Machine/Types.lean ====
section
/-!
DEFINITION. Sys2Proof/Machine/Types.lean: the records that the state holds: queues, in-flight instructions, counters,
barrier arrivals, requests, regions, clusters, contexts and the plinth die's own records. All plain data.
-/
namespace Sys2Proof.Machine

/-! ### Cluster -/

/-- What a queue is doing (R129, R92, R122): idle; started and fetching; issuing; idle from the next schedule beat
(R94); waiting on WAIT or BARRIER; held at STEP_POINT; fetching its evaluation stream or its return; stopped in
evaluation. -/
inductive QSt where
  | idle | starting | issuing | ending | waiting | held | fetching | stopped
  deriving DecidableEq, Repr

/-- How an evaluation queue stopped (R123): not yet, on EVAL_POINT, on EVAL_END, on END or a fetch fault. -/
inductive EvalStop where
  | none | point | passEnd | other
  deriving DecidableEq, Repr

/-- One of the four queues (R89-R97, R121-R125). `base`, `len` name the stream being fetched (`len` none: an
evaluation stream); `pos` is the next command to issue or skip, `req` the next one to request; `buf` holds fetched
commands by index; `faults` the first index of each faulted fetch request; `gen` tells stale fetches apart.
`origin` is the start beat (`first`) or the beat of the last issue or skip. `tbase`, `tlen`, `tpos` keep the training
stream across an evaluation, and `back` marks a queue that returns to it (R124); `arrived` marks a BARRIER at the head that has arrived. -/
structure Queue where
  st      : QSt
  train   : Bool
  base    : Nat
  len     : Option Nat
  pos     : Nat
  req     : Nat
  buf     : List (Nat × Cmd512)
  faults  : List Nat
  gen     : Nat
  origin  : Nat
  first   : Bool
  tbase   : Nat
  tlen    : Nat
  tpos    : Nat
  back    : Bool
  arrived : Bool
  stop    : EvalStop
  deriving DecidableEq, Repr

def Queue.init : Queue :=
  { st := .idle, train := false, base := 0, len := some 0, pos := 0, req := 0, buf := [], faults := [], gen := 0
    origin := 0, first := true, tbase := 0, tlen := 0, tpos := 0, back := false, arrived := false, stop := .none }

/-- The sequencer's evaluation phase (R121-R124). -/
inductive Phase where
  | train | toEval | eval | toTrain
  deriving DecidableEq, Repr

/-- Timed and untimed units, by the codes of SEQ_SLIP_INFO.ACCESS_UNIT (R128), and descriptor loading. -/
inductive EUnit where
  | ma | ve0 | ve1 | tt | mv0 | mv1 | dl
  deriving DecidableEq, Repr

def EUnit.code : EUnit → Nat
  | .ma => 0 | .ve0 => 1 | .ve1 => 2 | .tt => 3 | .mv0 => 4 | .mv1 => 5 | .dl => 6

/-- An intent of R116: written or read, lowest and highest physical line (R147). -/
structure Intent where
  wr : Bool
  lo : Nat
  hi : Nat
  deriving DecidableEq, Repr

/-- How a mover command runs (R151, R153). -/
inductive MvMode where
  | line | narrow | ordered
  deriving DecidableEq, Repr

/-- A mover command's own progress (R115, R56, R60): not started or started, requests not yet complete, the part an
ordered command may complete next, whether some request was not dropped (R259), what its complete requests wrote: address,
ordinal, whether a pad (R137, R140), values read of a destination block that its next request goes on with (R153: ordinal, value, poison), the parity its packets
carry (R367), and what a RECV or RDOWN decided while its accesses wait (R49), and whether its wait on a snapshot part is counted (R390). -/
structure MvState where
  started : Bool
  left    : Nat
  next    : Nat
  mode    : MvMode
  moved   : Bool
  wrote   : List (Nat × Nat × Bool)
  held    : List (Nat × Nat × List Bool)
  par     : Option Nat
  dec     : Option (Bool × Env × Bool)
  deriving DecidableEq, Repr

def MvState.init : MvState := ⟨false, 0, 0, .line, false, [], [], none, none⟩

/-- A long-running instruction in flight (R114, R111): its copies of the command and of its descriptors (slots 0 to
2, then the scale descriptors of slots 0 to 2), its issue beat, its done beat where it has one (R109), its intents,
the lines and carry entries it has latched, what it read of the grain state and chisel store at issue, status bits its
stores have set, tile lines a TTOUT has read, whether an evaluation stream issued it, and the module numbers an MVCOLL
read (R341). -/
structure Lri where
  id      : Nat
  q       : Nat
  unit    : EUnit
  cmd     : Cmd512
  ds      : List Desc1024
  issue   : Nat
  done    : Option Nat
  intents : List Intent
  latches : List Latch
  carry   : List (Option (List Nat))
  grain   : GrainCtx
  prog    : Option ChiselProg
  fl      : Fl
  tileIn  : List (Option Nat)
  eval    : Bool
  aux     : List Nat
  mv      : MvState
  deriving DecidableEq, Repr

/-- COUNT and MATCHED of a physical counter (R281). -/
structure Ctr where
  count   : Nat
  matched : Nat
  deriving DecidableEq, Repr

def Ctr.zero : Ctr := ⟨0, 0⟩

/-- An applied increment that cluster `k` does not see yet: of a counter of its own (`own`) or of its region's
node. It becomes visible on its own at schedule beat `due` (own counters, R292: exactly) or elapsed beat `due` of
that cluster (node counters: the bound); `at_` is the elapsed beat in which it was applied; `eff` is what COUNT rose by, less
than `inc` where it stopped at the top (R286). -/
structure Unseen where
  k   : Nat
  own : Bool
  idx : Nat
  inc : Nat
  eff : Nat
  at_ : Nat
  due : Nat
  deriving DecidableEq, Repr

/-- An increment the sequencer still has to apply: a done-flag of a skip, or of a mover's done point (R103, R107). -/
structure DueInc where
  beat : Nat
  flag : Nat
  inc  : Nat
  deriving DecidableEq, Repr

/-- The nodes of the armature above a queue (R298): cluster, region, die per context, module top per context,
fabric edge per context; `child` is the edge to a child module, which a release crosses (R299). -/
inductive Node where
  | cluster (r k : Nat)
  | region (r : Nat)
  | die (d c : Nat)
  | top (c : Nat)
  | fabric (c : Nat)
  | child (c m : Nat)
  deriving DecidableEq, Repr

/-- The fields of a BARRIER (R297). -/
structure BarF where
  bid     : Nat
  scope   : Nat
  qmask   : Nat
  realign : Bool
  deriving DecidableEq, Repr

/-- What a node holds for one use of a barrier ID (R298, R301): the fields of its first arrival, how many matching arrivals it
counts, arrivals held for differing fields, the beat of the last counted one, whether its arrival has gone up, the
modules that sent arrivals, and the number of cluster beats begun when the last arrival below it came (R300). -/
structure BarEntry where
  node  : Node
  f     : BarF
  count : Nat
  extra : Nat
  last  : Nat
  sent  : Bool
  froms : List Nat
  stamp : Nat
  deriving DecidableEq, Repr

/-- A release on its way down (R298, R300), with the number of cluster beats begun when the last arrival of its scope came. -/
structure Rel where
  node  : Node
  f     : BarF
  ctx   : Nat
  stamp : Nat
  deriving DecidableEq, Repr

/-- An untimed access waiting at a bank (R49, R50): the region and number of its request, its physical line, how many beats timed accesses have
taken its line. -/
structure UAcc where
  home : Nat
  req  : Nat
  line : Nat
  held : Nat
  deriving DecidableEq, Repr

/-- A line access of the current beat that slipped while SEQ_SLIP_INFO.VALID was 0 (R120): its unit and tag, the kind and
the holder's tag. -/
structure SlipRec where
  unit   : EUnit
  tag    : Nat
  kind   : Nat
  holder : Nat
  deriving DecidableEq, Repr

/-- Slices of R466: pending kinds with their save area, and the one that runs. -/
structure Slices where
  pend    : List (Nat × Nat)
  running : Option (Nat × Nat)
  ranStep : Bool
  deriving DecidableEq, Repr

/-- One physical cluster (R19, R21). `begun`: the current schedule beat has begun (R103); `setNow`: register bits set in
the current beat, by address (R14); `slipNow`: accesses of the current beat that may be recorded (R120); `beganAt`: which of all
the cluster beats the current one is, in the order in which they began (R300). -/
structure Cluster where
  retired    : Bool
  gated      : Bool
  beat       : Nat
  elapsed    : Nat
  queues     : List Queue
  starts     : List Nat
  phase      : Phase
  switchBeat : Nat
  dcache     : Sparse Desc1024
  dpend      : List (Nat × Nat)
  lris       : List Lri
  nextId     : Nat
  busyUntil  : List Nat
  lastMode   : Option Nat
  tile       : Sparse Nat
  carry0     : Sparse Nat
  carry1     : Sparse Nat
  cnt        : Sparse Ctr
  dueInc     : List DueInc
  uaccs      : List UAcc
  slices     : Slices
  begun      : Bool
  setNow     : List (Nat × Nat)
  slipNow    : List SlipRec
  beganAt    : Nat
  deriving DecidableEq, Repr

/-- A working cluster right after reset. `busyUntil` holds, for MA, VE0, VE1, TTIN and TTOUT, the first schedule
beat in which each accepts a command (R115), and last that in which the MA accepts one of another MODE (R170). -/
def Cluster.init : Cluster :=
  { retired := false, gated := false, beat := 0, elapsed := 0
    queues := [Queue.init, Queue.init, Queue.init, Queue.init], starts := [], phase := .train, switchBeat := 0
    dcache := [], dpend := [], lris := [], nextId := 0, busyUntil := [0, 0, 0, 0, 0, 0], lastMode := none
    tile := [], carry0 := [], carry1 := [], cnt := [], dueInc := [], uaccs := [], slices := ⟨[], none, false⟩
    begun := false, setNow := [], slipNow := [], beganAt := 0 }

/-! ### Requests and translation -/

/-- A translated page (R254): the context's range, the local address it starts at, its attributes, and where its leaf
lies. -/
structure Page where
  ctx  : Nat
  va   : Nat
  size : Nat
  out  : Nat
  we   : Bool
  prot : Bool
  snap : Bool
  kgen : Bool
  cls  : Nat
  leaf : Nat
  deriving DecidableEq, Repr

/-- One piece that a mover moves: from bit address `src`, or the bits `val`, to bit address `dst`, `n` bits; `blk` is
the destination block it belongs to (R153), `ord` its ordinal in the command, `pad` tells a pad's value (R140). -/
structure Move where
  src : Option Nat
  val : Nat
  dst : Nat
  n   : Nat
  blk : Nat
  ord : Nat
  pad : Bool
  deriving DecidableEq, Repr

/-- What a request at a region router is for: part `part` of a mover command, the ordinals from `lo` to before `hi`, a queue fetch of
`n` commands from index `idx` of the stream at `base`, of generation `gen`, a descriptor load, a FOREIGN increment (R289). -/
inductive ReqKind where
  | mover (lri m part lo hi : Nat)
  | fetch (q gen base idx n : Nat)
  | desc (lri : Nat)
  | flag (target : Nat) (remote : Option Nat) (idx inc : Nat)
  deriving DecidableEq, Repr

/-- A request at its region router (R55-R60): its number, its context and physical cluster, its class, the pages it was
translated through, whether translation is done, the elapsed beat of cluster 0 at which it was presented to admission (none: not
yet), its bound in units of 10 ns once accepted (R59, R272, R331), whether it has waited on a snapshot part (R390); once accepted the
resources it holds credits of (R57), the pieces it moves by the mask bytes it read (R141), and whether its packets have left. -/
structure Req where
  id     : Nat
  kind   : ReqKind
  ctx    : Nat
  k      : Nat
  cls    : Nat
  pages  : List Page
  walked : Bool
  arrive : Option Nat
  bound  : Nat
  snapW  : Bool
  path   : List Nat
  moves  : List Move
  sent   : Bool
  deriving DecidableEq, Repr

/-! ### Region -/

/-- What runs for a region (R403, R404, R476): the steps of an ASSIGN to a context, of a RELEASE (in its last step, for a context that
owns no region any more, with whether the invalidation of that step has begun), or a requested reset. -/
inductive Job where
  | none
  | assign (c : Nat)
  | release
  | closing (c : Nat) (begun : Bool)
  | reset
  deriving DecidableEq, Repr

/-- One region (R19, R20, R281, R282, R257, R237, R371). `misses` holds the numbers of the requests whose walks wait or run, in the
order in which their misses arose (R257); `rbaccs` the accesses waiting at the banks of the region buffer (R249); `widthPend` holds the clusters whose width is to change, each with the
column map that takes effect then (R179). -/
structure Region where
  owner       : Option Nat
  loaded      : Bool
  resetSince  : Bool
  inReset     : Bool
  job         : Job
  closing     : Bool
  map         : Sparse Nat
  mapLoaded   : Bool
  mapReject   : Bool
  cnt         : Sparse Ctr
  unseen      : List Unseen
  cache       : List Page
  waiting     : List Req
  accepted    : List Req
  nextReq     : Nat
  chisel      : List (Nat × ChiselProg)
  chiselCfg   : Nat
  seed        : Nat
  retirePend  : List Nat
  widthPend   : List (Nat × Nat)
  misses      : List Nat
  rbaccs      : List UAcc
  deriving DecidableEq, Repr

def Region.init : Region :=
  { owner := none, loaded := false, resetSince := true, inReset := false, job := .none, closing := false, map := []
    mapLoaded := false, mapReject := false, cnt := [], unseen := [], cache := [], waiting := [], accepted := []
    nextReq := 0, chisel := [], chiselCfg := 0, seed := 0, retirePend := [], widthPend := [], misses := [], rbaccs := [] }

/-! ### Context -/

/-- Entry of the bucket table (R339). -/
structure Bucket where
  tag      : Nat
  coll     : Nat
  compress : Bool
  avg      : Bool
  late     : Bool
  resBf    : Bool
  cls      : Nat
  n        : Nat
  nranks   : Nat
  myrank   : Nat
  deadline : Nat
  ranktab  : Nat
  stage    : Nat
  result   : Nat
  weight   : Nat
  deriving DecidableEq, Repr

/-- What the ingress holds of a bucket's right input at a level, or of its result (level 16): the parity it came with, and the ranges
of layout offsets it covers, each from its first byte to before its end (R350). -/
structure CollRx where
  bidx  : Nat
  level : Nat
  par   : Nat
  got   : List (Nat × Nat)
  deriving DecidableEq, Repr

/-- Snapshot of a context (R386-R393): the addresses of all its parts in its space; of each part still to copy, its
number and the local address it is pending at (none: its source faults); granules written through SNAP 0 leaves since
the cut with their contents before and their poison (R391); parts not copied; the cut's step, epoch and time. -/
structure Snap where
  parts   : List Nat
  pend    : List (Nat × Option Nat)
  torn    : List (Nat × List Byte × Bool)
  missing : List Nat
  step    : Nat
  epoch   : Nat
  time    : Nat
  deriving DecidableEq, Repr

/-- One context (R20, R410, R339, R367, R387, R412, R472). Keys are numbers; `none` is an empty slot. `unreset` lists
the regions still to be reset before its broken barrier IDs are cleared (R303). -/
structure Ctx where
  cur      : Option Nat
  curGen   : Nat
  prev     : Option Nat
  sweep    : List Page
  buckets  : List (Nat × Bucket)
  ptx      : Sparse Nat
  prx      : Sparse Nat
  rx       : List CollRx
  snap     : Snap
  hist     : List (Nat × Bool)
  broken   : Nat
  unreset  : List Nat
  deriving DecidableEq, Repr

def Ctx.init : Ctx :=
  { cur := none, curGen := 0, prev := none, sweep := [], buckets := [], ptx := [], prx := [], rx := []
    snap := ⟨[], [], [], [], 0, 0, 0⟩, hist := [], broken := 0, unreset := [] }

/-! ### Module -/

/-- Metadata of a 32-byte granule (R263) with the key it is sealed under (R409): none, it holds its bytes as stored. -/
structure Gran where
  poison : Bool
  kgen   : Bool
  key    : Option Nat
  deriving DecidableEq, Repr

def Gran.clean : Gran := ⟨false, false, none⟩

/-- A flit the module has sent (R307): its SEQ and ACK, type, lane, START and body. -/
structure OutFlit where
  seq   : Nat
  ack   : Nat
  ftype : Nat
  lane  : Nat
  start : Nat
  body  : List Byte
  deriving DecidableEq, Repr

/-- What is left of a packet that waits at an egress port for its flits (R319): its lane, whether it is in transit, whether a flit of
it has left. -/
structure EgressPkt where
  lane    : Nat
  transit : Bool
  begun   : Bool
  bytes   : List Byte
  deriving DecidableEq, Repr

/-- The start of a packet in a lane of a receive buffer, with the flits it holds (R310). -/
structure LanePart where
  bytes : List Byte
  flits : Nat
  deriving DecidableEq, Repr

/-- A packet whole in a receive buffer, with the flits it holds (R310). -/
structure InPkt where
  lane  : Nat
  flits : Nat
  pkt   : Pkt
  deriving DecidableEq, Repr

/-- Messages that leave the module (log 3): a packet that enters its port, a retry request, a link control flit, flits replayed. -/
inductive OutMsg where
  | packet (port : Nat) (x : Pkt)
  | mlm (m : Nat) (x : Pkt)
  | flit (port ftype seq : Nat)
  | control (port : Nat) (l : LinkCtl)
  | replay (port : Nat) (fs : List OutFlit)
  | pldm (code : Nat) (arg : Nat)
  | spdm (body : List Byte)
  | i3c (code arg : Nat)
  deriving DecidableEq, Repr

/-- Where a byte of a context's space lies: in a scratchpad or region buffer, in a page, or nowhere, with the fault kind of R259. -/
inductive Loc where
  | chip (a : Nat)
  | page (p : Page) (a : Nat)
  | bad (kind : Nat)
  deriving DecidableEq, Repr

/-- A packet at the ingress that waits for acceptance, or, accepted, for its accesses at the banks (R49, R57): what came with it,
whether its wait on a snapshot part is counted (R390), what the check of a key exchange found (R447), its number; once accepted
the places of its bytes and the resources it holds credits of. -/
structure HeldPkt where
  pkt    : Pkt
  env    : Env
  again  : Bool
  ok     : Bool
  serial : Nat
  locs   : Option (List Loc)
  path   : List Nat
  deriving DecidableEq, Repr

/-- A request of the companion that waits at its Muolmorn port (R57, R500). -/
structure HeldMlm where
  port : Nat
  pkt  : Pkt
  env  : Env
  deriving DecidableEq, Repr

/-- A packet sent that awaits its completion (R312, R314, R324): its tag and destination, the region and request it
belongs to, the remote address and length it covers, whether it reads, and its completion once that has come: STATUS,
data and poison mask. -/
structure Sent where
  tag    : Nat
  peer   : Nat
  region : Nat
  req    : Nat
  addr   : Nat
  len    : Nat
  reads  : Bool
  done   : Bool
  status : Nat
  data   : List Byte
  mask   : Nat
  deriving DecidableEq, Repr

/-- A session with a peer (R414-R418): the peer, keys in each direction, send counter, highest counter accepted, and
the counters accepted within the window below it. -/
structure Session where
  peer    : Nat
  sendKey : Nat
  recvKey : Nat
  sent    : Nat
  high    : Nat
  seen    : List Nat
  deriving DecidableEq, Repr

/-- A key exchange under way or failed: the peer, the private value, the hello's bytes, whether it failed. -/
structure Kex where
  peer   : Nat
  priv   : Nat
  hello  : List Byte
  failed : Bool
  deriving DecidableEq, Repr

/-- Where the module stands between power and READY (R4, R441, R442, R479, R485, R492): VIN absent, PORST_N low, held in its own
reset, boot running, halted, ready, module recovery running, thermally tripped. -/
inductive Boot where
  | off | porst | held | booting | halted | ready | recovering | tripped
  deriving DecidableEq, Repr

/-- A configuration set as parsed (R436), with its chisel images as bound (R438). -/
structure CfgSet where
  tag      : Nat
  dataProt : Bool
  capacity : Bool
  ekbEn    : Nat
  cxlEn    : Nat
  mlmEn    : Nat
  span     : Nat
  gran     : Nat
  shares   : List Nat
  cap      : Nat
  grace    : Nat
  gains    : Nat
  thresh   : Nat
  holdoff  : Nat
  hltEn    : Bool
  bind     : Nat
  wdog     : Nat
  digest   : List Byte
  images   : List (Nat × List Byte)
  deriving DecidableEq, Repr

/-- Settings before boot has applied a set: R23, R58, R43, R336, R396 and R472 give the defaults. -/
def CfgSet.default : CfgSet :=
  { tag := 0, dataProt := false, capacity := false, ekbEn := 0, cxlEn := 0, mlmEn := 0, span := 0, gran := 0
    shares := [4, 12, 40, 4], cap := 1600, grace := 100, gains := 0x1010101010, thresh := 128, holdoff := 600
    hltEn := true, bind := 0, wdog := 2000, digest := [], images := [] }

/-- Sender and receiver of one Eokoby or Muolmorn link (R307, R308, R310, R319): the SEQ expected next, whether flits are
discarded until a replay, how often in a row the expected flit has failed in replays, the SEQ that the peer's last retry
request named and the replays it has caused in a row, whether the port has gone down and retrains, whether it stays down until
module recovery; the next SEQ to send, the flits kept for replay, packets that wait for their flits, flits of each lane sent for
which no credit has come back, flits of each class served since the port was last empty and whether transit is next in a class;
packets begun in each lane of the receive buffer, packets whole in it, and credits owed for each lane. -/
structure Link where
  rxSeq   : Nat
  discard : Bool
  fails   : Nat
  reqSeq  : Nat
  reqs    : Nat
  lost    : Bool
  dead    : Bool
  txSeq   : Nat
  kept    : List OutFlit
  queue   : List EgressPkt
  unpaid  : List Nat
  served  : List Nat
  turn    : List Bool
  parts   : List LanePart
  arrived : List InPkt
  owed    : List Nat
  deriving DecidableEq, Repr

/-- No credits of any lane. -/
def noCredits : List Nat := [0, 0, 0, 0, 0, 0, 0, 0, 0, 0, 0, 0, 0, 0, 0, 0]

def Link.init : Link :=
  { rxSeq := 0, discard := false, fails := 0, reqSeq := 0, reqs := 0, lost := false, dead := false, txSeq := 0, kept := [], queue := []
    unpaid := noCredits, served := [0, 0, 0, 0], turn := [false, false, false, false], parts := noCredits.map fun _ => ⟨[], 0⟩
    arrived := [], owed := noCredits }

/-- Tallies the health monitor samples every 10 ms (R383): corrected errors, on-die corrections, uncorrectable
events, link retries, link downs. -/
structure Tally where
  ce    : Nat
  odecc : Nat
  ue    : Nat
  retry : Nat
  downs : Nat
  deriving DecidableEq, Repr

def Tally.zero : Tally := ⟨0, 0, 0, 0, 0⟩

/-- The health monitor (R383, R384): tallies so far, samples newest first, armed, ticks since the last trigger. -/
structure Health where
  tally : Tally
  hist  : List Tally
  armed : Bool
  since : Option Nat
  deriving DecidableEq, Repr

/-- Heartbeat and progress watchdog (R471-R474): heartbeats sent since reset, heartbeats sent since the watchdog fired
(0: not fired), whether the heartbeat has stopped. -/
structure Wdog where
  sent    : Nat
  fired   : Nat
  stopped : Bool
  deriving DecidableEq, Repr

/-- Firmware activation and staging (R447-R450): slot being activated with PERSIST, and a staging that runs with its
bytes and target. -/
structure Firm where
  persist : Bool
  prior   : Bool
  stage   : Option (Nat × List Byte)
  deriving DecidableEq, Repr

/-- SPDM responder (R422, R423): version negotiated, algorithms agreed, transcript bytes, number of the committed
record, the record number that the transcript's measurements began under, whether an activation has overtaken the transcript
(R424), and whether the request under way came by the mailbox. -/
structure Spdm where
  version : Bool
  caps    : Bool
  algs    : Bool
  script  : List Byte
  record  : Nat
  began   : Option Nat
  stale   : Bool
  mail    : Bool
  deriving DecidableEq, Repr

/-- Debug port (R508): instruction register, CSRACC and MEMACC data registers as next captured, boundary register. -/
structure Debug where
  ir      : Nat
  csrData : Reg64
  csrDone : Bool
  csrDeny : Bool
  memData : List Byte
  memMeta : Nat
  memDone : Bool
  memDeny : Bool
  bscan   : List Bool
  driven  : Bool
  deriving DecidableEq, Repr

/-- I3C target (R507): dynamic address, MCTP endpoint ID, events enabled. -/
structure I3c where
  dyn    : Option Nat
  eid    : Nat
  events : Bool
  mwl    : Nat
  mrl    : Nat
  deriving DecidableEq, Repr

/-- Pins of R483 and of the power stages. -/
structure Pins where
  porst     : Bool
  thermtrip : Bool
  ready     : Bool
  bpos      : Nat
  converters : Bool
  deriving DecidableEq, Repr

end Sys2Proof.Machine
end

