-- ==== Sys2Proof/Machine/State.lean ====
section
/-!
DEFINITION. Sys2Proof/Machine/State.lean: everything the module is, as plain data; its stops; its state after reset.
What the spec names as a register lives in `regs` under its own address; what a register only shows is computed from
the record that holds it when it is read (Csr.lean).
-/
namespace Sys2Proof.Machine

/-- The state of the module, with the queue of commands that wait (first in, first out). -/
structure State where
  /-- Commands waiting, first in, first out. -/
  pending   : List Instr
  /-- Memory bytes by local physical address (R244); unlisted bytes read 0 (log 4). -/
  mem       : Memory
  /-- Granule metadata by granule address (R263). -/
  gran      : Sparse Gran
  /-- Configuration flash by offset (R432); unlisted bytes read 0xFF, as erased (log 30). -/
  flash     : Sparse Byte
  /-- Registers by offset in control space (R510); unlisted read 0. -/
  regs      : Sparse Reg64
  /-- Hidden remainders of counters in units of 2^12 (R514). -/
  hidden    : Sparse Nat
  /-- Events that the counters of clusters have counted in the current beat of their cluster, by offset (R513). -/
  counted   : Sparse Nat
  /-- Registers as sampled at the last 1 ms boundary (R428, R518). -/
  sampled   : Sparse Reg64
  /-- Clusters by 9 × region + physical cluster. -/
  clusters  : Sparse Cluster
  /-- Regions by physical number. -/
  regions   : Sparse Region
  /-- Contexts by number. -/
  ctxs      : Sparse Ctx
  /-- Barrier arrivals held at the nodes of the armature (R298). -/
  bars      : List BarEntry
  /-- Barrier releases on their way down (R298, R300). -/
  rels      : List Rel
  /-- Where the module stands between power and READY. -/
  boot      : Boot
  /-- The configuration set in force: power-on and swap fields as applied (R436, R445). -/
  active    : CfgSet
  /-- The maquette set held on the plinth die (R444). -/
  maq       : Option CfgSet
  /-- Firmware activation and staging under way. -/
  firm      : Firm
  /-- Packets sent that await completion (R312). -/
  sent      : List Sent
  /-- Next transaction tag. -/
  nextTag   : Nat
  /-- Ingress translation cache (R323). -/
  ingress   : List Page
  /-- Packets at the ingress that wait, and the number of the next one (R57, R390). -/
  heldPkts  : List HeldPkt
  nextHeld  : Nat
  /-- Companion requests that wait at their Muolmorn port (R57, R500). -/
  heldMlm   : List HeldMlm
  /-- Sessions with peer modules, and with the companion under peer 65536 + port (R415, R419). -/
  sessions  : List Session
  /-- Key exchanges under way or failed (R417). -/
  kexs      : List Kex
  /-- Links E0 to E7, then M0 and M1 (R307, R308, R493). -/
  links     : List Link
  /-- A peer record has changed since Ralrad last wrote the default routing (R318). -/
  routeDue  : Bool
  /-- The health monitor (R383, R384). -/
  health    : Health
  /-- Heartbeat and watchdog (R471, R473). -/
  wdog      : Wdog
  /-- SPDM responder (R422, R423). -/
  spdm      : Spdm
  /-- Debug port (R508). -/
  dbg       : Debug
  /-- I3C target (R507). -/
  i3c       : I3c
  /-- Pins (R483). -/
  pins      : Pins
  /-- The invalidation that runs (R258): context, every page, page address. -/
  inv       : Option (Nat × Bool × Nat)
  /-- Parts a scrub still has to zero (R405). -/
  scrub     : List Nat
  /-- Dies in reset (R475). -/
  dieReset  : List Nat
  /-- Rail setpoints of the dies in mV (R39). -/
  rails     : List Nat
  /-- Admission steps taken and not restored (R42): 0 to 24. -/
  admDown   : Nat
  /-- Last stack recalibrated, plus one (R458). -/
  recal     : Nat
  /-- Next granule of each stack's patrol and next line of each SRAM bank's scrub (R265, R457). -/
  patrol    : Sparse Nat
  scrubLine : Sparse Nat
  /-- Key store: numbers of keys made so far (R408, log 6); requests of the DRBG since it was seeded (R407). -/
  nextKey   : Nat
  drbg      : Nat
  /-- Identity key: its number while rebuilt (R420). -/
  identity  : Option Nat
  /-- Inbox bytes of the mailbox (R503), a message being taken, messages held for a full ring (R505), sequence
  numbers of messages out (R502). -/
  inbox     : Sparse Byte
  taking    : Option (List Byte)
  heldMsgs  : List (List Byte)
  mboxSeq   : Nat
  /-- Plinth time base in ns, as far as the commands tell it (R428, log 7). -/
  timeNs    : Nat
  /-- Power-on count kept in the write log (R440). -/
  powerOns  : Nat
  /-- Readings of PLDM sensors 1 to 15 as last updated (R463). -/
  sensors   : List Int
  /-- The MODEL's own: what has left the module, newest first (log 3). -/
  outbox    : List OutMsg
  /-- The MODEL's own: counter of free values drawn (log 2). -/
  freeCtr   : Nat
  /-- The MODEL's own: cluster beats begun so far, by which R300 orders them (log 102). -/
  ticks     : Nat
  deriving DecidableEq, Repr

/-- Why a command stops the model: no command does, since the spec gives every command of the table an effect (log 15). -/
inductive Fault : Type
  deriving DecidableEq, Repr

/-- Why the model has no meaning for a command. -/
inductive Refusal where
  /-- The command has no meaning in the model; raised by no meaning, only by a dispatch arm; safe. -/
  | notModelled (mnemonic : String)
  deriving DecidableEq, Repr

/-- Region router registers with a nonzero reset value: MEM_ADM_SHARE (R61). -/
def resetShares : Sparse Reg64 := (List.range 48).map fun r => (A.admShare r, 0x04280C04#64)

/-- Registers whose reset value is not 0: R3, R506, R43, R396, R481, R336, R61. -/
def resetRegs : Sparse Reg64 :=
  [(A.ident, 0x02B1204820#64), (A.mboxOutCfg, 0x4#64), (A.govCtrl, 0x640#64), (A.riskGain, 0x1010101010#64)
  ,(A.snapCtrl, 0x1025880#64), (A.hltHeartbeat, 0x100000000#64), (A.bistCtrl, 0xF0#64), (A.grace, 0x64#64)] ++ resetShares

/-- The state right after power-on reset, PORST_N still low (R485, R480). -/
def State.reset : State :=
  { pending := [], mem := [], gran := [], flash := [], regs := resetRegs, hidden := [], counted := [], sampled := []
    clusters := [], regions := [], ctxs := [], bars := [], rels := [], boot := .porst, active := CfgSet.default
    maq := none, firm := ⟨false, false, none⟩, sent := [], nextTag := 0, ingress := [], heldPkts := [], nextHeld := 0, heldMlm := [], sessions := [], kexs := []
    links := List.replicate 10 Link.init, routeDue := false
    health := ⟨Tally.zero, [], true, none⟩, wdog := ⟨0, 0, false⟩
    spdm := ⟨false, false, false, [], 0, none, false, false⟩
    dbg := ⟨0x02, 0, false, false, [], 0, false, false, [], false⟩
    i3c := ⟨none, 0, true, 0, 0⟩, pins := ⟨false, true, false, 0, true⟩
    inv := none, scrub := [], dieReset := [], rails := [720, 720, 720, 720], admDown := 0, recal := 0
    patrol := [], scrubLine := [], nextKey := 1, drbg := 0, identity := none, inbox := [], taking := none
    heldMsgs := [], mboxSeq := 0, timeNs := 0, powerOns := 0, sensors := List.replicate 15 0, outbox := [], freeCtr := 0, ticks := 0 }

end Sys2Proof.Machine
end

