-- ==== Sys2Proof/Machine/Ops.lean ====
section
/-!
DEFINITION. Sys2Proof/Machine/Ops.lean: the named operations over the state: registers and counters (R513-R515), units,
queues, memory granules (R263, R264, R266, R410), and the shape of a region.
-/
namespace Sys2Proof.Machine

abbrev Out := Host.Outcome State Fault Refusal

/-! ### Units -/

def State.cl (s : State) (r k : Nat) : Cluster := Sparse.get Cluster.init s.clusters (9 * r + k)

def State.setCl (s : State) (r k : Nat) (c : Cluster) : State :=
  { s with clusters := Sparse.set Cluster.init s.clusters (9 * r + k) c }

def State.modCl (s : State) (r k : Nat) (f : Cluster → Cluster) : State := s.setCl r k (f (s.cl r k))

def State.rg (s : State) (r : Nat) : Region := Sparse.get Region.init s.regions r

def State.setRg (s : State) (r : Nat) (g : Region) : State := { s with regions := Sparse.set Region.init s.regions r g }

def State.modRg (s : State) (r : Nat) (f : Region → Region) : State := s.setRg r (f (s.rg r))

def State.cx (s : State) (c : Nat) : Ctx := Sparse.get Ctx.init s.ctxs c

def State.setCx (s : State) (c : Nat) (x : Ctx) : State := { s with ctxs := Sparse.set Ctx.init s.ctxs c x }

def State.modCx (s : State) (c : Nat) (f : Ctx → Ctx) : State := s.setCx c (f (s.cx c))

def Cluster.queue (c : Cluster) (q : Nat) : Queue := nth Queue.init c.queues q

def Cluster.setQ (c : Cluster) (q : Nat) (x : Queue) : Cluster :=
  { c with queues := (List.range 4).map fun i => if i = q then x else c.queue i }

def State.queue (s : State) (r k q : Nat) : Queue := (s.cl r k).queue q

def State.setQ (s : State) (r k q : Nat) (x : Queue) : State := s.modCl r k fun c => c.setQ q x

/-- A command whose operands name units that the module has (R19) takes effect; one that names a unit it does not have reaches
nothing, and nothing happens (log 15). -/
def guard (b : Bool) (s : State) (o : Out) : Out := if b then o else .next s

/-! ### Registers and counters -/

def State.reg (s : State) (a : Nat) : Reg64 := Sparse.get 0 s.regs a

def State.setReg (s : State) (a : Nat) (w : Reg64) : State := { s with regs := Sparse.set 0 s.regs a w }

/-- A register's value as a number. -/
def State.regN (s : State) (a : Nat) : Nat := (s.reg a).toNat

/-- Bits of a register as a number. -/
def State.fieldN (s : State) (a lo len : Nat) : Nat := regField (s.reg a) lo len

/-- One bit of a register. -/
def State.bit (s : State) (a i : Nat) : Bool := (s.reg a).toNat.testBit i

def State.setFld (s : State) (a lo len v : Nat) : State := s.setReg a (setField (s.reg a) lo len v)

def State.setB (s : State) (a i : Nat) (b : Bool) : State := s.setReg a (setBit (s.reg a) i b)

/-- A register of a cluster's blocks (R510). -/
def inClusters (a : Nat) : Bool := 0x1000000 ≤ a && a < 0x4000000 && 0x10000 ≤ a % 0x100000

/-- R513: `n` more events of the current beat at a cluster's counter. -/
def countEvents (m : Sparse Nat) (a n : Nat) : Sparse Nat := if inClusters a then Sparse.set 0 m a (Sparse.get 0 m a + n) else m

/-- R513: a counter of 48 bits takes `n` more events and stops at all ones. -/
def State.bump (s : State) (a n : Nat) : State :=
  if n = 0 then s else { s.setReg a (BitVec.ofNat 64 (satAdd 48 (s.regN a) n)) with counted := countEvents s.counted a n }

/-- R515: a counter of another width that stops. -/
def State.bumpW (s : State) (w a n : Nat) : State :=
  if n = 0 then s else s.setReg a (BitVec.ofNat 64 (satAdd w (s.regN a) n))

/-- R514: a counter in units of 2^12 keeps a hidden remainder; both stop at all ones. -/
def State.bumpUnits (s : State) (a n : Nat) : State :=
  if n = 0 then s
  else
    let t := min (s.regN a * 4096 + Sparse.get 0 s.hidden a + n) (2 ^ 60 - 1)
    { s.setReg a (BitVec.ofNat 64 (t / 4096)) with hidden := Sparse.set 0 s.hidden a (t % 4096), counted := countEvents s.counted a n }

/-- R513: the events of the current beat of a counter's cluster. -/
def State.thisBeat (s : State) (a : Nat) : Nat := Sparse.get 0 s.counted a

/-- R513, R514: a counter that is cleared holds the events of the current beat; one in units of 2^12 with its remainder. -/
def State.clearCounter (s : State) (units : Bool) (a : Nat) : State :=
  let t := min (s.thisBeat a) (2 ^ 60 - 1)
  if units then { s.setReg a (BitVec.ofNat 64 (t / 4096)) with hidden := Sparse.set 0 s.hidden a (t % 4096) }
  else s.setReg a (BitVec.ofNat 64 (min (s.thisBeat a) (2 ^ 48 - 1)))

/-- OR bits into a status register. -/
def State.orReg (s : State) (a v : Nat) : State := s.setReg a (s.reg a ||| BitVec.ofNat 64 v)

def State.send (s : State) (m : OutMsg) : State := { s with outbox := m :: s.outbox }

/-- Draw a free value (log 2): what the spec leaves open, below `n`. -/
def State.free (s : State) (n : Nat) : Nat × State :=
  (Sys2Proof.Config.freeNat s.freeCtr % n, { s with freeCtr := s.freeCtr + 1 })

/-- Bytes whose contents the spec leaves undefined (R467, R469, log 2). -/
def State.scramble (s : State) (a n : Nat) : State :=
  { s with
    mem := s.mem.writeBytes a ((List.range n).map fun i => BitVec.ofNat 8 (Sys2Proof.Config.freeByte s.freeCtr (a + i)))
    freeCtr := s.freeCtr + 1 }

/-! ### Shape and ownership (R20-R28, R246) -/

def State.dataProt (s : State) : Bool := s.active.dataProt

/-- CLUSTERS of a region (R28). -/
def State.nClusters (s : State) (r : Nat) : Nat := s.fieldN (A.regionShape r) 0 4

/-- R21: the physical cluster that carries a logical number; 9 when none does. -/
def State.physOf (s : State) (r l : Nat) : Nat :=
  if l ≥ s.nClusters r then 9
  else if s.bit (A.regionShape r) 5 && s.fieldN (A.regionShape r) 6 3 == l then 8
  else l

/-- R21: the logical number a physical cluster carries; 9 when it carries none. -/
def State.logOf (s : State) (r k : Nat) : Nat :=
  nth 9 ((List.range 9).filter fun l => l < s.nClusters r && s.physOf r l == k) 0

/-- R511: the blocks of a power-gated spare read 0 and ignore writes. -/
def State.isGated (s : State) (r k : Nat) : Bool := (s.cl r k).gated

/-- Regions a context owns, lowest physical number first (R246). -/
def State.regionsOf (s : State) (c : Nat) : List Nat := (List.range 48).filter fun r => (s.rg r).owner == some c

/-- R246: physical region of a context's logical region. -/
def State.logRegion (s : State) (c n : Nat) : Option Nat := (s.regionsOf c)[n]?

def dieOf (r : Nat) : Nat := r / 12

/-- Ring hops between two dies (R262). -/
def hops (a b : Nat) : Nat := let d := (a + 4 - b) % 4; if d = 0 then 0 else if d = 2 then 2 else 1

/-- Dies that hold regions of a context. -/
def State.diesOf (s : State) (c : Nat) : List Nat := dedupNat ((s.regionsOf c).map dieOf)

/-- Whether any region belongs to a context. -/
def State.anyOwned (s : State) : Bool := (List.range 48).any fun r => (s.rg r).owner.isSome

/-! ### HBM interleave (R261) -/

def gsize (g : Nat) : Nat := match g with | 0 => 4096 | 1 => 65536 | _ => 2097152

/-- R261: the stack that holds an HBM address. -/
def stackOf (span gran a : Nat) : Nat :=
  let gs := gsize gran
  if span = 0 then (a / gs) % 20
  else
    let d := a / 257698037760
    5 * d + ((a - d * 257698037760) / gs) % 5

def State.stack (s : State) (a : Nat) : Nat := stackOf (s.fieldN A.interleave 0 1) (s.fieldN A.interleave 1 2) a

/-- R261: the byte offset of an HBM address within its stack. -/
def stackOffset (span gran a : Nat) : Nat :=
  let gs := gsize gran
  let b := if span = 0 then a else a % 257698037760
  b / gs / (if span = 0 then 20 else 5) * gs + a % gs

/-- R261, the other way: the HBM address at a byte offset within a stack. -/
def stackAddr (span gran stack offset : Nat) : Nat :=
  let gs := gsize gran
  if span = 0 then (offset / gs * 20 + stack) * gs + offset % gs
  else stack / 5 * 257698037760 + (offset / gs * 5 + stack % 5) * gs + offset % gs

/-- Events passed to the health monitor (R251, R383): corrected words, uncorrectable ones. -/
def State.tallyCe (s : State) (n : Nat) : State := { s with health := { s.health with tally := { s.health.tally with ce := s.health.tally.ce + n } } }
def State.tallyUe (s : State) (n : Nat) : State := { s with health := { s.health with tally := { s.health.tally with ue := s.health.tally.ue + n } } }

/-! ### Granules (R263, R264, R266, R409, R410) -/

def granOf (a : Nat) : Nat := a / 32 * 32

def State.granAt (s : State) (a : Nat) : Gran := Sparse.get Gran.clean s.gran (granOf a)

def State.setGran (s : State) (a : Nat) (g : Gran) : State :=
  { s with gran := Sparse.set Gran.clean s.gran (granOf a) g }

def State.bytes (s : State) (a n : Nat) : List Byte := s.mem.readBytes a n

/-- Key of a context's slot with a generation (R410). -/
def State.keyFor (s : State) (c : Nat) (gen : Bool) : Option Nat :=
  let x := s.cx c
  if x.cur.isSome && (x.curGen == 1) == gen then x.cur
  else if x.prev.isSome && (x.curGen == 1) != gen then x.prev
  else none

/-- The 32 bytes of a granule as a reader holding `key` (none: as stored) sees them (R409, log 6). -/
def State.granSeen (s : State) (g : Nat) (key : Option Nat) : List Byte :=
  let m := s.granAt g
  let raw := s.bytes g 32
  if m.key == key then raw
  else natToBytes 32 (Sys2Proof.Config.xtsBytes (bytesToNat raw) (m.key.getD 0) (key.getD 0) g)

/-- How an access reaches memory: as a context through a page with PROT (R264), or as stored. -/
inductive Via where
  | plain
  | prot (c : Nat)
  deriving DecidableEq, Repr

/-- What a read of one granule gives (R266, R410): its bytes, whether they are poisoned, whether no key slot
has its generation. -/
structure GranRead where
  bytes  : List Byte
  poison : Bool
  nokey  : Bool
  deriving DecidableEq, Repr

/-- R264, R266, R410: read one granule. -/
def State.readGran (s : State) (via : Via) (g : Nat) : GranRead :=
  let m := s.granAt g
  match via with
  | .plain => ⟨s.granSeen g none, m.poison, false⟩
  | .prot c =>
    if s.dataProt && isHbm g then
      match s.keyFor c m.kgen with
      | some k => ⟨s.granSeen g (some k), m.poison, false⟩
      | none => ⟨List.replicate 32 0#8, true, true⟩
    else ⟨s.granSeen g none, m.poison, false⟩

/-- One byte to write: where, its value, which of its bits, and whether its source was poisoned. -/
structure Wr where
  addr : Nat
  val  : Byte
  mask : Byte
  bad  : Bool
  deriving DecidableEq, Repr

def mergeByte (old v m : Byte) : Byte := (old &&& ~~~ m) ||| (v &&& m)

/-- R266, R264: write bytes of one granule: partial writes are read-modify-writes under the granule's own key, a
poisoned source poisons the granule, a write that covers the granule whole clears POISON. -/
def State.writeGran (s : State) (via : Via) (g : Nat) (ws : List Wr) : State :=
  let m := s.granAt g
  let key : Option Nat := match via with
    | .prot c => if s.dataProt && isHbm g then (s.cx c).cur else none
    | .plain => none
  let gen : Bool := match via with
    | .prot c => if s.dataProt && isHbm g then (s.cx c).curGen == 1 else false
    | .plain => false
  let seen := (s.readGran via g).bytes
  let new := numberFrom (fun i (b : Byte) =>
    ws.foldl (fun b w => if w.addr == g + i then mergeByte b w.val w.mask else b) b) 0 seen
  let whole := (List.range 32).all fun i => ws.any fun w => w.addr == g + i && w.mask == 0xFF#8
  let bad := ws.any Wr.bad
  let p := bad || (m.poison && !whole)
  let s1 := { s with mem := s.mem.writeBytes g new }
  s1.setGran g ⟨p, gen, key⟩

/-- R266: bytes to a scratchpad or region buffer; poisoned ones arrive as zeros. -/
def State.writeChip (s : State) (w : Wr) : State :=
  let v := if w.bad then 0#8 else w.val
  { s with mem := s.mem.write w.addr (mergeByte (s.mem.read w.addr) v w.mask) }

/-- The granules a list of writes touches, in order of first touch. -/
def granulesOf (ws : List Wr) : List Nat := dedupNat (ws.map fun w => granOf w.addr)

/-- Write bytes wherever they lie, in order (R266); granules first touched first. -/
def State.writeAll (s : State) (via : Via) (ws : List Wr) : State :=
  let chip := ws.filter fun w => !isGran w.addr
  let gr := ws.filter fun w => isGran w.addr
  let s1 := chip.foldl State.writeChip s
  (granulesOf gr).foldl (fun s g => s.writeGran via g (gr.filter fun w => granOf w.addr == g)) s1

/-- Whole bytes to write from an address on. -/
def wrBytes (a : Nat) (bs : List Byte) : List Wr := numberFrom (fun i b => ⟨a + i, b, 0xFF#8, false⟩) 0 bs

/-- The 32 bytes around an address as stored, granules of HBM and CXL as a reader without key sees them. -/
def State.blockAt (s : State) (g : Nat) : List Byte := if isGran g then s.granSeen g none else s.bytes g 32

/-- Bytes read from local physical memory as stored, with whether any granule was poisoned. -/
def State.readPlain (s : State) (a n : Nat) : List Byte × Bool :=
  let g0 := granOf a
  let gs := (List.range (ceilDiv (a - g0 + n) 32)).map fun i => g0 + 32 * i
  (((gs.flatMap s.blockAt).drop (a - g0)).take n, gs.any fun g => isGran g && (s.granAt g).poison)

end Sys2Proof.Machine
end

