-- ==== Sys2Proof/Machine/Xlate.lean ====
section
/-!
DEFINITION. Sys2Proof/Machine/Xlate.lean: translation and windows (R245 to R259), fault records, invalidation (R258).
-/
namespace Sys2Proof.Machine

/-- A fault kind of R259, or a page. -/
abbrev XRes := Except Nat Page

/-- One table entry (R254). -/
def State.entry (s : State) (a : Nat) : Nat := bytesToNat (s.readPlain a 8).1

/-- R497: the Muolmorn port that carries a companion-window address. -/
def State.mlmPort (s : State) (a : Nat) : Nat :=
  let o := a - mlmBase
  match s.fieldN A.mlmWin 0 2 with
  | 1 => if o < 2 ^ 43 then 0 else 1
  | 2 => if bitAt o 12 then 1 else 0
  | _ => 0

/-- R497: the address sent. -/
def State.mlmAddr (s : State) (a : Nat) : Nat :=
  let o := a - mlmBase
  if s.fieldN A.mlmWin 0 2 = 1 then o % 2 ^ 43 else o

/-- A Muolmorn port is up, with its session where one is needed (R498, R419). -/
def State.mlmUp (s : State) (m : Nat) : Bool :=
  s.fieldN (A.mlmStatus m) 0 2 != 0 && bitAt s.active.mlmEn m && (!s.dataProt || s.bit (A.mlmStatus m) 2)

/-- R255, R267, R268, R498: an output address that names memory which answers. -/
def State.outOk (s : State) (a : Nat) : Bool :=
  if isHbm a then true
  else if isCxl a then
    let p := (a - cxlBase) / 0x40000000000
    s.bit (A.cxlStatus p) 0 && (a - cxlBase) % 0x40000000000 < s.fieldN (A.cxlCap p) 0 16 * 0x10000000
  else if isMlm a then s.mlmUp (s.mlmPort a)
  else false

/-- Whether an entry is well formed at a level; LEAF must be 0 at level 0 and 1 at level 2 (R254, R255). -/
def entryOk (level e : Nat) : Bool :=
  bitAt e 0 && field e 8 4 == 0 && field e 52 12 == 0
    && (if level = 0 then !bitAt e 1 else if level = 2 then bitAt e 1 else true)

/-- A leaf as a page, with the checks of R255. -/
def State.leafPage (s : State) (c va size e addr : Nat) : XRes :=
  let out := field e 12 40 * 4096
  if out % size ≠ 0 ∨ field e 6 2 = 0 then .error 1
  else if !s.outOk (out + va % size) then .error 4
  else
    .ok { ctx := c, va := va / size * size, size, out, we := bitAt e 2, prot := bitAt e 3, snap := bitAt e 4
          kgen := bitAt e 5, cls := field e 6 2, leaf := addr }

/-- R253, R255: walk from MEM_CTX_ROOT_c; the second part is how many entries were read. -/
def State.walk (s : State) (c va : Nat) : XRes × Nat :=
  let root := s.regN (A.ctxRoot c)
  let t0 := field root 12 40 * 4096
  if !bitAt root 0 || 96 ≤ field va 39 7 then (.error 1, 0)
  else if !isHbm t0 then (.error 1, 0)
  else
    let e0 := s.entry (t0 + 8 * field va 39 7)
    let t1 := field e0 12 40 * 4096
    if !entryOk 0 e0 || !isHbm t1 then (.error 1, 1)
    else
      let a1 := t1 + 8 * field va 30 9
      let e1 := s.entry a1
      if !entryOk 1 e1 then (.error 1, 2)
      else if bitAt e1 1 then (s.leafPage c va 0x40000000 e1 a1, 2)
      else
        let t2 := field e1 12 40 * 4096
        if !isHbm t2 then (.error 1, 2)
        else
          let a2 := t2 + 8 * field va 21 9
          let e2 := s.entry a2
          if !entryOk 2 e2 then (.error 1, 3) else (s.leafPage c va 0x200000 e2 a2, 3)

/-- R477, R478: the stack that holds an HBM address serves requests. -/
def State.stackUp (s : State) (a : Nat) : Bool := s.bit (A.hbmStatus (s.stack a)) 0

/-- R257: a walk of this address needs a table page whose stack serves no request. -/
def State.walkHeld (s : State) (c va : Nat) : Bool :=
  let root := s.regN (A.ctxRoot c)
  let t0 := field root 12 40 * 4096
  if !bitAt root 0 || !isHbm t0 then false
  else if !s.stackUp t0 then true
  else
    let t1 := field (s.entry (t0 + 8 * field va 39 7)) 12 40 * 4096
    if !isHbm t1 then false
    else if !s.stackUp t1 then true
    else
      let e1 := s.entry (t1 + 8 * field va 30 9)
      let t2 := field e1 12 40 * 4096
      !bitAt e1 1 && isHbm t2 && !s.stackUp t2

/-- The page of a list that holds an address of a context. -/
def pageOf (ps : List Page) (c va : Nat) : Option Page :=
  ps.find? fun p => p.ctx == c && p.va ≤ va && va < p.va + p.size

/-- R257: a translation cache of `n` leaves; the oldest leaf is replaced (log 10). -/
def cachePut (n : Nat) (ps : List Page) (p : Page) : List Page := (p :: ps).take n

/-- R246, R247, R250: where a region window offset leads; SWZ maps scratchpad lines (R145). -/
def State.windowAt (s : State) (r off swz : Nat) : Except Nat Nat :=
  if off < 0x2400000 then
    let l := off / 0x400000
    if l < s.nClusters r then
      let o := off % 0x400000
      .ok (spAddr r (s.physOf r l) (physLine swz (o / 128) * 128 + o % 128))
    else .error 3
  else if off < 0x3000000 then .error 3
  else .ok (rbAddr r (off - 0x3000000))

/-- R252, R250, R323: a context's address outside translation; `own` is the issuing region, none at ingress. -/
def State.window (s : State) (c : Nat) (own : Option Nat) (swz va : Nat) : Except Nat Nat :=
  if winBase ≤ va && va < winEnd then
    match s.logRegion c ((va - winBase) / 0x4000000) with
    | some r => s.windowAt r ((va - winBase) % 0x4000000) swz
    | none => .error 3
  else if ownBase ≤ va && va < ownEnd then
    match own with
    | some r => s.windowAt r (va - ownBase) swz
    | none => .error 3
  else .error 4

/-- R252: locate a byte through recorded pages. -/
def State.locate (s : State) (ps : List Page) (c : Nat) (own : Option Nat) (swz va : Nat) : Loc :=
  if va < winBase then
    match pageOf ps c va with
    | some p => .page p (p.out + (va - p.va))
    | none => .bad 1
  else
    match s.window c own swz va with
    | .ok a => .chip a
    | .error k => .bad k

def Loc.addr : Loc → Nat
  | .chip a => a
  | .page _ a => a
  | .bad _ => 0

def Loc.via : Loc → Via
  | .page p _ => if p.prot then .prot p.ctx else .plain
  | _ => .plain

/-! ### Errors in scratchpads and region buffers (R251) -/

/-- The lines of scratchpads and region buffers that a list of places lies in. -/
def chipLinesOf (ls : List Loc) : List Nat :=
  dedupNat (ls.filterMap fun l => match l with | .chip a => some (a / 128) | _ => none)

/-- R251: one word with a double-bit error reads as stored: free bits (log 106). -/
def State.chipUe (s : State) (w : Nat) : State :=
  ((s.bump (A.spUe ((w - physWin) / 0x4000000)) 1).tallyUe 1).scramble (w / 8 * 8) 8

/-- R251: corrected and uncorrectable words of the lines read, each counted in the region that holds it. -/
def State.noteChip (s : State) (e : Env) (ls : List Loc) : State :=
  let lines := chipLinesOf ls
  let hit (ws : List Nat) : List Nat := dedupNat (ws.filter fun w => lines.contains (w / 128))
  let s1 := (hit e.ce).foldl (fun s w => (s.bump (A.spCe ((w - physWin) / 0x4000000)) 1).tallyCe 1) s
  (hit e.ue).foldl State.chipUe s1

/-- R259: record the first fault of a region since VALID was cleared, and count it. -/
def State.recordFault (s : State) (r kind va lk source mover tag : Nat) : State :=
  let s1 := s.bump (A.xFaults r) 1
  if s1.bit (A.faultInfo r) 63 then s1
  else
    (s1.setReg (A.faultAddr r) (BitVec.ofNat 64 va)).setReg (A.faultInfo r)
      (BitVec.ofNat 64 (kind + lk * 8 + source * 128 + mover * 512 + tag * 1024 + 2 ^ 63))

/-- Result of translating a list of addresses: pages found, walks, hits, and the first fault with its address. -/
structure XAll where
  pages : List Page
  cache : List Page
  hits  : Nat
  walks : Nat
  fault : Option (Nat × Nat)
  deriving DecidableEq, Repr

/-- R257: translate the pages of a list of addresses of context `c`, one by one, through a cache of `n` leaves. -/
def State.xlateAll (s : State) (n c : Nat) : List Nat → XAll → XAll
  | [], x => x
  | va :: vas, x =>
    if x.fault.isSome then x
    else if va ≥ winBase then s.xlateAll n c vas x
    else if (pageOf x.pages c va).isSome then s.xlateAll n c vas x
    else
      match pageOf x.cache c va with
      | some p => s.xlateAll n c vas { x with pages := x.pages ++ [p], hits := x.hits + 1 }
      | none =>
        match (s.walk c va).1 with
        | .ok p => s.xlateAll n c vas { x with pages := x.pages ++ [p], cache := cachePut n x.cache p, walks := x.walks + 1 }
        | .error k => { x with walks := x.walks + 1, fault := some (k, va) }

/-- Whether every address of a list is served by the cache or by a window. -/
def allHit (cache : List Page) (c : Nat) (vas : List Nat) : Bool :=
  vas.all fun va => va ≥ winBase || (pageOf cache c va).isSome

/-- R259: first fault of the bytes an access touches once translated: windows, write permission, memory that is gone. -/
def State.accessFault (s : State) (ps : List Page) (c : Nat) (own : Option Nat) (swz : Nat) (wr : Bool) (va : Nat) : Option (Nat × Nat) :=
  match s.locate ps c own swz va with
  | .bad k => some (k, va)
  | .chip _ => none
  | .page p a => if !s.outOk a then some (4, va) else if wr && !p.we then some (2, va) else none

/-- R258: whether an invalidation covers a page. -/
def invCovers (x : Nat × Bool × Nat) (p : Page) : Bool :=
  p.ctx == x.1 && (x.2.1 || (p.va ≤ x.2.2 && x.2.2 < p.va + p.size))

/-- R258: covered leaves leave every region's cache and the ingress cache. -/
def State.dropLeaves (s : State) (x : Nat × Bool × Nat) : State :=
  let s1 := (List.range 48).foldl (fun s r => s.modRg r fun g => { g with cache := g.cache.filter fun p => !invCovers x p }) s
  { s1 with ingress := s1.ingress.filter fun p => !invCovers x p }

/-- Companion memory as the environment gives it (R499); a byte it does not give is free (log 2). -/
def winByte (w : List (Nat × List Byte)) (a : Nat) : Byte :=
  match w.find? fun p => p.1 ≤ a && a < p.1 + p.2.length with
  | some p => nth 0#8 p.2 (a - p.1)
  | none => BitVec.ofNat 8 (Sys2Proof.Config.hostByte a)

/-- A command that draws nothing from outside. -/
def noEnv : Env := ⟨[], [], [], [], 0, false⟩

/-- Where a byte of a context's space lies now, found by a walk (R253, R257). -/
def State.ctxPlace (s : State) (c a : Nat) : Loc :=
  if a < winBase then match (s.walk c a).1 with | .ok p => .page p (p.out + (a - p.va)) | .error k => .bad k
  else match s.window c none 0 a with | .ok x => .chip x | .error k => .bad k

/-- The granules that `n` bytes of a context's space cover. -/
def State.ctxPlaces (s : State) (c va n : Nat) : List Loc :=
  (List.range (ceilDiv (va % 32 + n) 32)).map fun i => s.ctxPlace c ((va / 32 + i) * 32)

/-- R523, R259, R266: the 32 bytes at a place that Ralrad reads as a part of a whole; none when the read faults or meets poison. -/
def State.wholeGran (s : State) (e : Env) (c : Nat) : Loc → Option (List Byte)
  | .bad _ => none
  | .chip x => some (s.bytes x 32)
  | .page p x =>
    if !s.outOk x || e.bad.contains x then none
    else if isGran x then
      let g := s.readGran (if p.prot then .prot c else .plain) x
      if g.poison then none else some g.bytes
    else some ((List.range 32).map fun i => winByte e.win (x + i))

/-- R523: bytes of a context's space read as a whole by Ralrad. -/
def State.readCtx (s : State) (e : Env) (c va n : Nat) : Option (List Byte) :=
  ((s.ctxPlaces c va n).mapM (s.wholeGran e c)).map fun bs => (bs.flatten.drop (va % 32)).take n

end Sys2Proof.Machine
end

