-- ==== Sys2Proof/Machine/Flags.lean ====
section
/-!
DEFINITION. Sys2Proof/Machine/Flags.lean: virtual flags and physical counters (R281 to R292), and realignment (R294, R295).
-/
namespace Sys2Proof.Machine

/-! ### Virtual flags (R282, R283) -/

/-- What a virtual ID names for a cluster. -/
inductive FlagRef where
  | noFlag
  | unmapped
  | own (idx : Nat)
  | node (idx : Nat)
  | foreign (lregion idx : Nat)
  | absent (lregion idx : Nat)
  | remote (modNum lregion idx : Nat)
  deriving DecidableEq, Repr

/-- Membership of the fabric (R336). -/
def State.isMember (s : State) : Bool := s.fieldN A.member 12 2 == 1
/-- R315, R336: the module has a number as MEMBER and in QUARANTINE. -/
def State.hasNumber (s : State) : Bool := s.fieldN A.member 12 2 != 0
def State.modNum (s : State) : Nat := s.fieldN A.member 0 12
def State.fabEpoch (s : State) : Nat := s.fieldN A.member 16 16

/-- R283: a FOREIGN entry names a region of this module. -/
def State.entryHere (s : State) (e : Nat) : Bool := !bitAt e 31 || (s.hasNumber && field e 19 12 == s.modNum)

/-- R283: resolve a virtual ID for the clusters of a region; one with REMOTE 1 whose region this module does not have is `absent`
(R287). -/
def State.flagRef (s : State) (r v : Nat) : FlagRef :=
  if v = 0xFFF then .noFlag
  else
    let e := Sparse.get 0 (s.rg r).map v
    let idx := field e 4 9
    let lr := field e 13 6
    match field e 0 2 with
    | 0 => .unmapped
    | 1 => .own idx
    | 2 => .node idx
    | _ =>
      let c := ((s.rg r).owner).getD 0
      if s.entryHere e then
        (if s.logRegion c lr == some r then .node idx
         else if bitAt e 31 && (s.logRegion c lr).isNone then .absent lr idx else .foreign lr idx)
      else .remote (field e 19 12) lr idx

/-! ### Counters (R281, R286) -/

def ctrMax : Nat := 0xFFFFFF

/-- R286: an unsigned addition that stops at the top; the second part tells that it did. -/
def Ctr.add (c : Ctr) (n : Nat) : Ctr × Bool :=
  if c.count + n > ctrMax then (⟨ctrMax, c.matched⟩, true) else (⟨c.count + n, c.matched⟩, false)

def Region.ctr (g : Region) (i : Nat) : Ctr := Sparse.get Ctr.zero g.cnt i
def Cluster.ctr (c : Cluster) (i : Nat) : Ctr := Sparse.get Ctr.zero c.cnt i

/-- An increment of a cluster's own counter in its current beat: it becomes visible exactly 6 beats later (R292). -/
def State.incOwn (s : State) (r k idx inc : Nat) : State :=
  let c := s.cl r k
  let (x, ovf) := (c.ctr idx).add inc
  let s1 := s.setCl r k { c with cnt := Sparse.set Ctr.zero c.cnt idx x }
  let u : Unseen := ⟨k, true, idx, inc, x.count - (c.ctr idx).count, c.elapsed, c.beat + 6⟩
  let s2 := s1.modRg r fun g => { g with unseen := g.unseen ++ [u] }
  s2.bump (A.syncSat r) (if ovf then 1 else 0)

/-- An increment of a region's node counter; each cluster of the region sees it within `bound` of its own elapsed
beats (R292). -/
def State.incNode (s : State) (r idx inc bound : Nat) : State :=
  let g := s.rg r
  let (x, ovf) := (g.ctr idx).add inc
  let us : List Unseen := (List.range 9).map fun k =>
    let e := (s.cl r k).elapsed
    ⟨k, false, idx, inc, x.count - (g.ctr idx).count, e, e + bound⟩
  let s1 := s.setRg r { g with cnt := Sparse.set Ctr.zero g.cnt idx x, unseen := g.unseen ++ us }
  s1.bump (A.syncSat r) (if ovf then 1 else 0)

/-- Whether an entry still hides its increment from its cluster (R292). -/
def Unseen.hides (c : Cluster) (k : Nat) (own : Bool) (idx : Nat) (u : Unseen) : Bool :=
  u.k == k && u.own == own && u.idx == idx && (if own then c.beat < u.due else c.elapsed < u.due)

/-- COUNT as visible to a cluster now (R290, R292). -/
def State.visible (s : State) (r k : Nat) (own : Bool) (idx : Nat) : Nat :=
  let c := s.cl r k
  let g := s.rg r
  let n := if own then (c.ctr idx).count else (g.ctr idx).count
  n - sumNat ((g.unseen.filter fun u => u.hides c k own idx).map Unseen.eff)

/-- Entries that hide nothing any more are dropped. -/
def State.pruneUnseen (s : State) (r k : Nat) : State :=
  let c := s.cl r k
  s.modRg r fun g => { g with unseen := g.unseen.filter fun u => u.k != k || (if u.own then c.beat < u.due else c.elapsed < u.due) }

/-- R290: a satisfied wait raises MATCHED. -/
def State.raiseMatched (s : State) (r k : Nat) (own : Bool) (idx t : Nat) : State :=
  if own then
    s.modCl r k fun c => { c with cnt := Sparse.set Ctr.zero c.cnt idx { c.ctr idx with matched := max (c.ctr idx).matched t } }
  else
    s.modRg r fun g => { g with cnt := Sparse.set Ctr.zero g.cnt idx { g.ctr idx with matched := max (g.ctr idx).matched t } }

/-! ### Requests at the router -/

/-- Put a request at the end of a region's admission queue (R57, R58). -/
def State.addReq (s : State) (r : Nat) (q : Req) : State :=
  s.modRg r fun g =>
    { g with
      waiting := g.waiting ++ [{ q with id := g.nextReq }], nextReq := g.nextReq + 1
      misses := if q.walked then g.misses else g.misses ++ [g.nextReq] }

/-- Elapsed beats of a region's cluster 0: the physical cluster that carries logical number 0 (R61). -/
def State.c0 (s : State) (r : Nat) : Nat :=
  let p := s.physOf r 0
  (s.cl r (if p < 9 then p else 0)).elapsed

def State.newReq (s : State) (r k : Nat) (kind : ReqKind) (cls : Nat) : Req :=
  { id := 0, kind, ctx := ((s.rg r).owner).getD 0, k, cls, pages := [], walked := false, arrive := none, bound := 0, snapW := false
    path := [], moves := [], sent := false }

/-! ### Increments (R286, R287, R289) -/

/-- A FOREIGN increment goes to admission (R289); it needs no translation. -/
def State.newFlagReq (s : State) (r k : Nat) (target : Nat) (remote : Option Nat) (idx inc : Nat) : State :=
  s.addReq r { s.newReq r k (.flag target remote idx inc) 0 with walked := true, arrive := some (s.c0 r) }

/-- Increment a virtual flag from a cluster: unmapped IDs and absent regions are counted drops, FOREIGN increments are
class 0 requests; one to this module by number whose region is absent names region 48, which no context owns (R287, R324). -/
def State.incFlag (s : State) (r k v inc : Nat) : State :=
  match s.flagRef r v with
  | .noFlag => s
  | .unmapped => s.bump (A.unmapped r) 1
  | .own i => s.incOwn r k i inc
  | .node i => s.incNode r i inc 24
  | .foreign lr i =>
    match s.logRegion (((s.rg r).owner).getD 0) lr with
    | some t => s.newFlagReq r k t none i inc
    | none => s.bump (A.foreignDrop r) 1
  | .absent _ i => s.newFlagReq r k 48 none i inc
  | .remote m lr i => s.newFlagReq r k lr (some m) i inc

/-! ### Realignment (R294, R295) -/

/-- R294: how map entries treat a counter: SUBTRACT 0, CLEAR 1, KEEP 2; no entry counts as KEEP. -/
def realignOf (map : Sparse Nat) (scopes : List Nat) (idx : Nat) (lrOk : Nat → Bool) : Nat :=
  match map.find? fun e =>
    e.1 != 0xFFF && field e.2 4 9 == idx
      && (scopes.contains (field e.2 0 2) || (field e.2 0 2 == 3 && scopes.contains 2 && lrOk e.2)) with
  | some e => field e.2 2 2
  | none => 2

/-- R294: one counter at realignment. -/
def Ctr.realign (mode : Nat) (c : Ctr) : Ctr :=
  ⟨if mode = 0 then c.count - c.matched else if mode = 1 then 0 else c.count, 0⟩

/-- Realign the counters of a list. -/
def realignAll (mode : Nat → Nat) (cs : Sparse Ctr) : Sparse Ctr :=
  cs.foldl (fun m e => Sparse.set Ctr.zero m e.1 (e.2.realign (mode e.1))) cs

/-- R294: whether a FOREIGN entry names the region's own node. -/
def State.foreignHere (s : State) (r e : Nat) : Bool :=
  s.entryHere e && s.logRegion (((s.rg r).owner).getD 0) (field e 13 6) == some r

/-- R295: a sync node realigns its counters, in the order of the commands: an increment whose command came before the release
reached the node before it (log 101); SYNC_EPOCH, and SYNC_STEP where the scope asks for it (R372). -/
def State.realignNode (s : State) (r : Nat) (stepToo : Bool) : State :=
  let g := s.rg r
  let mode (i : Nat) : Nat := realignOf g.map [2] i (s.foreignHere r)
  let s1 := s.setRg r { g with
    cnt := realignAll mode g.cnt
    unseen := g.unseen.filter fun u => u.own || mode u.idx != 1 }
  let s2 := s1.setReg (A.epoch r) (BitVec.ofNat 64 ((s1.regN (A.epoch r) + 1) % 2 ^ 32))
  if stepToo then s2.setReg (A.step r) (BitVec.ofNat 64 ((s2.regN (A.step r) + 1) % 2 ^ 32)) else s2

/-- R296: an increment of cluster `k`'s own counters in its current beat. -/
def Unseen.inBeat (u : Unseen) (c : Cluster) (k : Nat) : Bool := u.own && u.k == k && u.due == c.beat + 6

/-- R295: a cluster realigns its counters in the beat in which the release reaches it; a cleared counter keeps the increments of
that beat (R296). -/
def State.realignCluster (s : State) (r k : Nat) : State :=
  let map := (s.rg r).map
  let c := s.cl r k
  let mode (i : Nat) : Nat := realignOf map [1] i (fun _ => false)
  let now := (s.rg r).unseen.filter fun u => u.inBeat c k && mode u.idx == 1
  let cnt := now.foldl (fun m u => Sparse.set Ctr.zero m u.idx ((Sparse.get Ctr.zero m u.idx).add u.inc).1) (realignAll mode c.cnt)
  let s1 := s.setCl r k { c with cnt }
  s1.modRg r fun g => { g with
    unseen := (g.unseen.filter fun u => !(u.own && u.k == k && mode u.idx == 1) || u.inBeat c k).map fun u =>
      if u.inBeat c k && mode u.idx == 1 then { u with eff := u.inc } else u }

end Sys2Proof.Machine
end

