-- ==== Sys2Proof/Machine/MvCmd.lean ====
section
/-!
DEFINITION. Sys2Proof/Machine/MvCmd.lean: the bodies of the mover commands and of DESC_LOAD, their checks at issue
(R112, R113, R149, R275, R276, R328, R361), the reduction tree (R343), and the intents of mover slots (R116, R141, R147).
-/
namespace Sys2Proof.Machine

/-- What a mover command does (R149, R275, R328, R361). -/
inductive MvOp where
  | copy (srcMod dstMod : Option Nat)
  | fill (dstMod : Option Nat) (pattern : Nat)
  | atomic (srcMod dstMod : Option Nat) (aop : Nat) (sgn : Bool)
  | coll (bidx phase level src left out : Nat)
  deriving DecidableEq, Repr

/-- Module number of a global end: `none` for a local address. -/
def globalMod (w : Nat) : Option Nat := if bitAt w 12 then some (field w 0 12) else none

def MvOp.ofCmd (c : Cmd512) : Option MvOp :=
  let sm := globalMod (cb c 16 0 16)
  let dm := globalMod (cb c 18 0 16)
  match Hdr.opcode c with
  | 0x0C0 => some (.copy sm dm)
  | 0x0C1 => some (.fill dm (cb c 24 0 64))
  | 0x0C2 => some (.atomic sm dm (cb c 20 0 3) (cb c 20 3 1 == 1))
  | 0x0C3 => some (.coll (cb c 16 0 8) (cb c 17 0 2) (cb c 18 0 4) (cb c 24 0 52) (cb c 32 0 52) (cb c 40 0 52))
  | _ => none

/-- R245: an end is remote when it names another module than this one. -/
def State.remoteMod (s : State) (m : Option Nat) : Option Nat :=
  match m with
  | some n => if s.hasNumber && n == s.modNum then none else some n
  | none => none

/-! ### The reduction tree (R343) -/

/-- Trailing zero bits of a number above 0. -/
def trailZeros : Nat → Nat → Nat
  | 0, _ => 0
  | f + 1, m => if m % 2 = 0 then 1 + trailZeros f (m / 2) else 0

def tz (m : Nat) : Nat := trailZeros 16 m

/-- Node (a, j) exists. -/
def nodeExists (a j n : Nat) : Bool := a % 2 ^ (j + 1) == 0 && a + 2 ^ j < n

/-- One past the last rank of node (a, j). -/
def nodeEnd (a j n : Nat) : Nat := min (a + 2 ^ (j + 1)) n

/-- top(m): the number of nodes (m, 0) … (m, j) that exist; 0 for a rank that only sends its leaf. -/
def topCount (m n : Nat) : Nat := (List.range 13).countP fun j => nodeExists m j n

/-- Bytes of the layouts of R345 for B blocks: record's offset and the whole size. -/
def roundUp (n k : Nat) : Nat := ceilDiv n k * k
def leafRec (b : Nat) : Nat := roundUp (6 * b) 128
def leafSize (b : Nat) : Nat := leafRec b + 640
def partRec (b : Nat) : Nat := roundUp (34 * b) 128
def partSize (b : Nat) : Nat := partRec b + 640
def stageSpan (b : Nat) : Nat := roundUp (partSize b) 4096

def Bucket.blocks (x : Bucket) : Nat := ceilDiv x.n 32
/-- Bytes of the result's elements. -/
def Bucket.resBytes (x : Bucket) : Nat := if x.resBf then 2 * x.n else 4 * x.n
def Bucket.er (x : Bucket) : Nat := roundUp x.resBytes 128
/-- Offset of the status record in a result layout. -/
def Bucket.statusOff (x : Bucket) : Nat := roundUp (x.er + 2 * x.blocks) 128
def Bucket.resultSize (x : Bucket) : Nat := x.statusOff + 640
/-- Level whose host receives what rank `m` sends. -/
def Bucket.byteColl (x : Bucket) : Bool := x.coll == 2 || x.coll == 3

/-- A bucket of a context (R340: refused entries are not held). -/
def Ctx.bucket (x : Ctx) (i : Nat) : Option Bucket := (x.buckets.find? fun p => p.1 == i).map Prod.snd

/-- R341: the module number of a rank, read through translation; none when it cannot be read (R523). -/
def State.rankMod (s : State) (e : Env) (c : Nat) (b : Bucket) (rank : Nat) : Option Nat :=
  (s.readCtx e c (b.ranktab + 2 * rank) 2).map fun bs => field (bytesToNat bs) 0 12

/-- The ranks whose modules a phase needs: the parent of UP, the children of RECV and DOWN, the parent of RDOWN. -/
def collPeers (phase level me : Nat) : List Nat :=
  match phase with
  | 0 => [me - 2 ^ tz me]
  | 3 => [me - 2 ^ tz me]
  | _ => [me + 2 ^ level]

/-- R356: a RECV with one rank. -/
def collSingle (b : Bucket) (phase level : Nat) : Bool := phase == 1 && b.nranks == 1 && b.myrank == 0 && level == 0

/-- R361: the checks of MVCOLL that need no rank table. -/
def collShape (b : Bucket) (phase level src left out : Nat) : Bool :=
  let me := b.myrank
  (match phase with
   | 0 => me != 0 && level == tz me
   | 1 => nodeExists me level b.nranks || collSingle b phase level
   | 2 => me + 2 ^ level < b.nranks
   | _ => me != 0)
    && src % 128 == 0 && left % 128 == 0 && out % 128 == 0

/-- The ranks of which an MVCOLL reads the modules. -/
def collReads (b : Bucket) (phase level : Nat) : List Nat := if collSingle b phase level then [] else collPeers phase level b.myrank

/-- R361, R523: the checks of MVCOLL; the module numbers it reads when it is accepted. -/
def State.collCheck (s : State) (e : Env) (c : Nat) (bidx phase level src left out : Nat) : Option (List Nat) :=
  match (s.cx c).bucket bidx with
  | none => none
  | some b => if collShape b phase level src left out then (collReads b phase level).mapM fun m => s.rankMod e c b m else none

/-! ### Checks at issue (R106 step 2) -/

/-- R149, R133, R136, R321. -/
def copyOk (src dst : Option Nat) (c : Cmd512) (d0 d1 : Desc) : Bool :=
  Hdr.descUse c == 3 && d0.ok 0 && d1.ok 0 && d0.esize == d1.esize && d0.positions == d1.positions
    && !d0.rstore && !d1.rstore && d1.moverWriteOk && !(src.isSome && dst.isSome)

/-- R275, R276. -/
def fillOk (c : Cmd512) (d1 : Desc) : Bool := Hdr.descUse c == 2 && d1.ok 0 && !d1.rstore && d1.moverWriteOk

/-- R328. -/
def atomicOk (src : Option Nat) (aop : Nat) (c : Cmd512) (d0 d1 : Desc) : Bool :=
  Hdr.descUse c == 3 && d0.ok 0 && d1.ok 0 && d0.esize == d1.esize && d0.positions == d1.positions
    && (d0.esize == 4 || d0.esize == 5) && d0.noPads && d1.noPads && !d0.rstore && !d1.rstore && aop ≤ 5 && src.isNone

/-- Step 2 of R106 for a mover command; what it read at issue when it is accepted. -/
def State.mvCheck (s : State) (e : Env) (r : Nat) (o : MvOp) (c : Cmd512) (d0 d1 : Desc) : Option (List Nat) :=
  match o with
  | .copy sm dm => if copyOk (s.remoteMod sm) (s.remoteMod dm) c d0 d1 then some [] else none
  | .fill _ _ => if fillOk c d1 then some [] else none
  | .atomic sm _ aop _ => if atomicOk (s.remoteMod sm) aop c d0 d1 then some [] else none
  | .coll bidx phase level src left out =>
    if Hdr.descUse c == 0 then s.collCheck e (((s.rg r).owner).getD 0) bidx phase level src left out else none

/-! ### DESC_LOAD (R112, R113) -/

def dlSrc (c : Cmd512) : Nat := cb c 16 7 45 * 128
def dlFirst (c : Cmd512) : Nat := cb c 24 0 8
def dlCount (c : Cmd512) : Nat := cb c 25 0 6
def dlOk (c : Cmd512) : Bool := 1 ≤ dlCount c && dlCount c ≤ 32 && dlFirst c + dlCount c ≤ 256

/-! ### Mover intents (R116, R141, R147) -/

/-- Physical line of this cluster's scratchpad that a context address reaches. -/
def State.ownLine (s : State) (r k c swz va : Nat) : Option Nat :=
  if va < winBase then none
  else
    match s.window c (some r) swz va with
    | .ok a => if spAddr r k 0 ≤ a && a < spAddr r k 0x400000 then some ((a - spAddr r k 0) / 128) else none
    | .error _ => none

/-- Lowest and highest of a list of lines. -/
def lineRange (ls : List Nat) : Option (Nat × Nat) :=
  ls.foldl (fun acc l => match acc with | none => some (l, l) | some (a, b) => some (min a l, max b l)) none

/-- First and last byte addresses of every position that counts (pads only with PADW). -/
def Desc.touched (d : Desc) : List Nat :=
  (d.seq.filter fun p => !p.pad || d.padw).flatMap fun p => [p.addr, (((p.bits + (d.ebits : Int) - 1) / 8) % (2 ^ 52 : Nat)).toNat]

/-- Addresses of the lines of a slot's mask tensor. -/
def Desc.maskLines (d : Desc) : List Nat :=
  if d.maskTensor then (List.range (ceilDiv d.positions 1024)).map fun i => (d.maskBase + 128 * i) % 2 ^ 52 else []

/-- Lines of this cluster's scratchpad that a mover slot's sequence reaches, and those its mask tensor does. -/
def State.slotLines (s : State) (r k c : Nat) (remote : Bool) (d : Desc) : List Nat :=
  (if remote then [] else d.touched).filterMap fun va => s.ownLine r k c d.swz va
def State.slotMaskLines (s : State) (r k c : Nat) (d : Desc) : List Nat := d.maskLines.filterMap fun va => s.ownLine r k c d.swz va

def intentOf (wr : Bool) (ls : List Nat) : List Intent :=
  match lineRange ls with
  | some (a, b) => [⟨wr, a, b⟩]
  | none => []

/-- The intents of one mover slot: a read one with its mask lines, which are part of it; a slot that is only written registers a
read intent for its mask lines alone (R141, R147). -/
def State.slotIntents (s : State) (r k c : Nat) (rd wr remote : Bool) (d : Desc) : List Intent :=
  let ls := s.slotLines r k c remote d
  intentOf false ((if rd then ls else []) ++ s.slotMaskLines r k c d) ++ (if wr then intentOf true ls else [])

/-- The intents a mover command registers at its issue; an atomic's targets are read and written. -/
def State.mvIntents (s : State) (r k : Nat) (o : MvOp) (d0 d1 : Desc) : List Intent :=
  let c := ((s.rg r).owner).getD 0
  match o with
  | .copy sm dm => s.slotIntents r k c true false (s.remoteMod sm).isSome d0 ++ s.slotIntents r k c false true (s.remoteMod dm).isSome d1
  | .fill dm _ => s.slotIntents r k c false true (s.remoteMod dm).isSome d1
  | .atomic sm dm _ _ => s.slotIntents r k c true false (s.remoteMod sm).isSome d0 ++ s.slotIntents r k c true true (s.remoteMod dm).isSome d1
  | .coll _ _ _ _ _ _ => []

end Sys2Proof.Machine
end

