-- ==== Sys2Proof/Machine/Flit.lean ====
section
/-!
DEFINITION. Sys2Proof/Machine/Flit.lean: the link layer (R307 to R310, R312, R319, R493): flits and their CRC, the headers of packets,
the lanes of a port with their credits, the order in which an egress port serves them, what a receiver makes of flit bodies.
-/
namespace Sys2Proof.Machine

/-! ### CRC-64 (R307) -/

/-- One bit through the ECMA-182 polynomial, the highest bit first. -/
def crcShift (c : Nat) : Nat := if 2 ^ 63 ≤ c then ((c * 2) % 2 ^ 64) ^^^ 0x42F0E1EBA9EA3693 else c * 2

def crcByte (c : Nat) (b : Byte) : Nat :=
  crcShift (crcShift (crcShift (crcShift (crcShift (crcShift (crcShift (crcShift (c ^^^ (b.toNat * 2 ^ 56)))))))))

/-- The CRC of further bytes; the match has each byte's value computed before the next byte. -/
def crcFrom (c : Nat) : List Byte → Nat
  | [] => c
  | b :: bs => match crcByte c b with | 0 => crcFrom 0 bs | n + 1 => crcFrom (n + 1) bs

/-- R307: the CRC of a byte string, from 0 (PRESUMED, log 108). -/
def crc64 (bs : List Byte) : Nat := crcFrom 0 bs

/-! ### Flits (R307) -/

def flitHead (f : Flit) : Nat := bytesToNat (f.bytes.take 6)
def flitSeq (f : Flit) : Nat := field (flitHead f) 0 12
def flitAck (f : Flit) : Nat := field (flitHead f) 12 12
def flitType (f : Flit) : Nat := field (flitHead f) 24 2
def flitClass (f : Flit) : Nat := field (flitHead f) 26 2
def flitResp (f : Flit) : Bool := bitAt (flitHead f) 28
def flitVl (f : Flit) : Nat := field (flitHead f) 29 1
def flitStart (f : Flit) : Nat := field (flitHead f) 30 8
def flitBody (f : Flit) : List Byte := (f.bytes.drop 6).take 242

/-- R307, R308: a flit's CRC passes, and it is of a type that R307 gives a meaning (type 3, log 108). -/
def flitIntact (f : Flit) : Bool := bytesToNat (f.bytes.drop 248) == crc64 (f.bytes.take 248) && flitType f != 3

/-- R310: a lane's number among the sixteen. -/
def laneOf (cls : Nat) (resp : Bool) (vl : Nat) : Nat := cls % 4 * 4 + (if resp then 2 else 0) + vl % 2

def flitLane (f : Flit) : Nat := laneOf (flitClass f) (flitResp f) (flitVl f)

/-- The 256 bytes of a flit as it leaves. -/
def OutFlit.bytes (f : OutFlit) : List Byte :=
  let head := f.seq % 4096 + f.ack % 4096 * 0x1000 + f.ftype % 4 * 0x1000000 + f.lane / 4 % 4 * 0x4000000 + f.lane / 2 % 2 * 0x10000000
    + f.lane % 2 * 0x20000000 + f.start % 256 * 0x40000000
  let bs := natToBytes 6 head ++ (f.body ++ List.replicate 242 0#8).take 242
  bs ++ natToBytes 8 (crc64 bs)

/-! ### Packet headers (R312) -/

/-- R313, R366, R417: packets of the response lane. -/
def isResponse (t : Nat) : Bool := t == 2 || t == 4 || t == 6 || t == 9 || t == 0x12 || t == 0x21

def pktLane (x : Pkt) : Nat := laneOf x.cls (isResponse x.ptype) x.vl

def bitOf (b : Bool) : Nat := if b then 1 else 0

/-- The 256 bits of a packet's header; `reserved` holds bits [79:77], [111:109], [167:164] and [255:200], the lowest first. -/
def headerBits (x : Pkt) : Nat :=
  x.ptype + x.dst * 2 ^ 8 + x.src * 2 ^ 20 + x.epoch * 2 ^ 32 + x.job * 2 ^ 48 + x.cls * 2 ^ 64 + x.hops * 2 ^ 66 + x.vl * 2 ^ 71
    + bitOf x.enc * 2 ^ 72 + bitOf x.pmask.isSome * 2 ^ 73 + x.status * 2 ^ 74 + field x.reserved 0 3 * 2 ^ 77 + x.tag * 2 ^ 80
    + x.len * 2 ^ 96 + field x.reserved 3 3 * 2 ^ 109 + x.addr * 2 ^ 112 + field x.reserved 6 4 * 2 ^ 164 + x.aux * 2 ^ 168
    + field x.reserved 10 56 * 2 ^ 200

/-- What a header says, with what follows it. -/
def ofHeader (h : Nat) (data : List Byte) (mask : Nat) : Pkt :=
  { ptype := field h 0 8, dst := field h 8 12, src := field h 20 12, epoch := field h 32 16, job := field h 48 16, cls := field h 64 2
    hops := field h 66 5, vl := field h 71 1, enc := bitAt h 72, pmask := if bitAt h 73 then some mask else none, status := field h 74 3
    tag := field h 80 16, addr := field h 112 52, aux := field h 168 32, len := field h 96 13, data
    reserved := field h 77 3 + field h 109 3 * 8 + field h 164 4 * 64 + field h 200 56 * 1024, ctr := 0, tagOk := true }

/-- R312, R313: data bytes that a header announces: none behind a read request. -/
def headerData (h : Nat) : Nat := if field h 0 8 = 1 then 0 else field h 96 13

/-- R312: bytes of the packet a header begins. -/
def headerSize (h : Nat) : Nat := 32 + headerData h + bitOf (bitAt h 73) * 16 + bitOf (bitAt h 72) * 16

/-- R312, R414, R319: a packet as it travels: header, data, poison mask, tag; `key` is the session's for its direction. One in transit
(no key) carries its data as they came; its tag is not looked at. -/
def pktBytes (key : Option Nat) (x : Pkt) : List Byte :=
  let head := natToBytes 32 (headerBits x)
  let mask := match x.pmask with | some m => natToBytes 16 m | none => []
  if x.enc then
    let aad := natToBytes 32 (headerBits { x with hops := 0 }) ++ mask
    let sealed := (List.range (x.data.length + 16)).map
      (Sys2Proof.Config.gcmByte (key.getD 0) (x.ctr % 2 ^ 64 + x.src % 4096 * 2 ^ 64) aad x.data)
    head ++ (if key.isSome then sealed.take x.data.length else x.data) ++ mask ++ sealed.drop x.data.length
  else head ++ x.data ++ mask

/-! ### Ports -/

def State.link (s : State) (p : Nat) : Link := nth Link.init s.links p

def State.setLink (s : State) (p : Nat) (l : Link) : State := { s with links := (List.range 10).map fun i => if i = p then l else s.link i }

/-- R310, R493: flits a port's receive buffer holds. -/
def bufferFlits (p : Nat) : Nat := if p < 8 then 1024 else 512

def addNth (xs : List Nat) (i n : Nat) : List Nat := setNth (nth 0 xs i + n) xs i

/-- R310: the peer has room in a lane: its own 8 flits, or what the lanes share. -/
def Link.laneRoom (l : Link) (p lane : Nat) : Bool :=
  nth 0 l.unpaid lane < 8 || sumNat (l.unpaid.map fun n => n - 8) < bufferFlits p - 128

/-- R310, R332: a port has credit for a packet of a lane now: nothing of the lane waits, and a flit of it may leave. -/
def Link.laneFree (l : Link) (p lane : Nat) : Bool := l.laneRoom p lane && !l.queue.any fun x => x.lane == lane

/-- A flit leaves under the next SEQ with the ACK of the last one received, and is kept among the last 1,024 (R307, R308). -/
def Link.emit (l : Link) (f : OutFlit) : Link :=
  let kept := l.kept ++ [{ f with seq := l.txSeq, ack := (l.rxSeq + 4095) % 4096 }]
  { l with kept := kept.drop (kept.length - 1024), txSeq := (l.txSeq + 1) % 4096 }

/-! ### What leaves next (R319) -/

/-- The packet of a lane that goes on or comes next: one begun, else one of the side whose turn it is, else the first. -/
def laneHead (q : List EgressPkt) (lane : Nat) (transit : Bool) : Option EgressPkt :=
  let here := q.filter fun x => x.lane == lane
  match here.find? fun x => x.begun with
  | some x => some x
  | none => match here.find? fun x => x.transit == transit with | some x => some x | none => here.head?

/-- Packets of a class that may go on, those of its response lanes first. -/
def Link.ready (l : Link) (p cls : Nat) : List EgressPkt :=
  ([2, 3, 0, 1].filterMap fun j => if l.laneRoom p (4 * cls + j) then laneHead l.queue (4 * cls + j) (nth false l.turn cls) else none)

/-- R319: the class served next: class 0 first, then of the others that can go on the one furthest behind its share. -/
def Link.nextClass (l : Link) (p : Nat) (shares : List Nat) : Option Nat :=
  if !(l.ready p 0).isEmpty then some 0
  else
    ([1, 2, 3].filter fun c => !(l.ready p c).isEmpty).foldl (fun best c =>
      match best with
      | none => some c
      | some b => if nth 0 l.served c * max 1 (nth 0 shares b) < nth 0 l.served b * max 1 (nth 0 shares c) then some c else some b) none

/-- R319: the packet served next; transit and local flits of one class alternate. -/
def Link.next (l : Link) (p : Nat) (shares : List Nat) : Option EgressPkt :=
  match l.nextClass p shares with
  | none => none
  | some c => match (l.ready p c).find? fun x => x.transit == nth false l.turn c with | some x => some x | none => (l.ready p c).head?

/-- Up to `n` bytes of a lane's stream: the bytes, the offset in the body at which a packet first starts, and what stays. -/
def fillBody (lane n : Nat) : List EgressPkt → List Byte × Option Nat × List EgressPkt
  | [] => ([], none, [])
  | x :: xs =>
    if x.lane = lane ∧ n ≠ 0 then
      let k := min n x.bytes.length
      let r := fillBody lane (n - k) xs
      (x.bytes.take k ++ r.1, if x.begun then r.2.1 else some (242 - n),
        if k < x.bytes.length then { x with begun := true, bytes := x.bytes.drop k } :: r.2.2 else r.2.2)
    else
      let r := fillBody lane n xs
      (r.1, r.2.1, x :: r.2.2)

/-- One flit of a lane leaves; `x` is the packet it goes on with. -/
def Link.sendFlit (l : Link) (x : EgressPkt) : Link :=
  let cls := x.lane / 4
  let r := fillBody x.lane 242 (x :: l.queue.erase x)
  let l1 := l.emit { seq := 0, ack := 0, ftype := 0, lane := x.lane, start := r.2.1.getD 255, body := r.1 }
  { l1 with
    queue := r.2.2
    unpaid := addNth l.unpaid x.lane 1
    served := if r.2.2.isEmpty then [0, 0, 0, 0] else addNth l.served cls 1
    turn := setNth (!x.transit) l.turn cls }

/-- A flit's body counts at the port (R337). -/
def State.countFlit (s : State) (p : Nat) (transit : Bool) : State :=
  if p < 8 then (s.bumpUnits (A.txBytes p) 242).bump (A.transitFlits p) (if transit then 1 else 0) else s

/-- Flits leave a port while its peer has room (`n` bounds how many). -/
def State.pump (s : State) (p : Nat) : Nat → State
  | 0 => s
  | n + 1 =>
    match (s.link p).next p s.active.shares with
    | none => s
    | some x => ((s.setLink p ((s.link p).sendFlit x)).countFlit p x.transit).pump p n

def Link.flitsDue (l : Link) : Nat := sumNat (l.queue.map fun x => x.bytes.length / 242 + 1)

def State.pumpPort (s : State) (p : Nat) : State := s.pump p (s.link p).flitsDue

/-- A packet enters an egress port: it waits there for its flits, which leave as far as credits go; one in transit has no key. -/
def State.egressPkt (s : State) (p : Nat) (key : Option Nat) (x : Pkt) : State :=
  let l := s.link p
  (s.setLink p { l with queue := l.queue ++ [⟨pktLane x, key.isNone, false, pktBytes key x⟩] }).pumpPort p

/-! ### Link control and replay (R308, R309, R310) -/

/-- R309: the module sends its own link control flit: number, state, board position, port, and the credits it returns; on a Muolmorn
port only these (R493). -/
def State.sendControl (s : State) (p : Nat) : State :=
  let l := s.link p
  let c : LinkCtl :=
    if p < 8 then ⟨s.fieldN A.member 12 2 == 1, s.fieldN A.member 0 12, s.fieldN A.bpos 0 3, p, l.owed⟩ else ⟨false, 0, 0, 0, l.owed⟩
  let body := Sys2Proof.Config.controlBody ([bitOf c.member, c.modNum, c.bpos, c.port] ++ c.credits)
  (s.setLink p { l.emit { seq := 0, ack := 0, ftype := 2, lane := 0, start := 255, body } with owed := noCredits }).send (.control p c)

/-- R310: credits come back, and flits that waited for them leave. -/
def State.takeCredits (s : State) (p : Nat) (back : List Nat) : State :=
  let l := s.link p
  (s.setLink p { l with unpaid := numberFrom (fun i n => n - nth 0 back i) 0 l.unpaid }).pumpPort p

/-- R308: the kept flits from one on. -/
def Link.since (l : Link) (seq : Nat) : List OutFlit := l.kept.dropWhile fun f => f.seq != seq % 4096

/-! ### Bodies into packets (R307, R310, R312) -/

/-- Packets whole in a stream's bytes, and what is left; a packet type of 0 where a packet would start ends the body (log 109). -/
def cutPackets : Nat → List Byte → List Pkt × List Byte
  | 0, bs => ([], bs)
  | n + 1, bs =>
    if bs.head? = some 0#8 then ([], [])
    else if bs.length < 32 then ([], bs)
    else
      let h := bytesToNat (bs.take 32)
      if bs.length < headerSize h then ([], bs)
      else
        let r := cutPackets n (bs.drop (headerSize h))
        let d := headerData h
        (ofHeader h ((bs.drop 32).take d) (bytesToNat ((bs.drop (32 + d)).take 16)) :: r.1, r.2)

/-- R307: bytes of a flit's body that belong to its lane's stream: all where a packet goes on, else from the first that starts. -/
def streamPart (going : Bool) (f : Flit) : List Byte :=
  if going then flitBody f else if flitStart f < 242 then (flitBody f).drop (flitStart f) else []

/-- R310: a data flit takes its place in its lane's buffer; packets that it completes stand there, with the flits they hold, until
their rows take them. A flit that carries the end of one packet and the start of another is held by the second. -/
def Link.takeBody (l : Link) (f : Flit) : Link :=
  let lane := flitLane f
  let w := nth ⟨[], 0⟩ l.parts lane
  let r := cutPackets 9 (w.bytes ++ streamPart (!w.bytes.isEmpty) f)
  let all := w.flits + 1
  let kept := if r.2.isEmpty then 0 else if r.1.isEmpty then all else 1
  let freed := all - kept
  { l with
    parts := setNth ⟨r.2, kept⟩ l.parts lane
    arrived := l.arrived ++ numberFrom (fun i x => (⟨lane, if i + 1 = r.1.length then freed else 0, x⟩ : InPkt)) 0 r.1
    owed := if r.1.isEmpty then addNth l.owed lane freed else l.owed }

/-- A packet that its row takes leaves its port's buffer, and its flits' credits are owed (R310). -/
def Link.drain (l : Link) (x : Pkt) : Link :=
  match l.arrived.find? fun y => headerBits y.pkt == headerBits x with
  | none => l
  | some y => { l with arrived := l.arrived.erase y, owed := addNth l.owed y.lane y.flits }

/-- The same at the first of some ports that holds it. -/
def State.drainPkt (s : State) (ports : List Nat) (x : Pkt) : State :=
  match ports.find? fun p => (s.link p).arrived.any fun y => headerBits y.pkt == headerBits x with
  | none => s
  | some p => s.setLink p ((s.link p).drain x)

end Sys2Proof.Machine
end

