-- ==== Sys2Proof/Machine/Transfer.lean ====
section
/-!
DEFINITION. Sys2Proof/Machine/Transfer.lean: moving bits between places a context reaches: where a byte lies (R252), reads
with poison (R266, R410), writes, delivery bounds (R59, R152, R272, R273), snapshot waits (R390).
-/
namespace Sys2Proof.Machine

/-! ### Places -/

/-- Where a byte of a context's space lies now: through the router's cache or, on a miss, a walk. -/
def State.locNow (s : State) (r c swz va : Nat) : Loc :=
  if va < winBase then
    match pageOf (s.rg r).cache c va with
    | some p => if s.outOk (p.out + (va - p.va)) then .page p (p.out + (va - p.va)) else .bad 4
    | none =>
      match (s.walk c va).1 with
      | .ok p => .page p (p.out + (va - p.va))
      | .error k => .bad k
  else
    match s.window c (some r) swz va with
    | .ok a => .chip a
    | .error k => .bad k

/-- Where a byte lies through the pages a request has recorded; one that has none of them there is walked (log 27). -/
def State.locVia (s : State) (ps : List Page) (r c swz va : Nat) : Loc :=
  match (if va < winBase then pageOf ps c va else none) with
  | some p => .page p (p.out + (va - p.va))
  | none => s.locNow r c swz va

/-- One byte read: its value, whether it is poisoned, whether its context has no key for it. -/
structure ByteRead where
  val    : Byte
  poison : Bool
  nokey  : Bool
  deriving DecidableEq, Repr

/-- Read a byte where it lies; bytes of the companion, with their poison, come from the environment (R499). -/
def State.readByte (s : State) (e : Env) (l : Loc) : ByteRead :=
  match l with
  | .chip a => ⟨s.mem.read a, false, false⟩
  | .page _ a =>
    if isGran a then
      let g := s.readGran l.via (granOf a)
      ⟨nth 0#8 g.bytes (a % 32), g.poison, g.nokey⟩
    else ⟨winByte e.win a, e.bad.contains (granOf a), false⟩
  | .bad _ => ⟨0#8, true, false⟩

/-- Byte addresses that `n` bits from bit address `b` touch. -/
def byteSpan (b n : Nat) : List Nat := (List.range ((b + n - 1) / 8 + 1 - b / 8)).map fun i => (b / 8 + i) % 2 ^ 52

/-- Bits gathered from bytes. -/
def gatherAt (b n : Nat) (bs : List Byte) : Nat := field (bytesToNat bs) (b % 8) n

/-- `n` bits of value `v` at bit address `b` as byte writes at virtual addresses. -/
def scatterAt (b n v : Nat) (bad : Bool) : List Wr :=
  let w := (v % 2 ^ n) <<< (b % 8)
  let m := (2 ^ n - 1) <<< (b % 8)
  numberFrom (fun i va => ⟨va, BitVec.ofNat 8 (w >>> (8 * i)), BitVec.ofNat 8 (m >>> (8 * i)), bad⟩) 0 (byteSpan b n)

/-! ### Reads with poison (R266, R270, R410) -/

/-- CXL port of an address (R267). -/
def cxlPort (a : Nat) : Nat := (a - cxlBase) / 0x40000000000

/-- Granules of HBM, CXL or the companion window that a list of places lies in. -/
def granulesAt (ls : List Loc) : List (Loc × Nat) :=
  ls.foldl (fun acc l =>
    match l with
    | .page _ a => if !(acc.any fun p => p.2 == granOf a) then acc ++ [(l, granOf a)] else acc
    | _ => acc) []

/-- R266: a read that meets an uncorrectable error sets POISON and counts it at the granule's controller. -/
def State.noteUe (s : State) (g : Nat) : State :=
  if (s.granAt g).poison then s
  else
    let s1 := s.setGran g { s.granAt g with poison := true }
    if isHbm g then
      let k := s.stack g
      (((s1.bump (A.hbmPoisonSet k) 1).bump (A.hbmUe k) 1).setReg (A.hbmErrAddr k) (BitVec.ofNat 64 (g + 2 ^ 63))).tallyUe 1
    else s1

/-- R266, R279: what the controller finds when it reads a granule: an uncorrectable error, or one it corrects. -/
def State.noteGran (s : State) (e : Env) (g : Nat) : State :=
  let s1 := if e.bad.contains g then s.noteUe g else s
  if isHbm g && e.ce.contains g then (s1.bump (A.hbmCe (s1.stack g)) 1).tallyCe 1 else s1

/-- R270: poison that a CXL device returns is counted and passed to the health monitor. -/
def State.noteCxl (s : State) (g : Nat) : State := if isCxl g then (s.bump (A.cxlPoison (cxlPort g)) 1).tallyUe 1 else s

/-- R266, R270, R279, R410: what the reads of a request's granules count, once uncorrectable errors are marked; `r` is the
requesting region, none for a request that arrived from outside. -/
def State.noteReads (s : State) (r : Option Nat) (e : Env) (ls : List Loc) : State :=
  let count (s : State) : State := match r with | some r => s.bump (A.poisonReads r) 1 | none => s
  (granulesAt ls).foldl (fun s p =>
    if isMlm p.2 then (if e.bad.contains p.2 then count s else s) else
    let s1 := s.noteGran e p.2
    let g := s1.readGran p.1.via p.2
    let s2 := s1.bump A.nokeyReads (if g.nokey then 1 else 0)
    if g.poison then (count s2).noteCxl p.2 else s2) s

/-- R266: granules that a write reads first because it does not cover them whole, or an atomic because it reads its target
(`always`): errors met there count as those of a read, and so does poison that a device returns for an atomic. -/
def State.noteTargets (s : State) (always : Bool) (e : Env) (ls : List Loc) : State :=
  let addrs := ls.filterMap fun l => match l with | .page _ a => some a | _ => none
  let reads (g : Nat) : Bool := isGran g && (always || !(List.range 32).all fun i => addrs.contains (g + i))
  ((dedupNat (addrs.map granOf)).filter reads).foldl (fun s g =>
    let s1 := s.noteGran e g
    if always && (s1.granAt g).poison then s1.noteCxl g else s1) s

/-! ### Sessions and packets to the companion (R414 to R416, R419, R494) -/

def State.session (s : State) (peer : Nat) : Option Session := s.sessions.find? fun x => x.peer == peer

def State.setSession (s : State) (x : Session) : State :=
  { s with sessions := s.sessions.map fun y => if y.peer == x.peer then x else y }

def State.dropSession (s : State) (peer : Nat) : State := { s with sessions := s.sessions.filter fun y => y.peer != peer }

/-- A packet leaves on a Muolmorn port, sealed under the session's send counter; the session ends at 2^48 packets. -/
def State.sendMlm (s : State) (m : Nat) (x : Pkt) : State :=
  if !x.enc then (s.egressPkt (8 + m) (some 0) x).send (.mlm m x)
  else
    match s.session (65536 + m) with
    | none => s
    | some y =>
      let z := { x with ctr := y.sent }
      let s1 := (s.egressPkt (8 + m) (some y.sendKey) z).send (.mlm m z)
      if y.sent + 1 = 2 ^ 48 then (s1.dropSession y.peer).setB (A.mlmStatus m) 2 false else s1.setSession { y with sent := y.sent + 1 }

/-- A write to the companion's memory leaves the module as a WR packet (R494, R497). -/
def wrPacket (ptype addr : Nat) (cls : Nat) (enc : Bool) (data : List Byte) (aux : Nat) : Pkt :=
  { ptype, dst := 0, src := 0, epoch := 0, job := 0, cls, hops := 0, vl := 0, enc, pmask := none, status := 0, tag := 0
    addr, aux, len := data.length, data, reserved := 0, ctr := 0, tagOk := true }

/-- Consecutive bytes gathered into runs of at most `n` bytes. -/
def runsOfBytes (n : Nat) : List (Nat × Byte) → List (Nat × List Byte)
  | [] => []
  | (a, b) :: xs =>
    match runsOfBytes n xs with
    | (a', bs) :: rest => if a' = a + 1 ∧ bs.length < n then (a, b :: bs) :: rest else (a, [b]) :: (a', bs) :: rest
    | [] => [(a, [b])]

/-! ### Writes -/

/-- A byte for the companion: poisoned ones leave as zeros under the mask (R312); bits it does not write are free (log 43). -/
def companionByte (p : Loc × Wr) : Byte :=
  let free := BitVec.ofNat 8 (Sys2Proof.Config.packByte p.1.addr p.2.mask.toNat)
  if p.2.bad then 0#8 else if p.2.mask = 0xFF#8 then p.2.val else mergeByte free p.2.val p.2.mask

/-- R312: the poison mask of `n` bytes from an address. -/
def companionMask (ws : List (Loc × Wr)) (a n : Nat) : Option Nat :=
  let m := sumNat ((dedupNat ((ws.filter fun p => p.2.bad && a ≤ p.1.addr && p.1.addr < a + n).map fun p => (p.1.addr - a) / 32)).map fun g => 2 ^ g)
  if m = 0 then none else some m

def Loc.cls : Loc → Nat
  | .page p _ => p.cls
  | _ => 2

/-- Write bytes where they lie, granule by granule; those for the companion leave by its ports (R266, R497, R499). -/
def State.writeLocs (s : State) (ws : List (Loc × Wr)) : State :=
  let at_ (p : Loc × Wr) : Wr := { p.2 with addr := p.1.addr }
  let chip := ws.filter fun p => match p.1 with | .chip _ => true | _ => false
  let gr := ws.filter fun p => match p.1 with | .page _ a => isGran a | _ => false
  let win := ws.filter fun p => match p.1 with | .page _ a => isMlm a | _ => false
  let s1 := chip.foldl (fun s p => s.writeChip (at_ p)) s
  let s2 := (dedupNat (gr.map fun p => granOf p.1.addr)).foldl (fun s g =>
    let here := gr.filter fun p => granOf p.1.addr == g
    let via := match here.getLast? with | some p => p.1.via | none => .plain
    s.writeGran via g (here.map at_)) s1
  let cls := match win with | p :: _ => p.1.cls | [] => 2
  (runsOfBytes 4096 (win.map fun p => (p.1.addr, companionByte p))).foldl (fun s x =>
    s.sendMlm (s.mlmPort x.1) { wrPacket 3 (s.mlmAddr x.1) cls s.dataProt x.2 0 with pmask := companionMask win x.1 x.2.length }) s2

/-! ### Delivery bounds in units of 10 ns (R59, R152, R272, R273) -/

/-- What an end of a request is, for the rows of R272. -/
inductive EndKind where
  | own
  | other (r : Nat)
  | hbm (hops : Nat)
  | cxl (p : Nat)
  | win
  deriving DecidableEq, Repr

/-- Rows of R59 and R272: T0 in 10 ns and rate in GB/s by class. -/
def EndKind.row (e : EndKind) (cls : Nat) : Nat × Nat :=
  match e, cls with
  | .hbm _, 0 => (30, 8) | .hbm _, 1 => (45, 16) | .hbm _, 2 => (55, 32) | .hbm _, _ => (200, 8)
  | .own, 1 => (10, 32) | .own, 2 => (12, 64) | .own, _ => (50, 16)
  | .other _, 1 => (10, 32) | .other _, 2 => (12, 64) | .other _, _ => (50, 16)
  | .cxl _, 1 => (120, 8) | .cxl _, 2 => (140, 16) | .cxl _, _ => (300, 4)
  | .win, 1 => (100, 8) | .win, 2 => (120, 16) | .win, _ => (300, 4)

/-- What an end adds, in 10 ns. -/
def State.endAdds (s : State) (r : Nat) (e : EndKind) : Nat :=
  match e with
  | .hbm h => 25 * h
  | .other q => 15 + 25 * hops (dieOf r) (dieOf q)
  | .cxl p => s.fieldN (A.cxlNs p) 0 16 / 10
  | _ => 0

/-- R59, R152: T0 + s / rate rounded up to 10 ns; narrow and ordered requests move at most 8.8 GB/s. -/
def boundOf (t0 rate size : Nat) (narrow : Bool) : Nat :=
  t0 + (if narrow && rate ≥ 9 then ceilDiv size 88 else ceilDiv size (10 * rate))

/-- R272, R273: the bound of a request of `size` bytes between two ends (`unaligned`: the doubling of R59, which R152 does not
make). -/
def State.bound (s : State) (r cls size : Nat) (a b : EndKind) (unaligned narrow : Bool) : Nat :=
  let sz := if unaligned && !narrow then 2 * size else size
  match a, b with
  | .own, e | e, .own => boundOf ((e.row cls).1) ((e.row cls).2) sz narrow + s.endAdds r e
  | _, _ => boundOf (max (a.row cls).1 (b.row cls).1) (min (a.row cls).2 (b.row cls).2) sz narrow + s.endAdds r a + s.endAdds r b

/-- The kind of an end from the places it touches: the issuing region's own memory, another region's, HBM with the
largest hop count (R262), a CXL port, the window. -/
def State.endKind (s : State) (r : Nat) (ls : List Loc) : EndKind :=
  match ls with
  | [] => .own
  | .chip a :: _ => let q := (a - physWin) / 0x4000000; if q = r then .own else .other q
  | .page _ a :: _ =>
    if isHbm a then
      .hbm (ls.foldl (fun m l => match l with | .page _ a => max m (hops (dieOf r) (s.stack a / 5)) | _ => m) 0)
    else if isCxl a then .cxl (cxlPort a)
    else .win
  | .bad _ :: _ => .own

/-- R59: an end in a scratchpad or region buffer whose range does not start and end on a line boundary. -/
def chipUnaligned (vas : List Nat) : Bool :=
  match vas with
  | [] => false
  | v :: vs =>
    let lo := vs.foldl min v
    let hi := vs.foldl max v
    lo % 128 != 0 || (hi + 1) % 128 != 0

/-! ### Snapshot parts (R389, R390) -/

/-- Local address `a` lies in a part of context `c`'s snapshot that is pending. -/
def State.snapPending (s : State) (c a : Nat) : Bool :=
  (s.cx c).snap.pend.any fun x => match x.2 with | some b => b / 0x200000 == a / 0x200000 | none => false

/-- R390: some pending part of a context holds an address written through a leaf with SNAP 1. -/
def State.pendingPart (s : State) (l : Loc) : Bool :=
  match l with
  | .page p a => p.snap && s.snapPending p.ctx a
  | _ => false

end Sys2Proof.Machine
end

