-- ==== Sys2Proof/Machine/Credit.lean ====
section
/-!
DEFINITION. Sys2Proof/Machine/Credit.lean: the resources on a request's path and their credits (R57, R58, R522), and the order in
which an admitting point takes what it may accept.
-/
namespace Sys2Proof.Machine

/-! ### Resources (R57): HBM controllers 0 to 19, ring links 20 to 23, plinth links 24 to 27, ports C0 to C3 28 to 31, M0 and M1 32
and 33, E0 to E7 34 to 41 -/

def resRing (j : Nat) : Nat := 20 + j % 4
def resPlinth (d : Nat) : Nat := 24 + d
def resCxl (p : Nat) : Nat := 28 + p
def resMlm (m : Nat) : Nat := 32 + m
def resEkb (p : Nat) : Nat := 34 + p

/-- R262: the ring links between two dies, link `j` lying between dies `j` and `j + 1`; two hops go by ascending die numbers (DESIGN
CHOICE, log 46). -/
def ringPath (a b : Nat) : List Nat :=
  match (b + 4 - a) % 4 with
  | 0 => []
  | 1 => [resRing a]
  | 2 => [resRing a, resRing (a + 1)]
  | _ => [resRing b]

/-- What a place adds to the path of a request of a region on die `d`. -/
def State.placePath (s : State) (d : Nat) (l : Loc) : List Nat :=
  match l with
  | .chip a => ringPath d (dieOf ((a - physWin) / 0x4000000))
  | .page _ a =>
    if isHbm a then s.stack a :: ringPath d (s.stack a / 5)
    else if isCxl a then [resPlinth d, resCxl (cxlPort a)]
    else [resPlinth d, resMlm (s.mlmPort a)]
  | .bad _ => []

/-- What a place adds to the path of a request that enters at the plinth die. -/
def State.plinthPath (s : State) (l : Loc) : List Nat :=
  match l with
  | .chip a => [resPlinth (dieOf ((a - physWin) / 0x4000000))]
  | .page _ a =>
    if isHbm a then [s.stack a, resPlinth (s.stack a / 5)]
    else if isCxl a then [resCxl (cxlPort a)]
    else [resMlm (s.mlmPort a)]
  | .bad _ => []

/-- R458: the stack that holds a place recalibrates: its controller serves no request. -/
def State.recalHeld (s : State) (l : Loc) : Bool :=
  match l with
  | .page _ a => isHbm a && s.bit (A.hbmStatus (s.stack a)) 1
  | _ => false

/-! ### Credits (R57, R58) -/

/-- Credits of a resource. -/
def creditCap (i : Nat) : Nat := Sys2Proof.Config.creditCap i + 1

/-- Classes and paths of everything that holds credits: accepted requests, and packets accepted at the ingress. -/
def State.holders (s : State) : List (Nat × List Nat) :=
  (s.regions.flatMap fun g => g.2.accepted.map fun q => (q.cls, q.path))
    ++ s.heldPkts.filterMap fun h => h.locs.map fun _ => (h.pkt.cls, h.path)

/-- Credits of a resource that a class holds. -/
def State.usedBy (s : State) (i cls : Nat) : Nat := s.holders.countP fun h => h.1 == cls && h.2.contains i

def State.share (s : State) (cls : Nat) : Nat := nth 0 s.active.shares cls

/-- R58: a class is below its reserved share of a resource. -/
def State.belowShare (s : State) (cls i : Nat) : Bool := s.usedBy i cls * 64 < creditCap i * s.share cls

/-- R58: the unreserved share of a resource has a credit to lend. -/
def State.spareShare (s : State) (i : Nat) : Bool :=
  sumNat ((List.range 4).map fun c => s.usedBy i c * 64 - creditCap i * s.share c) < creditCap i * (64 - sumNat s.active.shares)

/-- R57, R58: a resource has a credit for a class. -/
def State.creditOk (s : State) (cls i : Nat) : Bool :=
  sumNat ((List.range 4).map fun c => s.usedBy i c) < creditCap i && (s.belowShare cls i || s.spareShare i)

/-- R57: credits for a whole path at once. -/
def State.pathOk (s : State) (cls : Nat) (path : List Nat) : Bool := path.all (s.creditOk cls)

/-- R522: the place of a request in the order in which an admitting point takes those it may accept: first the classes below their
reserved share on every resource, 0, 1, 2, 3; then those served from the unreserved share, 1, 2, 3, 0. -/
def State.creditRank (s : State) (cls : Nat) (path : List Nat) : Nat :=
  if path.all (s.belowShare cls) then cls else if cls = 0 then 7 else 3 + cls

end Sys2Proof.Machine
end

