-- ==== Sys2Proof/Machine/Matrix.lean ====
section
/-!
DEFINITION. Sys2Proof/Machine/Matrix.lean: the matrix array (06_matrix_arrays.md, R161 to R178): the MQ body, its
checks, its timing and streams, and the value of every output element.
-/
namespace Sys2Proof.Machine

/-- The six MQ operations (R161). -/
inductive MqOp where
  | mma | distL1 | distL2 | minplus | maxplus | cmpcount
  deriving DecidableEq, Repr

def MqOp.ofOpcode (o : Nat) : Option MqOp :=
  match o with
  | 0x040 => some .mma | 0x041 => some .distL1 | 0x042 => some .distL2
  | 0x043 => some .minplus | 0x044 => some .maxplus | 0x045 => some .cmpcount
  | _ => none

/-- Stationarity modes (R162). -/
inductive Stat where
  | ws | os | is
  deriving DecidableEq, Repr

/-- The MQ body (R162). -/
structure MqBody where
  op     : MqOp
  mode   : Nat
  accum  : Bool
  pass   : Bool
  fmtA   : Fmt
  fmtB   : Fmt
  fmtC   : Fmt
  rnd    : Nat
  sat    : Bool
  m      : Nat
  n      : Nat
  k      : Nat
  passV  : Nat
  deriving DecidableEq, Repr

def MqBody.ofCmd (op : MqOp) (c : Cmd512) : MqBody :=
  { op, mode := cb c 16 0 2, accum := cb c 16 2 1 == 1, pass := cb c 16 3 1 == 1
    fmtA := Fmt.ofCode (cb c 17 0 4), fmtB := Fmt.ofCode (cb c 17 4 4), fmtC := Fmt.ofCode (cb c 18 0 4)
    rnd := cb c 18 4 3, sat := cb c 18 7 1 == 1
    m := cb c 20 0 16, n := cb c 22 0 16, k := cb c 24 0 24, passV := cb c 28 0 32 }

/-- Rate class of an input format (R163): p terms per cell-step, f beats per cell-step. -/
def rateClass : Fmt → Option (Nat × Nat)
  | .bf16 | .fp16 => some (1, 1)
  | .e4m3 | .e5m2 | .mxE4m3 | .mxE5m2 | .int8 | .uint8 => some (2, 1)
  | .mxE3m2 | .mxE2m3 => some (2, 1)
  | .mxE2m1 | .int4 => some (4, 1)
  | .fp32 => some (1, 4)
  | _ => none

/-- Row of the R163 table, which pairs formats. -/
def rateRow : Fmt → Nat
  | .bf16 | .fp16 => 1
  | .e4m3 | .e5m2 | .mxE4m3 | .mxE5m2 | .int8 | .uint8 => 2
  | .mxE3m2 | .mxE2m3 => 3
  | .mxE2m1 | .int4 => 4
  | .fp32 => 5
  | _ => 0

/-- Format groups of the other operations (R164). -/
def pairGroup : Fmt → Nat
  | .bf16 | .fp16 => 1
  | .e4m3 | .e5m2 => 2
  | .fp32 => 3
  | .int8 | .uint8 => 4
  | .int4 => 5
  | _ => 0

def floatOut (f : Fmt) : Bool := f == .fp32 || f == .bf16 || f == .fp16
def intOut (f : Fmt) : Bool := f == .int32 || f == .int16 || f == .int8

/-- R164: the formats of a command pair. -/
def MqBody.formatsOk (b : MqBody) : Bool :=
  match b.op with
  | .mma =>
    rateRow b.fmtA != 0 && rateRow b.fmtA == rateRow b.fmtB && b.fmtA.isInt == b.fmtB.isInt && b.fmtA.isMx == b.fmtB.isMx
      && (if b.fmtA.isInt then intOut b.fmtC else floatOut b.fmtC || b.fmtC == .e4m3 || b.fmtC == .e5m2)
  | .cmpcount => pairGroup b.fmtA != 0 && pairGroup b.fmtA == pairGroup b.fmtB && intOut b.fmtC
  | _ => pairGroup b.fmtA != 0 && pairGroup b.fmtA ≤ 3 && pairGroup b.fmtA == pairGroup b.fmtB && floatOut b.fmtC

def MqBody.p (b : MqBody) : Nat := ((rateClass b.fmtA).getD (1, 1)).1
def MqBody.f (b : MqBody) : Nat := ((rateClass b.fmtA).getD (1, 1)).2
/-- Chunk length κ (R163). -/
def MqBody.kappa (b : MqBody) : Nat := 64 * b.p
def MqBody.kc (b : MqBody) : Nat := ceilDiv b.k b.kappa

def MqBody.stat (b : MqBody) : Stat := if b.mode = 0 then .ws else if b.mode = 1 then .os else .is

/-- R166: ranges of M, N and K. -/
def MqBody.shapeOk (b : MqBody) : Bool :=
  b.m ≥ 1 && b.n ≥ 1 && b.k ≥ 1 &&
  match b.stat with
  | .ws => b.m ≤ 512 && b.n ≤ 64 && b.kc ≤ 256
  | .os => b.m ≤ 64 && b.n ≤ 64
  | .is => b.m ≤ 64 && b.n ≤ 512 && b.kc ≤ 256

/-- The dimension that occupies array columns (R166). -/
def MqBody.cols (b : MqBody) : Nat := match b.stat with | .is => b.m | _ => b.n

/-- R167: the checks of an MQ command on its three slots and their scale entries. -/
def MqBody.ok (b : MqBody) (c : Cmd512) (d0 d1 d2 s0 s1 s2 : Desc) : Bool :=
  Hdr.descUse c == 7 && b.mode != 3 && b.rnd ≤ 3 && b.formatsOk && b.shapeOk
    && slotOk d0 s0 b.fmtA false false && slotOk d1 s1 b.fmtB false false && slotOk d2 s2 b.fmtC false false
    && d0.positions == b.m * b.kc * b.kappa && d1.positions == b.n * b.kc * b.kappa
    && d2.positions == b.m * b.n

/-- Fill F and drain D (R168). -/
def MqBody.fill (b : MqBody) : Nat := match b.stat with | .os => 128 | _ => 64
def MqBody.drain (b : MqBody) : Nat := match b.stat with | .os => 68 | _ => 132
/-- Compute stream Sc (R168). -/
def MqBody.sc (b : MqBody) : Nat :=
  match b.stat with
  | .ws => b.kc * max (b.m * b.f) 64
  | .os => b.kc * 64 * b.f
  | .is => b.kc * max (b.n * b.f) 64

/-- R169: widths of the slots. -/
def mqWidth (d : Desc) : Nat := if d.scaleUse then 2 else 1

/-- What R168 to R170 give for a command: stream length, done point, and its streams. -/
structure MqPlan where
  s       : Nat
  latency : Nat
  streams : List Stream
  deriving DecidableEq, Repr

/-- R168, R169: the streams of a command: A, B, then C read when ACCUM is 1, then C written. -/
def MqBody.plan (b : MqBody) (d0 d1 d2 s0 s1 : Desc) : MqPlan :=
  let a := mkStream 0 false d0 (scaleOf d0 s0) b.fmtA false (mqWidth d0) 0
  let bb := mkStream 1 false d1 (scaleOf d1 s1) b.fmtB false (mqWidth d1) 0
  let cr := mkStream 2 false d2 none b.fmtC false 2 (match b.stat with | .os => 0 | _ => b.fill)
  let cw := mkStream 2 true d2 none b.fmtC false 2 0
  let g2 := cw.cost + if b.accum then cr.cost else 0
  let s := max b.sc (max a.cost (max bb.cost g2))
  let lat := b.fill + s + b.drain
  { s, latency := lat
    streams := [a, bb] ++ (if b.accum then [cr] else []) ++ [{ cw with off := lat - cw.cost }] }

/-! ### Values (R171, R172, R174, R175) -/

/-- Exact term value of one k for the floating-point operations. -/
def MqOp.term (op : MqOp) (a b : FV) : Res :=
  match op with
  | .mma => mulV a b
  | .distL1 => let r := addV .rne a b.neg; ⟨r.v.abs, r.fl⟩
  | .distL2 =>
    let r := addV .rne a b.neg
    let q := mulV r.v r.v
    ⟨q.v, r.fl ||| q.fl⟩
  | .minplus | .maxplus => (addV .rne a b).round .fp32 .rne
  | .cmpcount =>
    if a.isNan || b.isNan then ⟨FV.zero false, sigFl a ||| sigFl b⟩
    else ⟨if cmpV a b = 1 then FV.one else FV.zero false, Flag.none⟩

/-- Combination inside one term(j, r), before it joins a partial result. -/
def MqOp.inner (op : MqOp) (x y : FV) : Res :=
  match op with
  | .minplus => minV x y
  | .maxplus => maxV x y
  | _ => addV .rne x y

/-- R171: combine(x, y) for floating-point accumulation. -/
def MqOp.combine (op : MqOp) (x : Option FV) (y : FV) : Res :=
  match x with
  | none => roundTo .fp32 .rne y
  | some x =>
    match op with
    | .minplus => minV x y
    | .maxplus => maxV x y
    | _ => (addV .rne x y).round .fp32 .rne

/-- A partial result with the status bits raised so far. -/
structure Part where
  v  : Option FV
  fl : Fl
  deriving DecidableEq, Repr

/-- term(j, r) out of the included values of k. -/
def MqOp.termOf (op : MqOp) : List (FV × FV) → Part
  | [] => ⟨none, Flag.none⟩
  | (a, b) :: ps =>
    ps.foldl (fun (acc : Part) q =>
      let t := op.term q.1 q.2
      match acc.v with
      | none => ⟨some t.v, acc.fl ||| t.fl⟩
      | some x => let r := op.inner x t.v; ⟨some r.v, acc.fl ||| t.fl ||| r.fl⟩)
      (let t := op.term a b; ⟨some t.v, t.fl⟩)

def MqOp.join (op : MqOp) (acc t : Part) : Part :=
  match t.v with
  | none => ⟨acc.v, acc.fl ||| t.fl⟩
  | some y => let r := op.combine acc.v y; ⟨some r.v, acc.fl ||| t.fl ||| r.fl⟩

/-- Addition modulo 2^32 with OVERFLOW when it wraps (R83). -/
def int32Add (x y : Int) : Int × Fl :=
  let z := x + y
  if z < -(2 ^ 31 : Nat) ∨ z ≥ (2 ^ 31 : Nat) then (signed 32 (toBits 32 z), Flag.overflow) else (z, Flag.none)

structure IPart where
  v  : Option Int
  fl : Fl
  deriving DecidableEq, Repr

/-- Integer term(j, r): exact sum of products, or the count of CMPCOUNT. -/
def MqOp.iterm (op : MqOp) : List (FV × FV) → IPart
  | [] => ⟨none, Flag.none⟩
  | ps =>
    ps.foldl (fun (acc : IPart) q =>
      let z := match op with
        | .mma => q.1.toInt * q.2.toInt
        | _ => (op.term q.1 q.2).v.toInt
      let fl := match op with | .mma => Flag.none | _ => (op.term q.1 q.2).fl
      ⟨some ((acc.v.getD 0) + z), acc.fl ||| fl⟩) ⟨none, Flag.none⟩

def ijoin (acc t : IPart) : IPart :=
  match acc.v, t.v with
  | _, none => ⟨acc.v, acc.fl ||| t.fl⟩
  | none, some y => let (z, f) := int32Add 0 y; ⟨some z, acc.fl ||| t.fl ||| f⟩
  | some x, some y => let (z, f) := int32Add x y; ⟨some z, acc.fl ||| t.fl ||| f⟩

/-- Whether the accumulation is integer. -/
def MqBody.isInt (b : MqBody) : Bool := b.op == .cmpcount || b.fmtA.isInt

/-- Identity of the operation (R161). -/
def MqOp.identity : MqOp → FV
  | .minplus => .inf false
  | .maxplus => .inf true
  | _ => FV.zero false

/-- One output element: its encoded value and status bits. -/
structure ElemOut where
  bits  : Nat
  fl    : Fl
  gated : Nat
  deriving DecidableEq, Repr

/-- A value is a zero that gating sees (R176). -/
def zeroOperand (x : FV) : Bool := x.isZero

/-- Included values of row r of chunk j (R171, R174). -/
def MqBody.rowVals (b : MqBody) (av bv : Array (Option FV)) (m n j r : Nat) : List (FV × FV) :=
  (List.range b.p).filterMap fun i =>
    let kk := b.kappa * j + b.p * r + i
    if kk ≥ b.k then none
    else
      let ia := (b.p * r + i) + b.kappa * (m + b.m * j)
      let ib := (b.p * r + i) + b.kappa * (n + b.n * j)
      match av.getD ia none, bv.getD ib none with
      | some x, some y => some (x, y)
      | _, _ => none

/-- R171 for floating-point accumulation. -/
def MqBody.accFloat (b : MqBody) (av bv : Array (Option FV)) (m n : Nat) (c0 : Option FV) : Part :=
  let start : Part := ⟨c0, Flag.none⟩
  (List.range b.kc).foldl (fun acc j =>
    match b.stat with
    | .os => (List.range 64).foldl (fun a r => b.op.join a (b.op.termOf (b.rowVals av bv m n j r))) acc
    | _ =>
      let s := (List.range 64).foldl (fun a r => b.op.join a (b.op.termOf (b.rowVals av bv m n j r))) ⟨none, Flag.none⟩
      b.op.join acc s) start

/-- R171 for integer accumulation. -/
def MqBody.accInt (b : MqBody) (av bv : Array (Option FV)) (m n : Nat) (c0 : Option Int) : IPart :=
  let start : IPart := ⟨c0, Flag.none⟩
  (List.range b.kc).foldl (fun acc j =>
    match b.stat with
    | .os => (List.range 64).foldl (fun a r => ijoin a (b.op.iterm (b.rowVals av bv m n j r))) acc
    | _ =>
      let s := (List.range 64).foldl (fun a r => ijoin a (b.op.iterm (b.rowVals av bv m n j r))) ⟨none, Flag.none⟩
      ijoin acc s) start

/-- Terms of one output element that zero gating gates (R176). -/
def MqBody.gatedTerms (b : MqBody) (av bv : Array (Option FV)) (m n : Nat) : Nat :=
  if b.op == .mma then
    sumNat ((List.range b.kc).flatMap fun j => (List.range 64).map fun r =>
      ((b.rowVals av bv m n j r).filter fun q => zeroOperand q.1 || zeroOperand q.2).length)
  else 0

/-- R171: one active output element. -/
def MqBody.element (b : MqBody) (av bv : Array (Option FV)) (m n : Nat) (c0 : Option FV) : ElemOut :=
  let c : RndCtx := ⟨(Rnd.ofCode b.rnd).getD .rne, 0, b.sat⟩
  let g := b.gatedTerms av bv m n
  if b.isInt then
    let r := b.accInt av bv m n (c0.map FV.toInt)
    let t := roundTo b.fmtC c (FV.ofInt (r.v.getD 0))
    ⟨encodeFmt b.fmtC t.v, r.fl ||| t.fl, g⟩
  else
    let r := b.accFloat av bv m n c0
    let t := roundTo b.fmtC c (r.v.getD b.op.identity)
    ⟨encodeFmt b.fmtC t.v, r.fl ||| t.fl, g⟩

/-- Row and column of C's ordinal `k` (R165). -/
def MqBody.coord (b : MqBody) (k : Nat) : Nat × Nat :=
  match b.stat with
  | .is => (k % b.m, k / b.m)
  | _ => (k / b.n, k % b.n)

/-- What a whole command writes, its status bits and its gated terms. -/
structure MqOut where
  outs  : List (Option Nat)
  fl    : Fl
  gated : Nat
  deriving DecidableEq, Repr

/-- Lanes of A or B as included values: `none` where inactive (R174). -/
def inputVals (s : Stream) (l : Latch) : Array (Option FV) :=
  ((s.lanes l).map fun x => if x.active then some (s.value x) else none).toArray

/-- R171 to R175: outputs of a command from what its streams latched. -/
def MqBody.run (b : MqBody) (p : MqPlan) (ls : List Latch) : MqOut :=
  match p.streams with
  | a :: bb :: rest =>
    let av := inputVals a (nth [] ls 0)
    let bv := inputVals bb (nth [] ls 1)
    let cs : Array FV := match rest with
      | cr :: _ :: _ => ((cr.lanes (nth [] ls 2)).map fun (x : Lane) => cr.value x).toArray
      | _ => #[]
    match rest.getLast? with
    | none => ⟨[], Flag.none, 0⟩
    | some cw =>
      let al := cw.latched (nth [] ls (p.streams.length - 1))
      let es := cw.d.seqRuns.map fun (_, pos) =>
        let act := activeOf cw.d al pos
        let e : Option ElemOut :=
          if act && !pos.pad then
            let (m, n) := b.coord pos.k
            let c0 := if b.accum then some (cs.getD pos.k (FV.zero false)) else none
            some (b.element av bv m n c0)
          else none
        (posWrite cw.d (if b.pass then some b.passV else none) act pos (e.map ElemOut.bits), e)
      { outs := es.map Prod.fst
        fl := es.foldl (fun f e => match e.2 with | some x => f ||| x.fl | none => f) Flag.none
        gated := sumNat (es.map fun e => match e.2 with | some x => x.gated | none => 0) }
  | _ => ⟨[], Flag.none, 0⟩

end Sys2Proof.Machine
end

