-- ==== Sys2Proof/Machine/Chain.lean ====
section
/-!
DEFINITION. Sys2Proof/Machine/Chain.lean: the vector engines' stage chain (R181 to R191), the timing of a chain command
(R192 to R195), output conversion with block encoding (R183, R191), and VMAP, VCVT, VSFU and VCHISEL.
-/
namespace Sys2Proof.Machine

/-- The chain command body (R184). -/
structure ChainBody where
  map    : List Nat
  rawMap : List Nat
  steps  : List Nat
  fmt0   : Fmt
  fmt1   : Fmt
  fmtOut : Fmt
  rnd    : Nat
  sat    : Bool
  work   : Nat
  pass   : Nat
  k      : List Nat
  deriving DecidableEq, Repr

def ChainBody.ofCmd (c : Cmd512) : ChainBody :=
  let es := (List.range 8).map fun i => cb c 16 (4 * i) 4
  let work := cb c 22 0 2
  { map := es.takeWhile (· != 15), rawMap := es
    steps := (List.range 8).map fun i => cb c (24 + 3 * i) 0 24
    fmt0 := Fmt.ofCode (cb c 20 0 4), fmt1 := Fmt.ofCode (cb c 20 4 4), fmtOut := Fmt.ofCode (cb c 21 0 4)
    rnd := cb c 21 4 3, sat := cb c 21 7 1 == 1, work, pass := cb c 22 2 2
    k := if work = 3 then [cb c 48 0 64, cb c 56 0 64] else (List.range 4).map fun i => cb c (48 + 4 * i) 0 32 }

/-- Fields of a STEP (R186). -/
def stepOp (w : Nat) : Nat := field w 0 5
def stepSA (w : Nat) : Nat := field w 5 4
def stepSB (w : Nat) : Nat := field w 9 4
def stepSC (w : Nat) : Nat := field w 13 4
def stepDST (w : Nat) : Nat := field w 17 2
def stepNA (w : Nat) : Bool := bitAt w 19
def stepNC (w : Nat) : Bool := bitAt w 20
def stepABSA (w : Nat) : Bool := bitAt w 21

/-- Working format of one element (R182). -/
def workFmt (work : Nat) : Fmt := match work with | 0 => .fp32 | 1 => .bf16 | 2 => .int32 | _ => .fp64

/-- Stages a WORK allows (R182): 0 to 3 F, 4 C, 5 L, 6 T, 7 S. -/
def stageAllowed (work st : Nat) : Bool :=
  match work with
  | 0 | 1 => st ≤ 7
  | 2 => st ≤ 5 || st == 7
  | _ => st ≤ 4

/-- R187: a source code the command may name. -/
def sourceOk (work s : Nat) : Bool := s ≤ 13 && !(work == 3 && (s == 8 || s == 9))

/-- R188: the operations of a stage. -/
def stageOpOk (st op : Nat) : Bool :=
  match st with
  | 0 | 1 | 2 | 3 => op ≤ 3
  | 4 => op ≤ 10
  | 5 => op ≤ 14
  | 7 => op ≤ 2
  | _ => true

/-- R218: the STEP field of stage T for a built-in function. DESIGN CHOICE (log 93): the rule says that SB[3:1] and SC must
be 0 and names no consequence; a command that sets one is skipped under step 2 of R106, as for the codes it does not accept. -/
def stepTOk (w : Nat) : Bool :=
  stepOp w ≤ 15 && stepSB w / 2 == 0 && stepSC w == 0 && (stepSB w % 2 == 0 || sfuCompatOk (stepOp w))

/-- How stage T is read: a built-in function, a chisel slot, or (VSCAN and VSTAT) S is control. -/
inductive ChainKind where
  | map | chisel | scan
  deriving DecidableEq, Repr

/-- R185 to R188, R218, R240: the map and the steps of a chain command. -/
def ChainBody.stepsOk (b : ChainBody) (kind : ChainKind) : Bool :=
  b.map.all fun st =>
    let w := nth 0 b.steps st
    stageAllowed b.work st &&
    (if st = 6 then
      sourceOk b.work (stepSA w) && (match kind with | .chisel => stepSB w == 0 && stepSC w == 0 | _ => stepTOk w)
    else if st = 7 ∧ kind = .scan then true
    else sourceOk b.work (stepSA w) && sourceOk b.work (stepSB w) && sourceOk b.work (stepSC w)
      && stageOpOk st (stepOp w))

/-- R185: codes, no repeats, nothing after the first empty entry. -/
def ChainBody.mapOk (b : ChainBody) : Bool :=
  b.rawMap.all (fun e => e ≤ 7 || e == 15)
    && (b.rawMap.drop b.map.length).all (· == 15)
    && dedupNat b.map == b.map

def ChainBody.p (b : ChainBody) : Nat := b.map.length

/-- Weight of stage T of this command: 0 without T (R182, R216). -/
def ChainBody.tWeight (b : ChainBody) (prog : Option ChiselProg) : Nat :=
  if b.map.contains 6 then
    match prog with
    | some p => p.weight
    | none => if stepSB (nth 0 b.steps 6) % 2 = 1 then 2 else 1
  else 0

/-- The power of two at or above a weight from 1 to 64 (R182). -/
def pow2Up (v : Nat) : Nat := if v ≤ 1 then 1 else 2 ^ bitLen (v - 1)

/-- E of a chain command whose elements need SFU evaluations of total weight `v` (R182). -/
def chainE (work v : Nat) : Nat :=
  if v > 0 then 64 / pow2Up v
  else match work with | 0 => 128 | 1 => 256 | 2 => 128 | _ => 16

/-- R192: accesses per beat of a slot. -/
def slotWidth (e : Nat) (d : Desc) : Nat := max 1 (ceilDiv (e * d.ebits) 1024) + if d.scaleUse then 1 else 0

/-! ### One element through the chain -/

/-- A lane's element: activity, inputs in the working format, its slot 0 indices, registers, status bits. -/
structure El where
  k   : Nat
  act : Bool
  in0 : Nat
  in1 : Nat
  i0  : Int
  i1  : Int
  t   : List Nat
  fl  : Fl
  deriving DecidableEq, Repr

/-- Constant K_i in the working format of one element. -/
def ChainBody.kRaw (b : ChainBody) (i : Nat) : Nat :=
  if b.work = 1 then encodeFmt .bf16 (roundTo .bf16 .rne (decodeFmt .fp32 (nth 0 b.k i))).v else nth 0 b.k i

/-- R187: a source of an element as bits of the working format. -/
def ChainBody.src (b : ChainBody) (e : El) (s : Nat) : Nat :=
  let wf := workFmt b.work
  match s with
  | 0 => e.in0
  | 1 => e.in1
  | 2 | 3 | 4 | 5 => nth 0 e.t (s - 2)
  | 6 | 7 | 8 | 9 => b.kRaw (s - 6)
  | 10 => 0
  | 11 => encodeFmt wf FV.one
  | 12 => encodeFmt wf (roundTo wf .rne (FV.ofInt e.i0)).v
  | _ => encodeFmt wf (roundTo wf .rne (FV.ofInt e.i1)).v

def El.put (e : El) (d v : Nat) (fl : Fl) : El := { e with t := setNth v e.t d, fl := e.fl ||| fl }

/-- A value with ABSA, then the negation bit, applied: exact, wrapping in INT32 work (R186). -/
def modSign (wf : Fmt) (ab ng : Bool) (raw : Nat) : FV :=
  let x := decodeFmt wf raw
  if wf.isInt then
    let z := if ab then (x.toInt.natAbs : Int) else x.toInt
    let z := if ng then -z else z
    FV.ofInt (signed 32 (toBits 32 z))
  else
    let x := if ab then x.abs else x
    if ng then x.neg else x

/-- Round a step's exact result once to the working format; INT32 work wraps (R183, R188). -/
def stepRound (wf : Fmt) (c : RndCtx) (r : Res) : Nat × Fl :=
  if wf.isInt then (toBits 32 r.v.toInt, Flag.none)
  else let t := r.round wf { c with sat := false }; (encodeFmt wf t.v, t.fl)

/-- R188, stages F1 to F4. -/
def stepF (wf : Fmt) (c : RndCtx) (op : Nat) (a b d : FV) : Nat × Fl :=
  match op with
  | 0 => stepRound wf c ⟨a, Flag.none⟩
  | 1 => stepRound wf c (addV c.mode a b)
  | 2 => stepRound wf c (mulV a b)
  | _ => stepRound wf c (fmaV c.mode a b d)

/-- IEEE comparison with its invalid flag for a signalling operand (R81). -/
def cmpRes (p : Int → Bool) (un : Bool) (a b : FV) : Res :=
  if a.isNan || b.isNan then ⟨if un then FV.one else FV.zero false, sigFl a ||| sigFl b⟩
  else ⟨if p (cmpV a b) then FV.one else FV.zero false, Flag.none⟩

/-- R188, stage C. -/
def stepC (op : Nat) (a b d : FV) : Res :=
  match op with
  | 0 => ⟨a, Flag.none⟩
  | 1 => minV a b
  | 2 => maxV a b
  | 3 => minNumV a b
  | 4 => maxNumV a b
  | 5 => let r := maxV a b; let q := minV r.v d; ⟨q.v, r.fl ||| q.fl⟩
  | 6 => ⟨if d.isZero then b else a, Flag.none⟩
  | 7 => cmpRes (· == 0) false a b
  | 8 => cmpRes (· == -1) false a b
  | 9 => cmpRes (· != 1) false a b
  | _ => cmpRes (· != 0) true a b

/-- R188, stage L on a 32-bit word. -/
def stepLWord (op a b : Nat) : Nat :=
  let s := b % 32
  match op with
  | 1 => a &&& b
  | 2 => a ||| b
  | 3 => a ^^^ b
  | 4 => a &&& (4294967295 - b % 4294967296)
  | 5 => m32 (a <<< s)
  | 6 => a >>> s
  | 7 => toBits 32 (signed 32 a / ((2 ^ s : Nat) : Int))
  | 8 => m32 (a + b)
  | 9 => toBits 32 ((a : Int) - (b : Int))
  | 10 => m32 (a * b)
  | _ => a

/-- R188, L's conversions on one value: FP32 with INT32, or in packed BF16 each half with INT16. -/
def stepLConv (half : Bool) (op a : Nat) : Nat × Fl :=
  let ff := if half then Fmt.bf16 else Fmt.fp32
  let fi := if half then Fmt.int16 else Fmt.int32
  match op with
  | 11 => convertBits fi ff .rne a
  | 12 => convertBits ff fi ⟨.rtz, 0, true⟩ a
  | 13 => let r := rintV .rne (decodeFmt ff a); (encodeFmt ff r.v, r.fl)
  | _ => let r := rintV .rdn (decodeFmt ff a); (encodeFmt ff r.v, r.fl)

/-- Stage T on one element: the function in FP32, in BF16 work rounded once (R218, R220). -/
def stepT (wf : Fmt) (c : RndCtx) (w : Nat) (prog : Option ChiselProg) (a : Nat) : Nat × Fl :=
  let x := decodeFmt wf a
  let r := match prog with
    | some p =>
      let q := p.eval (match x with | .nan _ => .nan false | v => v)
      (⟨q.v, sigFl x ||| q.fl⟩ : Res)
    | none => sfuEval (stepOp w) (stepSB w % 2 == 1) x
  let t := r.round wf { c with sat := false }
  (encodeFmt wf t.v, t.fl)

/-- A stage other than L and S-PREV on one element. -/
def ChainBody.stepEl (b : ChainBody) (rc : Nat → RndCtx) (prog : Option ChiselProg) (st w : Nat) (e : El) : El :=
  if !e.act then e
  else
    let wf := workFmt b.work
    let sa := b.src e (stepSA w)
    let c := rc e.k
    let (v, fl) : Nat × Fl :=
      if st ≤ 3 then
        stepF wf c (stepOp w) (modSign wf (stepABSA w) (stepNA w) sa) (decodeFmt wf (b.src e (stepSB w)))
          (modSign wf false (stepNC w) (b.src e (stepSC w)))
      else if st = 4 then
        stepRound wf c (stepC (stepOp w) (modSign wf (stepABSA w) (stepNA w) sa) (decodeFmt wf (b.src e (stepSB w)))
          (modSign wf false (stepNC w) (b.src e (stepSC w))))
      else if st = 6 then stepT wf c w prog sa
      else if stepOp w = 1 then stepF wf c 1 (decodeFmt wf sa) (decodeFmt wf (b.src e (stepSB w))) (FV.zero false)
      else stepF wf c 0 (decodeFmt wf sa) (FV.zero false) (FV.zero false)
    e.put (stepDST w) v fl

/-- Stage L on a lane that holds one element, and its conversions on each half (R188). -/
def ChainBody.stepLOne (b : ChainBody) (w : Nat) (e : El) : El :=
  let a := b.src e (stepSA w)
  let op := stepOp w
  if !e.act then e
  else if op ≥ 11 then let (v, fl) := stepLConv (b.work == 1) op a; e.put (stepDST w) v fl
  else e.put (stepDST w) (stepLWord op a (b.src e (stepSB w)) % (if b.work = 1 then 65536 else 4294967296)) Flag.none

/-- Stage L in packed BF16: the 32-bit word of elements 2i and 2i + 1; an inactive half gives zero bits. -/
def ChainBody.stepLPairs (b : ChainBody) (w : Nat) : List El → List El
  | e0 :: e1 :: es =>
    let word (s : Nat) : Nat :=
      (if e0.act then b.src e0 s else 0) + (if e1.act then b.src e1 s else 0) * 65536
    let r := stepLWord (stepOp w) (word (stepSA w)) (word (stepSB w))
    (if e0.act then e0.put (stepDST w) (r % 65536) Flag.none else e0)
      :: (if e1.act then e1.put (stepDST w) (r / 65536) Flag.none else e1)
      :: b.stepLPairs w es
  | [e] => [b.stepLOne w e]
  | [] => []

/-- Stage L over every element. -/
def ChainBody.stepL (b : ChainBody) (w : Nat) (els : List El) : List El :=
  if b.work = 1 ∧ stepOp w ≤ 10 then b.stepLPairs w els else els.map (b.stepLOne w)

/-- Stage S, PREV: A of the previous element, +0 for the first and after an inactive one. -/
def ChainBody.stepPrev (b : ChainBody) (w : Nat) : Nat → List El → List El
  | _, [] => []
  | prev, e :: es =>
    let a := if e.act then b.src e (stepSA w) else 0
    (if e.act then e.put (stepDST w) prev Flag.none else e) :: b.stepPrev w a es

/-- One stage of the map over every element in ordinal order. -/
def ChainBody.stage (b : ChainBody) (rc : Nat → RndCtx) (prog : Option ChiselProg) (els : List El) (st : Nat) : List El :=
  let w := nth 0 b.steps st
  if st = 5 then b.stepL w els
  else if st = 7 ∧ stepOp w = 2 then b.stepPrev w 0 els
  else els.map (b.stepEl rc prog st w)

/-- The chain over every element; VSCAN and VSTAT stop before S. -/
def ChainBody.runChain (b : ChainBody) (rc : Nat → RndCtx) (prog : Option ChiselProg) (scan : Bool) (els : List El) : List El :=
  (if scan then b.map.filter (· != 7) else b.map).foldl (b.stage rc prog) els

/-! ### Entry and exit conversions (R183, R190, R191) -/

/-- Entry conversion of a lane to the working format. -/
def enterWork (wf : Fmt) (f : Fmt) (gx : Bool) (l : Lane) : Nat × Fl :=
  let r := roundTo wf .rne (laneVal f gx l)
  (encodeFmt wf r.v, r.fl)

/-- One output value with the rounding context of its position; `live` is clear where the command writes no position of
the element's row or segment (R200, R231). -/
structure OutEl where
  act  : Bool
  v    : FV
  rc   : RndCtx
  live : Bool
  deriving DecidableEq, Repr

/-- One block of a block-scaled output (R191): its elements, its scale and the status bits it raises. A block all of whose
positions lie in rows or segments that write nothing is left as it is (DEDUCED, log 92). -/
def encodeOut (enc : List (Option (FV × RndCtx)) → EncBlock) (xs : List OutEl) : List (Option Nat) × Option Nat × Fl :=
  if xs.any OutEl.live then
    let b := enc (xs.map fun x => if x.act then some (x.v, x.rc) else none)
    ((b.elems.zip xs).map fun q => if q.2.live then some q.1 else none, some b.scale, b.fl)
  else (xs.map fun _ => none, none, Flag.none)

/-- Encode the blocks of a block-scaled output: positions grouped by scale ordinal (R191). -/
def encodeBlocks (enc : Nat → List (Option (FV × RndCtx)) → EncBlock) (d : Desc) (nsc : Nat) (xs : List OutEl) :
    List (Option Nat) × List (Option Nat) × Fl :=
  let ps := (d.seq.map fun p => scaleOrdinal d.lv p.idx).zip xs
  let bs := (List.range nsc).map fun s => encodeOut (enc s) ((ps.filter (fun q => q.1 == s)).map Prod.snd)
  (bs.flatMap Prod.fst, bs.map fun b => b.2.1, bs.foldl (fun f b => f ||| b.2.2) Flag.none)

/-- Number of scale positions of an element descriptor (R148). -/
def Desc.scaleCount (d : Desc) : Nat := ceilDiv (d.count 0) 32 * prodNat ((d.lv.drop 1).map Level.count)

/-- Convert an engine's results to a slot's format and place them (R183, R190, R191). `pass` holds the bits an
inactive position of the slot takes, by ordinal. `al` are the slot's latched mask lines. -/
def convertOut (f : Fmt) (gx : Bool) (d : Desc) (pass : Nat → Option Nat) (xs : List OutEl)
    (enc : Nat → List (Option (FV × RndCtx)) → EncBlock) : Outs × Fl :=
  if f.isMx || gx then
    let (es, ss, fl) := encodeBlocks enc d d.scaleCount xs
    (⟨es, ss, []⟩, fl)
  else
    let rs := (d.seq.zip xs).map fun (p, x) =>
      let r := roundTo f x.rc x.v
      (posWrite d (pass p.k) x.act p (some (encodeFmt f r.v)),
       if x.act && !p.pad then r.fl else Flag.none)
    (⟨rs.map Prod.fst, [], xs.map OutEl.act⟩, rs.foldl (fun f r => f ||| r.2) Flag.none)

/-- Own-scale encoding of a block-scaled or GX8 output with headroom `h` (R70, R74). -/
def ownEnc (f : Fmt) (gx : Bool) (h : Nat) (_ : Nat) (xs : List (Option (FV × RndCtx))) : EncBlock :=
  if gx then gx8Encode h xs else mxEncode f xs

/-! ### Timing (R192 to R195) -/

/-- An access falls on the bits of an element. -/
def Acc.overlaps (a : Acc) (b : Int) (eb : Nat) : Bool := a.start < b + (eb : Int) && b < a.start + (a.len : Int)

/-- Accesses of a stream beside the number of their group. -/
def Stream.grouped (s : Stream) : List (Nat × Acc) :=
  (numberFrom (fun g (as : List Acc) => as.map fun a => (g, a)) 0 s.groups).flatten

/-- By ordinal: the last group that holds the position (R193). -/
def Stream.groupOf (s : Stream) : List Nat :=
  let ga := s.grouped
  s.d.seqRuns.map fun (r, p) =>
    ga.foldl (fun m q => if q.2.kind == .elem && q.2.run == r && q.2.overlaps p.bits s.d.ebits then max m q.1 else m) 0

/-- R193: stream beat of every element, from the command's inputs. -/
def streamBeats (e n : Nat) (ins : List Stream) : List Nat :=
  let gs := ins.map fun s => s.groupOf.toArray
  (List.range n).map fun k => gs.foldl (fun m a => max m (a.getD k 0)) (k / e)

/-- Every position of a descriptor beside its run and the block it belongs to (R143). -/
def Desc.seqBlocks (d : Desc) : List (Nat × Nat × Pos) :=
  (numberFrom (fun i (r : Run) => r.ps.map fun p => (i, blockIndex d.ebits r p, p)) 0 d.runs).flatten

/-- The positions of a descriptor whose elements one of its accesses holds: those of its block that it overlaps (R143). -/
def Desc.heldBy (d : Desc) (a : Acc) : List Pos :=
  let s0 := match d.runs[a.run]? with | some r => r.start | none => 0
  (d.seqBlocks.filter fun q => q.1 == a.run && q.2.1 == ((a.start - s0) / 1024).toNat && a.overlaps q.2.2.bits d.ebits).map fun q => q.2.2

/-- R193: the largest stream beat among the positions an output group holds; `rOf` gives it by ordinal. -/
def Stream.groupBeat (s : Stream) (rOf : Nat → Nat) (as : List Acc) : Nat :=
  as.foldl (fun m a =>
    match a.kind with
    | .elem => (s.d.heldBy a).foldl (fun m p => max m (rOf p.k)) m
    | .scale =>
      match s.sd with
      | none => m
      | some sd =>
        let held := (sd.heldBy a).map Pos.k
        s.d.seq.foldl (fun m p => if held.contains (s.scalePos p) then max m (rOf p.k) else m) m
    | .mask => m) 0

/-- R193: stream length S. `outs` pairs each written stream with the stream beat of its ordinals. -/
def streamLen (base : Nat) (ins : List Stream) (outs : List (Stream × (Nat → Nat))) : Nat :=
  let g := (ins.map Stream.cost ++ outs.map fun o => o.1.cost).foldl max base
  outs.foldl (fun m o =>
    (numberFrom (fun i (as : List Acc) => o.1.groupBeat o.2 as + o.1.cost - i) 0 o.1.groups).foldl max m) g

/-- What the timing rules give for a VE command: streams with their beats, carry accesses as (beat, entry,
segment), stream length, done point, issue interval. -/
structure VePlan where
  streams : List Stream
  nIn     : Nat
  s       : Nat
  latency : Nat
  carryRd : List (Nat × Nat × Nat)
  carryWr : List (Nat × Nat × Nat)
  deriving DecidableEq, Repr

/-- R194: place the written streams' groups so that the last is written in beat S + Lc − 1. -/
def placeOuts (s lc : Nat) (outs : List Stream) : List Stream :=
  outs.map fun o => { o with off := lc + s - o.cost }

/-- Plan of an elementwise VE command of `n` elements at `e` a beat. -/
def elementPlan (n e lc : Nat) (ins outs : List Stream) : VePlan :=
  let r := (streamBeats e n ins).toArray
  let s := streamLen (ceilDiv n e) ins (outs.map fun o => (o, fun k => r.getD k 0))
  { streams := ins ++ placeOuts s lc outs, nIn := ins.length, s, latency := s + lc, carryRd := [], carryWr := [] }

/-- What a VE command leaves at its done point: what each written stream writes, status bits, carry entries
as (entry, words W0 to W3), and the amounts its counters take (R215, R242). -/
structure VeOut where
  outs     : List Outs
  fl       : Fl
  carry    : List (Nat × List (Option Nat))
  elems    : Nat
  evals    : Nat
  compat   : Nat
  chisel   : Nat
  deriv    : Nat
  rmsRows  : Nat
  segs     : Nat
  redEsc   : Nat
  redSat   : Nat
  redNan   : Nat
  redFolds : Nat
  deriving DecidableEq, Repr

def VeOut.empty : VeOut := ⟨[], Flag.none, [], 0, 0, 0, 0, 0, 0, 0, 0, 0, 0, 0⟩

/-- What a VE command reads besides its latched lines: its draws, its chisel program, the carry entries it
latched by segment. -/
structure VeCtx where
  grain : GrainCtx
  prog  : Option ChiselProg
  carry : List (Option (List Nat))
  deriving DecidableEq, Repr

/-- The rounding mode of a code (checked at issue). -/
def rndOf (c : Nat) : Rnd := (Rnd.ofCode c).getD .rne

/-- GX8 converts only with FP32 and BF16 (R85): a GX8 slot of a chain needs WORK 0 or 1. -/
def gxWorkOk (f : Fmt) (d : Desc) (work : Nat) : Bool := !isGx8 f d || work ≤ 1

/-! ### VMAP and VCHISEL (R189, R240) -/

/-- R189, R190: checks of a VMAP or VCHISEL on its slots; `prog` is the chisel slot's program. -/
def ChainBody.mapCmdOk (b : ChainBody) (c : Cmd512) (chisel : Bool) (prog : Option ChiselProg)
    (d0 d1 d2 s0 s1 s2 : Desc) : Bool :=
  let u := Hdr.descUse c
  let one := bitAt u 1
  bitAt u 0 && bitAt u 2 && b.mapOk && b.stepsOk (if chisel then .chisel else .map) && b.rnd ≤ 4
    && slotOk d0 s0 b.fmt0 true false && (!one || slotOk d1 s1 b.fmt1 true false) && slotOk d2 s2 b.fmtOut true true
    && gxWorkOk b.fmt0 d0 b.work && (!one || gxWorkOk b.fmt1 d1 b.work) && gxWorkOk b.fmtOut d2 b.work
    && d0.positions == d2.positions && (!one || d0.positions == d1.positions)
    && b.pass != 3 && (b.pass != 2 || (b.fmt0 == b.fmtOut && d0.scaleUse == d2.scaleUse))
    && (!chisel || (b.map.contains 6 && prog.isSome && b.work ≤ 1))

/-- R194's Lc for a chain command. -/
def chainLc (p sg tau bt rho : Nat) : Nat := 4 + p + 7 * sg + tau + 2 * bt + rho

def b2n (b : Bool) : Nat := if b then 1 else 0

def blockOut (f : Fmt) (d : Desc) : Bool := f.isMx || isGx8 f d

/-- R189, R192 to R194, R240: plan of VMAP or VCHISEL. -/
def ChainBody.mapPlan (b : ChainBody) (c : Cmd512) (prog : Option ChiselProg) (d0 d1 d2 s0 s1 s2 : Desc) : VePlan :=
  let v := b.tWeight prog
  let e := chainE b.work v
  let tau := if b.map.contains 6 then 8 * (match prog with | some p => p.weight | none => 1) else 0
  let lc := chainLc b.p 0 tau (b2n (blockOut b.fmtOut d2)) 0
  let i0 := mkStream 0 false d0 (scaleOf d0 s0) b.fmt0 (isGx8 b.fmt0 d0) (slotWidth e d0) 0
  let i1 := if bitAt (Hdr.descUse c) 1
    then [mkStream 1 false d1 (scaleOf d1 s1) b.fmt1 (isGx8 b.fmt1 d1) (slotWidth e d1) 0] else []
  let o := mkStream 2 true d2 (scaleOf d2 s2) b.fmtOut (isGx8 b.fmtOut d2) (slotWidth e d2) 0
  elementPlan d0.positions e lc (i0 :: i1) [o]

/-- Lanes of a stream as an array, or none when the slot is unnamed. -/
def lanesOr (s : Option Stream) (l : Latch) : Array Lane := match s with | some st => (st.lanes l).toArray | none => #[]

/-- Elements of a chain command at entry (R187, R189): activity from every named slot. -/
def ChainBody.enter (b : ChainBody) (p0 : List Pos) (l0 : Array Lane) (g0 : Bool) (l1 : Option (Array Lane)) (g1 : Bool)
    (outAct : Nat → Bool) : List El :=
  let wf := workFmt b.work
  p0.map fun p =>
    let a := l0.getD p.k Lane.off
    let a1 := match l1 with | some l => l.getD p.k Lane.off | none => ⟨true, false, 0, 0⟩
    let act := a.active && a1.active && outAct p.k
    let (v0, f0) := enterWork wf b.fmt0 g0 a
    let (v1, f1) := match l1 with | some _ => enterWork wf b.fmt1 g1 a1 | none => (0, Flag.none)
    { k := p.k, act, in0 := v0, in1 := v1, i0 := nth 0 p.idx 0, i1 := nth 0 p.idx 1
      t := [v0, v1, 0, 0], fl := if act then f0 ||| f1 else Flag.none }

/-- R190: bits an inactive position takes. -/
def ChainBody.passBits (b : ChainBody) (l0 : Array Lane) (k : Nat) : Option Nat :=
  match b.pass with
  | 1 =>
    let kv := if b.work = 3 then decodeFmt .fp64 (nth 0 b.k 1)
              else if b.work = 2 then decodeFmt .int32 (nth 0 b.k 3)
              else if b.work = 1 then decodeFmt .bf16 (b.kRaw 3) else decodeFmt .fp32 (nth 0 b.k 3)
    some (encodeFmt b.fmtOut (roundTo b.fmtOut ⟨.rne, 0, true⟩ kv).v)
  | 2 => some (l0.getD k Lane.off).raw
  | _ => none

/-- Activity of every position of a written slot from its bounds and mask lines. -/
def outActs (o : Stream) (l : Latch) : Array Bool :=
  let al := o.latched l
  (o.d.seq.map fun p => activeOf o.d al p).toArray

/-- VMAP and VCHISEL: what the command computes from its latched lines (R181 to R191, R240). -/
def ChainBody.runMap (b : ChainBody) (p : VePlan) (x : VeCtx) (chisel : Bool) (ls : List Latch) : VeOut :=
  match p.streams with
  | i0 :: rest =>
    let i1 := if p.nIn = 2 then rest.head? else none
    match rest.getLast? with
    | none => VeOut.empty
    | some o =>
      let l0 := lanesOr (some i0) (nth [] ls 0)
      let l1 := i1.map fun s => lanesOr (some s) (nth [] ls 1)
      let oa := outActs o (nth [] ls (p.streams.length - 1))
      let rc := x.grain.rc (rndOf b.rnd) false
      let prog := if chisel then x.prog else none
      let els := b.runChain rc prog false
        (b.enter i0.d.seq l0 i0.gx8 l1 (match i1 with | some s => s.gx8 | none => false) fun k => oa.getD k false)
      let wf := workFmt b.work
      let xs := els.map fun e =>
        { act := e.act, v := decodeFmt wf (nth 0 e.t 0), rc := x.grain.rc (rndOf b.rnd) b.sat e.k, live := true : OutEl }
      let (outs, fl) := convertOut b.fmtOut o.gx8 o.d (b.passBits l0) xs (ownEnc b.fmtOut o.gx8 0)
      let n := (els.filter El.act).length
      let w := b.tWeight prog
      { VeOut.empty with
        outs := [outs], fl := els.foldl (fun f e => f ||| e.fl) fl, elems := n, evals := n * w
        compat := if !chisel && w == 2 then n else 0, chisel := if chisel then n else 0 }
  | [] => VeOut.empty

/-! ### VCVT (R196, R197) -/

structure CvtBody where
  fmtIn  : Fmt
  fmtOut : Fmt
  rnd    : Nat
  sat    : Bool
  head   : Nat
  agreed : Bool
  deriving DecidableEq, Repr

def CvtBody.ofCmd (c : Cmd512) : CvtBody :=
  { fmtIn := Fmt.ofCode (cb c 16 0 4), fmtOut := Fmt.ofCode (cb c 16 4 4), rnd := cb c 17 0 3, sat := cb c 17 3 1 == 1
    head := cb c 17 4 2, agreed := cb c 17 6 1 == 1 }

/-- R85: the pairs VCVT executes: GX8 only with FP32 and BF16. -/
def cvtPairOk (fi fo : Fmt) (gi go : Bool) : Bool :=
  (!gi || (!go && (fo == .fp32 || fo == .bf16))) && (!go || (!gi && (fi == .fp32 || fi == .bf16)))

/-- R148, R197: slot 1 names one 16-bit word per destination block. -/
def agreedOk (d1 d2 : Desc) : Bool := scaleDescOk true d2 d1

/-- R196, R197: checks of VCVT. -/
def CvtBody.ok (b : CvtBody) (c : Cmd512) (d0 d1 d2 s0 s2 : Desc) : Bool :=
  Hdr.descUse c == (if b.agreed then 7 else 5) && b.rnd ≤ 4
    && slotOk d0 s0 b.fmtIn true false && slotOk d2 s2 b.fmtOut true true
    && cvtPairOk b.fmtIn b.fmtOut (isGx8 b.fmtIn d0) (isGx8 b.fmtOut d2)
    && d0.positions == d2.positions
    && (!b.agreed || (isGx8 b.fmtOut d2 && !d1.rstore && d1.ok 16 && agreedOk d1 d2))

/-- R196: elements per beat of VCVT. -/
def CvtBody.e (b : CvtBody) : Nat :=
  if b.fmtIn == .fp64 || b.fmtOut == .fp64 then 16 else if b.fmtIn.bits ≤ 16 && b.fmtOut.bits ≤ 16 then 256 else 128

def CvtBody.plan (b : CvtBody) (d0 d1 d2 s0 s2 : Desc) : VePlan :=
  let e := b.e
  let i0 := mkStream 0 false d0 (scaleOf d0 s0) b.fmtIn (isGx8 b.fmtIn d0) (slotWidth e d0) 0
  let i1 := if b.agreed then [mkStream 1 false d1 none .int16 false (slotWidth e d1) 0] else []
  let o := mkStream 2 true d2 (scaleOf d2 s2) b.fmtOut (isGx8 b.fmtOut d2) (slotWidth e d2) 0
  let lc := 4 + 2 * b2n (blockOut b.fmtOut d2)
  let n := d0.positions
  let r0 := (streamBeats e n [i0]).toArray
  -- an agreed word is needed by every element of its block
  let r1 := match i1 with | s :: _ => s.groupOf.toArray | [] => #[]
  let so := (d2.seq.map fun p => scaleOrdinal d2.lv p.idx).toArray
  let rOf := fun k => max (r0.getD k 0) (r1.getD (so.getD k 0) 0)
  let s := streamLen (ceilDiv n e) (i0 :: i1) [(o, rOf)]
  { streams := (i0 :: i1) ++ placeOuts s lc [o], nIn := 1 + i1.length, s, latency := s + lc, carryRd := [], carryWr := [] }

/-- VCVT: what it computes from its latched lines. -/
def CvtBody.run (b : CvtBody) (p : VePlan) (x : VeCtx) (ls : List Latch) : VeOut :=
  match p.streams with
  | i0 :: rest =>
    match rest.getLast? with
    | none => VeOut.empty
    | some o =>
      let l0 := lanesOr (some i0) (nth [] ls 0)
      let oa := outActs o (nth [] ls (p.streams.length - 1))
      let xs := (numberFrom (fun k (l : Lane) =>
        { act := l.active && oa.getD k false, v := i0.value l, rc := x.grain.rc (rndOf b.rnd) b.sat k, live := true : OutEl }) 0 l0.toList)
      let words := if b.agreed then lanesOr rest.head? (nth [] ls 1) else #[]
      let enc := if b.agreed then fun s ys => gx8EncodeAgreed (words.getD s Lane.off).raw ys
                 else ownEnc b.fmtOut o.gx8 b.head
      let (outs, fl) := convertOut b.fmtOut o.gx8 o.d (fun _ => none) xs enc
      { VeOut.empty with outs := [outs], fl, elems := (xs.filter OutEl.act).length }
  | [] => VeOut.empty

/-! ### VSFU (R227 to R229) -/

structure SfuBody where
  func   : Nat
  compat : Bool
  deriv  : Bool
  fmtIn  : Fmt
  fmtOut : Fmt
  fmtD   : Fmt
  rnd    : Nat
  sat    : Bool
  work   : Nat
  pass   : Nat
  passV  : Nat
  deriving DecidableEq, Repr

def SfuBody.ofCmd (c : Cmd512) : SfuBody :=
  { func := cb c 16 0 5, compat := cb c 16 5 1 == 1, deriv := cb c 16 6 1 == 1
    fmtIn := Fmt.ofCode (cb c 17 0 4), fmtOut := Fmt.ofCode (cb c 17 4 4), fmtD := Fmt.ofCode (cb c 18 0 4)
    rnd := cb c 18 4 3, sat := cb c 18 7 1 == 1, work := cb c 19 0 2, pass := cb c 19 2 2, passV := cb c 20 0 32 }

/-- R229: the checks of VSFU. -/
def SfuBody.ok (b : SfuBody) (c : Cmd512) (d0 d1 d2 s0 s1 s2 : Desc) : Bool :=
  b.func ≤ 15 && b.work ≤ 1 && !(b.compat && b.deriv) && (!b.compat || sfuCompatOk b.func)
    && (!b.deriv || sfuDerivOk b.func) && b.rnd ≤ 4
    && Hdr.descUse c == (if b.deriv then 7 else 5)
    && slotOk d0 s0 b.fmtIn true false && slotOk d2 s2 b.fmtOut true true && (!b.deriv || slotOk d1 s1 b.fmtD true true)
    && d0.positions == d2.positions && (!b.deriv || d0.positions == d1.positions)
    && b.pass != 3
    && (b.pass != 2 || (b.fmtIn == b.fmtOut && d0.scaleUse == d2.scaleUse
          && (!b.deriv || (b.fmtIn == b.fmtD && d0.scaleUse == d1.scaleUse))))

/-- R216: weight of one evaluation. -/
def SfuBody.w (b : SfuBody) : Nat := if b.compat || b.deriv then 2 else 1

def SfuBody.plan (b : SfuBody) (d0 d1 d2 s0 s1 s2 : Desc) : VePlan :=
  let e := 64 / b.w
  let i0 := mkStream 0 false d0 (scaleOf d0 s0) b.fmtIn (isGx8 b.fmtIn d0) (slotWidth e d0) 0
  let o1 := if b.deriv then [mkStream 1 true d1 (scaleOf d1 s1) b.fmtD (isGx8 b.fmtD d1) (slotWidth e d1) 0] else []
  let o2 := mkStream 2 true d2 (scaleOf d2 s2) b.fmtOut (isGx8 b.fmtOut d2) (slotWidth e d2) 0
  let bt := b2n (blockOut b.fmtOut d2 || (b.deriv && blockOut b.fmtD d1))
  elementPlan d0.positions e (chainLc 1 0 8 bt 0) [i0] (o1 ++ [o2])

/-- VSFU: f, and f′ with DERIV, of every active element. -/
def SfuBody.run (b : SfuBody) (p : VePlan) (x : VeCtx) (ls : List Latch) : VeOut :=
  match p.streams with
  | i0 :: os =>
    let l0 := lanesOr (some i0) (nth [] ls 0)
    let acts := numberFrom (fun i (o : Stream) => outActs o (nth [] ls (i + 1))) 0 os
    let wf := workFmt b.work
    let els := numberFrom (fun k (l : Lane) =>
      let act := l.active && acts.all (fun a => a.getD k false)
      let (v, fi) := enterWork wf b.fmtIn i0.gx8 l
      let c := x.grain.rc (rndOf b.rnd) false k
      let a := decodeFmt wf v
      let r := (sfuEval b.func b.compat a).round wf c
      let d : Res := if b.deriv then (sfuDeriv b.func a).round wf c else ⟨FV.zero false, Flag.none⟩
      (act, r.v, d.v, if act then fi ||| r.fl ||| d.fl else Flag.none)) 0 l0.toList
    let rc k := x.grain.rc (rndOf b.rnd) b.sat k
    let xs := numberFrom (fun k (q : Bool × FV × FV × Fl) => (⟨q.1, q.2.1, rc k, true⟩ : OutEl)) 0 els
    let ds := numberFrom (fun k (q : Bool × FV × FV × Fl) => (⟨q.1, q.2.2.1, rc k, true⟩ : OutEl)) 0 els
    let pass (f : Fmt) (k : Nat) : Option Nat :=
      match b.pass with
      | 1 => some (encodeFmt f (roundTo f ⟨.rne, 0, true⟩ (decodeFmt .fp32 b.passV)).v)
      | 2 => some (l0.getD k Lane.off).raw
      | _ => none
    let res := numberFrom (fun i (o : Stream) =>
      let isD := b.deriv && i == 0
      let f := if isD then b.fmtD else b.fmtOut
      convertOut f o.gx8 o.d (pass f) (if isD then ds else xs) (ownEnc f o.gx8 0)) 0 os
    let n := (els.filter Prod.fst).length
    { VeOut.empty with
      outs := res.map Prod.fst
      fl := res.foldl (fun f r => f ||| r.2) (els.foldl (fun f q => f ||| q.2.2.2) Flag.none)
      elems := n, evals := n * b.w, compat := if b.compat then n else 0, deriv := if b.deriv then n else 0 }
  | [] => VeOut.empty

end Sys2Proof.Machine
end

