-- ==== Sys2Proof/Machine/Scan.lean ====
section
/-!
DEFINITION. Sys2Proof/Machine/Scan.lean: VSCAN, VCARRY, VSTAT (R198 to R214), RMSNORM (R230 to R233) and VGRAIN
(R374 to R377): their checks, plans and values.
-/
namespace Sys2Proof.Machine

/-! ### The fixed trees (R200) -/

/-- combine with absence: combine(x, absent) = combine(absent, x) = x. -/
def combOpt {α : Type} (comb : α → α → α × Fl) : Option α × Fl → Option α × Fl → Option α × Fl
  | (none, f), (y, g) => (y, f ||| g)
  | (x, f), (none, g) => (x, f ||| g)
  | (some x, f), (some y, g) => let (z, h) := comb x y; (some z, f ||| g ||| h)

/-- R200: total(b, lo, 2^d) over leaves given by index. -/
def treeTotal {α : Type} (comb : α → α → α × Fl) (x : Nat → Option α) : Nat → Nat → Option α × Fl
  | 0, lo => (x lo, Flag.none)
  | d + 1, lo => combOpt comb (treeTotal comb x d lo) (treeTotal comb x d (lo + 2 ^ d))

/-- R200: prefix over the first `cnt` leaves of a block from `lo`: powers of two of `cnt`, largest first. -/
def treePrefix {α : Type} (comb : α → α → α × Fl) (x : Nat → Option α) (cnt : Nat) : Nat → Nat → Option α × Fl → Option α × Fl
  | 0, lo, acc => if cnt % 2 = 1 then combOpt comb acc (treeTotal comb x 0 lo) else acc
  | d + 1, lo, acc =>
    if cnt.testBit (d + 1) then treePrefix comb x cnt d (lo + 2 ^ (d + 1)) (combOpt comb acc (treeTotal comb x (d + 1) lo))
    else treePrefix comb x cnt d lo acc

/-- One segment by blocks of 128: outputs and final carry (R200). -/
def scanBlocks {α : Type} (comb : α → α → α × Fl) (excl : Bool) : List (List (Option α)) → α → List (α × Fl) × α × Fl
  | [], c => ([], c, Flag.none)
  | xs :: rest, c =>
    let x : Nat → Option α := fun i => nth none xs i
    let ys := (List.range xs.length).map fun i =>
      let (p, f) := treePrefix comb x (if excl then i else i + 1) 7 0 (none, Flag.none)
      match combOpt comb (some c, f) (p, Flag.none) with
      | (some v, g) => (v, g)
      | (none, g) => (c, g)
    let (tot, ft) := treeTotal comb x 7 0
    let (c', fc) := match combOpt comb (some c, ft) (tot, Flag.none) with
      | (some v, g) => (v, g)
      | (none, g) => (c, g)
    let (zs, ce, fe) := scanBlocks comb excl rest c'
    (ys ++ zs, ce, fc ||| fe)

/-! ### VSCAN (R198 to R201) -/

/-- STEP_S of VSCAN and VSTAT (R198, R206). -/
structure SegCtl where
  op    : Nat
  level : Nat
  b6    : Bool
  cin   : Bool
  cout  : Bool
  cbase : Nat
  b18   : Bool
  deriving DecidableEq, Repr

/-- VSCAN's fields: SOP, SEG_LEVEL, EXCL, CIN, COUT, CBASE, OUTSEL. -/
def SegCtl.scan (w : Nat) : SegCtl :=
  ⟨field w 0 3, field w 3 3, bitAt w 6, bitAt w 7, bitAt w 8, field w 9 9, bitAt w 18⟩

/-- VSTAT's fields: STAT, ROW_LEVEL, EMIT, CIN, COUT, CBASE. -/
def SegCtl.stat (w : Nat) : SegCtl :=
  ⟨field w 0 3, field w 3 3, bitAt w 6, bitAt w 7, bitAt w 8, field w 9 9, false⟩

/-- Positions of one pass of levels 0 to `l`, and the number of passes. -/
def segSize (d : Desc) (l : Nat) : Nat := prodNat ((d.lv.take (l + 1)).map Level.total)
def segCount (d : Desc) (l : Nat) : Nat := prodNat ((d.lv.drop (l + 1)).map Level.total)

/-- A scan state: the value, or LREC's (a, h). -/
structure ScanSt where
  a : FV
  h : FV
  deriving DecidableEq, Repr

def add32 (x y : FV) : Res := (addV .rne x y).round .fp32 .rne
def mul32 (x y : FV) : Res := (mulV x y).round .fp32 .rne

/-- Addition modulo 2^32 on signed readings (R201 IADD). -/
def iadd32 (x y : FV) : FV := FV.ofInt (signed 32 (toBits 32 (x.toInt + y.toInt)))

/-- R201: the scan operators. -/
def scanComb (op : Nat) (x y : ScanSt) : ScanSt × Fl :=
  match op with
  | 0 => let r := add32 x.a y.a; (⟨r.v, r.v⟩, r.fl)
  | 1 => let r := maxV x.a y.a; (⟨r.v, r.v⟩, r.fl)
  | 2 => let r := minV x.a y.a; (⟨r.v, r.v⟩, r.fl)
  | 3 =>
    let ra := mul32 y.a x.a
    let rh := (fmaV .rne y.a x.h y.h).round .fp32 .rne
    (⟨ra.v, rh.v⟩, ra.fl ||| rh.fl)
  | _ => let v := iadd32 x.a y.a; (⟨v, v⟩, Flag.none)

/-- R201: identities. -/
def scanId (op : Nat) : ScanSt :=
  match op with
  | 1 => ⟨.inf true, .inf true⟩
  | 2 => ⟨.inf false, .inf false⟩
  | 3 => ⟨FV.one, FV.zero false⟩
  | _ => ⟨FV.zero false, FV.zero false⟩

/-- R203: carry words of a scan state, and back. -/
def scanWords (op : Nat) (s : ScanSt) : List (Option Nat) :=
  match op with
  | 3 => [some (encodeFmt .fp32 s.h), some (encodeFmt .fp32 s.a), some 0, some 0]
  | 4 => [some (encodeFmt .int32 s.a), some 0, some 0, some 0]
  | _ => [some (encodeFmt .fp32 s.a), some 0, some 0, some 0]

def scanLoad (op : Nat) (ws : List Nat) : ScanSt :=
  match op with
  | 3 => ⟨decodeFmt .fp32 (nth 0 ws 1), decodeFmt .fp32 (nth 0 ws 0)⟩
  | 4 => let v := decodeFmt .int32 (nth 0 ws 0); ⟨v, v⟩
  | _ => let v := decodeFmt .fp32 (nth 0 ws 0); ⟨v, v⟩

/-- R198, R199: the checks of VSCAN. -/
def ChainBody.scanCmdOk (b : ChainBody) (c : Cmd512) (d0 d1 d2 s0 s1 s2 : Desc) : Bool :=
  let g := SegCtl.scan (nth 0 b.steps 7)
  let u := Hdr.descUse c
  let one := bitAt u 1
  let two := bitAt u 2
  bitAt u 0 && (two || g.cout) && b.mapOk && b.stepsOk .scan && b.map.getLast? == some 7 && b.rnd ≤ 4
    && g.op ≤ 4 && (if g.op = 4 then b.work == 2 else b.work == 0) && g.level < d0.levels
    && (!(g.cin || g.cout) || g.cbase + segCount d0 g.level ≤ 512) && (!g.b18 || g.op == 3)
    && slotOk d0 s0 b.fmt0 true false && (!one || slotOk d1 s1 b.fmt1 true false) && (!two || slotOk d2 s2 b.fmtOut true true)
    && gxWorkOk b.fmt0 d0 b.work && (!one || gxWorkOk b.fmt1 d1 b.work) && (!two || gxWorkOk b.fmtOut d2 b.work)
    && (!one || d0.positions == d1.positions) && (!two || d0.positions == d2.positions)
    && b.pass != 3 && (b.pass != 2 || (b.fmt0 == b.fmtOut && (!two || d0.scaleUse == d2.scaleUse)))

/-- Carry accesses of R204 for segments of `sz` elements: reads at 2 + r(first), writes at Lc − 1 + r(last). -/
def carryBeats (cin cout : Bool) (cbase segs sz lc : Nat) (r : Array Nat) : List (Nat × Nat × Nat) × List (Nat × Nat × Nat) :=
  ((if cin then (List.range segs).map fun s => (2 + r.getD (s * sz) 0, cbase + s, s) else []),
   (if cout then (List.range segs).map fun s => (lc - 1 + r.getD ((s + 1) * sz - 1) 0, cbase + s, s) else []))

/-- R192 to R194, R198, R204: plan of VSCAN. -/
def ChainBody.scanPlan (b : ChainBody) (c : Cmd512) (d0 d1 d2 s0 s1 s2 : Desc) : VePlan :=
  let g := SegCtl.scan (nth 0 b.steps 7)
  let v := b.tWeight none
  let e := chainE b.work v
  let two := bitAt (Hdr.descUse c) 2
  let lc := chainLc b.p 1 (if v > 0 then 8 else 0) (b2n (two && blockOut b.fmtOut d2)) 0
  let i0 := mkStream 0 false d0 (scaleOf d0 s0) b.fmt0 (isGx8 b.fmt0 d0) (slotWidth e d0) 0
  let i1 := if bitAt (Hdr.descUse c) 1
    then [mkStream 1 false d1 (scaleOf d1 s1) b.fmt1 (isGx8 b.fmt1 d1) (slotWidth e d1) 0] else []
  let o := if two then [mkStream 2 true d2 (scaleOf d2 s2) b.fmtOut (isGx8 b.fmtOut d2) (slotWidth e d2) 0] else []
  let p := elementPlan d0.positions e lc (i0 :: i1) o
  let r := (streamBeats e d0.positions (i0 :: i1)).toArray
  let (rd, wr) := carryBeats g.cin g.cout g.cbase (segCount d0 g.level) (segSize d0 g.level) lc r
  { p with carryRd := rd, carryWr := wr }

/-- VSCAN: the chain's pre-map, then each segment's scan (R198 to R201). -/
def ChainBody.runScan (b : ChainBody) (p : VePlan) (x : VeCtx) (ls : List Latch) : VeOut :=
  match p.streams with
  | i0 :: rest =>
    let g := SegCtl.scan (nth 0 b.steps 7)
    let i1 := if p.nIn = 2 then rest.head? else none
    let o := (p.streams.drop p.nIn).head?
    let l0 := lanesOr (some i0) (nth [] ls 0)
    let l1 := i1.map fun s => lanesOr (some s) (nth [] ls 1)
    let oa := match o with | some s => outActs s (nth [] ls p.nIn) | none => #[]
    let outAct := fun k => match o with | some _ => oa.getD k false | none => true
    let els := b.runChain (x.grain.rc (rndOf b.rnd) false) none true
      (b.enter i0.d.seq l0 i0.gx8 l1 (match i1 with | some s => s.gx8 | none => false) outAct)
    let wf := workFmt b.work
    let sz := segSize i0.d g.level
    let segs := chunks sz (segCount i0.d g.level) els
    let res := numberFrom (fun s (es : List El) =>
      let xs : List (Option ScanSt) := es.map fun e =>
        if e.act then some ⟨decodeFmt wf (nth 0 e.t 0), decodeFmt wf (nth 0 e.t (if g.op = 3 then 1 else 0))⟩ else none
      let c0 := if g.cin then scanLoad g.op ((nth none x.carry s).getD [0, 0, 0, 0]) else scanId g.op
      let (ys, ce, fl) := scanBlocks (scanComb g.op) g.b6 (chunks 128 es.length xs) c0
      let any := es.any El.act
      let vals := (es.zip ys).map fun (q : El × (ScanSt × Fl)) =>
        (q.1.act, (if g.op = 3 ∧ !g.b18 then q.2.1.h else q.2.1.a), any)
      (vals, (if any then some (g.cbase + s, scanWords g.op ce) else none),
        if any then (es.zip ys).foldl (fun f (q : El × (ScanSt × Fl)) => if q.1.act then f ||| q.2.2 else f) fl else Flag.none)) 0 segs
    let flat := res.flatMap fun r => r.1
    let anyAt := (flat.map fun q => q.2.2).toArray
    let xs := numberFrom (fun k (q : Bool × FV × Bool) => (⟨q.1, q.2.1, x.grain.rc (rndOf b.rnd) b.sat k, q.2.2⟩ : OutEl)) 0 flat
    let (outs, fo) := match o with
      | some s =>
        let (u, f) := convertOut b.fmtOut s.gx8 s.d (fun k => if anyAt.getD k false then b.passBits l0 k else none) xs
          (ownEnc b.fmtOut s.gx8 0)
        ([u], f)
      | none => ([], Flag.none)
    let n := (els.filter El.act).length
    let w := b.tWeight none
    { VeOut.empty with
      outs, carry := if g.cout then res.filterMap (fun r => r.2.1) else []
      fl := res.foldl (fun f r => f ||| r.2.2) (els.foldl (fun f e => f ||| e.fl) fo)
      elems := n, evals := n * w, compat := if w == 2 then n else 0, segs := segs.length }
  | [] => VeOut.empty

/-! ### VCARRY (R205) -/

structure CarryBody where
  dir    : Nat
  cbase  : Nat
  ccount : Nat
  deriving DecidableEq, Repr

def CarryBody.ofCmd (c : Cmd512) : CarryBody := ⟨cb c 16 0 1, cb c 18 0 9, cb c 20 0 10⟩

def CarryBody.ok (b : CarryBody) (c : Cmd512) (d0 d2 : Desc) : Bool :=
  let d := if b.dir = 0 then d2 else d0
  Hdr.descUse c == (if b.dir = 0 then 4 else 1) && b.ccount ≥ 1 && b.ccount ≤ 512 && b.cbase + b.ccount ≤ 512
    && d.ok 32 && !d.rstore && !d.scaleUse && d.positions == 4 * b.ccount

def CarryBody.plan (b : CarryBody) (d0 d2 : Desc) : VePlan :=
  if b.dir = 0 then
    let o := mkStream 2 true d2 none .int32 false 4 0
    let s := streamLen (ceilDiv b.ccount 32) [] [(o, fun k => k / 4 / 32)]
    { streams := placeOuts s 4 [o], nIn := 0, s, latency := s + 4
      carryRd := (List.range b.ccount).map fun i => (i / 32, b.cbase + i, i), carryWr := [] }
  else
    let i0 := mkStream 0 false d0 none .int32 false 4 0
    let gs := i0.groupOf.toArray
    let r := fun i => (List.range 4).foldl (fun m j => max m (gs.getD (4 * i + j) 0)) (i / 32)
    let s := streamLen (ceilDiv b.ccount 32) [i0] []
    { streams := [i0], nIn := 1, s, latency := s + 4, carryRd := []
      carryWr := (List.range b.ccount).map fun i => (3 + r i, b.cbase + i, i) }

/-- VCARRY: words to the scratchpad, or entries from it; an inactive position leaves its word as it was. -/
def CarryBody.run (b : CarryBody) (p : VePlan) (x : VeCtx) (ls : List Latch) : VeOut :=
  match p.streams with
  | [st] =>
    if b.dir = 0 then
      let oa := outActs st (nth [] ls 0)
      let es := st.d.seq.map fun q =>
        posWrite st.d none (oa.getD q.k false) q (some (nth 0 ((nth none x.carry (q.k / 4)).getD [0, 0, 0, 0]) (q.k % 4)))
      { VeOut.empty with outs := [⟨es, [], []⟩], elems := (oa.toList.filter id).length }
    else
      let l0 := lanesOr (some st) (nth [] ls 0)
      { VeOut.empty with
        carry := (List.range b.ccount).map fun i =>
          (b.cbase + i, (List.range 4).map fun j =>
            let l := l0.getD (4 * i + j) Lane.off
            if l.active then some l.raw else none)
        elems := (l0.toList.filter Lane.active).length }
  | _ => VeOut.empty

/-! ### VSTAT (R206 to R214) -/

/-- A statistic's state: value or mean, second word, count or index. -/
structure StatSt where
  v : FV
  w : FV
  n : Nat
  deriving DecidableEq, Repr

/-- R210: whether the second state ranks above the first; `mx` for MAXARG. -/
def argHigher (mx : Bool) (x y : StatSt) : Bool :=
  if x.v.isNan then y.v.isNan && y.n < x.n
  else if y.v.isNan then true
  else
    let gt := if mx then ltTotal x.v y.v else ltTotal y.v x.v
    let lt := if mx then ltTotal y.v x.v else ltTotal x.v y.v
    gt || (!lt && y.n < x.n)

/-- R211: the Chan merge. -/
def momentsComb (x y : StatSt) : StatSt × Fl :=
  let n := m32 (x.n + y.n)
  let c32 (k : Nat) : Res := roundTo .fp32 .rne (FV.ofNat k)
  let nb := c32 y.n
  let na := c32 x.n
  let nn := c32 n
  let w := (divV nb.v nn.v).round .fp32 .rne
  let d := add32 y.v x.v.neg
  let mu := (fmaV .rne d.v w.v x.v).round .fp32 .rne
  let dd := mul32 d.v d.v
  let nw := mul32 na.v w.v
  let t := mul32 dd.v nw.v
  let s := add32 x.w y.w
  let m2 := add32 s.v t.v
  (⟨mu.v, m2.v, n⟩, nb.fl ||| na.fl ||| nn.fl ||| w.fl ||| d.fl ||| mu.fl ||| dd.fl ||| nw.fl ||| t.fl ||| s.fl ||| m2.fl)

/-- The combines of R209. -/
def statComb (st : Nat) (x y : StatSt) : StatSt × Fl :=
  match st with
  | 0 | 1 | 4 => let r := add32 x.v y.v; (⟨r.v, x.w, 0⟩, r.fl)
  | 2 => (if argHigher true x y then y else x, sigFl x.v ||| sigFl y.v)
  | 3 => (if argHigher false x y then y else x, sigFl x.v ||| sigFl y.v)
  | _ => momentsComb x y

/-- Fold blocks of 128 left from a state or absence (R209). -/
def statBlocks (st : Nat) : List (List (Option StatSt)) → Option StatSt × Fl → Option StatSt × Fl
  | [], acc => acc
  | xs :: rest, acc =>
    statBlocks st rest (combOpt (statComb st) acc (treeTotal (statComb st) (fun i => nth none xs i) 7 0))

/-- Leaf of element j of a row (R209). -/
def statLeaf (st ibase j : Nat) (x : FV) : StatSt × Fl :=
  match st with
  | 1 => let r := mul32 x x; (⟨r.v, FV.zero false, 0⟩, r.fl)
  | 2 | 3 => (⟨x, FV.zero false, m32 (ibase + j)⟩, Flag.none)
  | 5 => (⟨x, FV.zero false, 1⟩, Flag.none)
  | _ => (⟨x, FV.zero false, 0⟩, Flag.none)

/-- State of a row with no active element and no carry (R207). -/
def statEmpty (st : Nat) : StatSt :=
  match st with
  | 2 => ⟨.inf true, FV.zero false, 0xFFFFFFFF⟩
  | 3 => ⟨.inf false, FV.zero false, 0xFFFFFFFF⟩
  | _ => ⟨FV.zero false, FV.zero false, 0⟩

def f32 (x : FV) : Nat := encodeFmt .fp32 x

/-- R203, R207: words of a state. -/
def statWords (st : Nat) (s : StatSt) : List Nat :=
  match st with
  | 2 | 3 => [f32 s.v, s.n]
  | 5 => [s.n, f32 s.v, f32 s.w]
  | _ => [f32 s.v]

/-- R203: a carry entry as a state; a MOMENTS carry whose count is 0 is absent. -/
def statLoad (st : Nat) (ws : List Nat) : Option StatSt :=
  let fv i := decodeFmt .fp32 (nth 0 ws i)
  match st with
  | 2 | 3 => some ⟨fv 0, FV.zero false, nth 0 ws 1⟩
  | 5 => if nth 0 ws 0 = 0 then none else some ⟨fv 1, fv 2, nth 0 ws 0⟩
  | _ => some ⟨fv 0, FV.zero false, 0⟩

/-- Words per record (R207). -/
def statRecWords (st : Nat) : Nat := match st with | 2 => 2 | 3 => 2 | 4 => 4 | 5 => 3 | _ => 1

def padWords (ws : List Nat) : List (Option Nat) := (List.range 4).map fun i => some (nth 0 ws i)

/-- One row's record, its carry-out, its e_j by element (LSE) and its status bits. -/
structure RowOut where
  recw  : List Nat
  carry : List (Option Nat)
  e     : List FV
  fl    : Fl
  deriving DecidableEq, Repr

/-- R209: a row of a statistic other than LSE. -/
def statRow (st ibase : Nat) (cin : Option (List Nat)) (xs : List (Option FV)) : RowOut :=
  let leaves := numberFrom (fun j (x : Option FV) => x.map (statLeaf st ibase j)) 0 xs
  let lf := leaves.foldl (fun f l => match l with | some q => f ||| q.2 | none => f) Flag.none
  let c0 := match cin with | some ws => statLoad st ws | none => none
  let (s, fl) := statBlocks st (chunks 128 xs.length (leaves.map fun l => l.map Prod.fst)) (c0, lf)
  let w := statWords st (s.getD (statEmpty st))
  { recw := w, carry := padWords w, e := [], fl }

/-- exp by the SFU, natively (R213, R218). -/
def exp32 (x : FV) : Res := sfuNative 0 x

/-- R213: e_j of one active element under the row's maximum. -/
def lseElem (mb x : FV) : Res :=
  match mb with
  | .nan _ => ⟨.nan false, Flag.none⟩
  | .inf true => ⟨FV.zero false, Flag.none⟩
  | .inf false => ⟨if x = .inf false then FV.one else FV.zero false, Flag.none⟩
  | _ => let d := add32 x mb.neg; let r := exp32 d.v; ⟨r.v, d.fl ||| r.fl⟩

/-- Equality of two values as numbers; a NaN equals nothing. -/
def eqV (a b : FV) : Bool := !a.isNan && !b.isNan && cmpV a b == 0

/-- R213: a row of LSE. -/
def lseRow (cin : Option (List Nat)) (xs : List (Option FV)) : RowOut :=
  let mbr := xs.foldl (fun (r : Res) x => match x with | some v => let q := maxV r.v v; ⟨q.v, r.fl ||| q.fl⟩ | none => r)
    ⟨.inf true, Flag.none⟩
  let mb := mbr.v
  let es := xs.map fun x => x.map (lseElem mb)
  let fe := es.foldl (fun f e => match e with | some q => f ||| q.fl | none => f) mbr.fl
  let (s, fs) := statBlocks 4 (chunks 128 xs.length (es.map fun e => e.map fun q => (⟨q.v, FV.zero false, 0⟩ : StatSt)))
    (none, Flag.none)
  let scmd := (s.getD (statEmpty 0)).v
  let (mc, sc) := match cin with
    | some ws => (decodeFmt .fp32 (nth 0 ws 0), decodeFmt .fp32 (nth 0 ws 1))
    | none => (FV.inf true, FV.zero false)
  let m := maxV mc mb
  let fold (x : FV) : Res :=
    if eqV x m.v then ⟨FV.one, Flag.none⟩
    else let d := add32 x m.v.neg; let r := exp32 d.v; ⟨r.v, d.fl ||| r.fl⟩
  let fo := fold mc
  let fn := fold mb
  let t := mul32 scmd fn.v
  let sres := (fmaV .rne sc fo.v t.v).round .fp32 .rne
  { recw := [f32 m.v, f32 sres.v, f32 fo.v, f32 fn.v], carry := padWords [f32 m.v, f32 sres.v]
    e := es.map fun e => match e with | some q => q.v | none => FV.zero false
    fl := fe ||| fs ||| m.fl ||| fo.fl ||| fn.fl ||| t.fl ||| sres.fl }

/-- R206 to R208: the checks of VSTAT. -/
def ChainBody.statCmdOk (b : ChainBody) (c : Cmd512) (d0 d1 d2 s0 s1 : Desc) : Bool :=
  let g := SegCtl.stat (nth 0 b.steps 7)
  let u := Hdr.descUse c
  let one := bitAt u 1
  let two := bitAt u 2
  let emit := g.b6
  bitAt u 0 && (two || g.cout) && b.mapOk && b.stepsOk .scan && b.map.getLast? == some 7 && b.rnd ≤ 4
    && g.op ≤ 5 && b.work == 0 && g.level < d0.levels
    && (!emit || (g.op == 4 && one))
    && (g.op != 4 || segSize d0 g.level ≤ 4096)
    && (!(g.cin || g.cout) || g.cbase + segCount d0 g.level ≤ 512)
    && slotOk d0 s0 b.fmt0 true false
    && (!one || (slotOk d1 s1 (if emit then b.fmtOut else b.fmt1) true emit && d0.positions == d1.positions))
    && (!two || (d2.ok 32 && !d2.rstore && !d2.scaleUse && d2.positions == segCount d0 g.level * statRecWords g.op))
    && b.pass != 3 && (b.pass != 2 || (b.fmt0 == b.fmtOut && (!emit || d0.scaleUse == d1.scaleUse)))

/-- R192 to R194, R206, R207: plan of VSTAT. -/
def ChainBody.statPlan (b : ChainBody) (c : Cmd512) (d0 d1 d2 s0 s1 : Desc) : VePlan :=
  let g := SegCtl.stat (nth 0 b.steps 7)
  let one := bitAt (Hdr.descUse c) 1
  let emit := g.b6
  let v := b.tWeight none + if g.op = 4 then 1 else 0
  let e := chainE b.work v
  let n := d0.positions
  let sz := segSize d0 g.level
  let rho := if g.op = 4 then ceilDiv sz 64 else 0
  let lc := chainLc b.p 1 (if v > 0 then 8 else 0) (b2n (emit && blockOut b.fmtOut d1)) rho
  let i0 := mkStream 0 false d0 (scaleOf d0 s0) b.fmt0 (isGx8 b.fmt0 d0) (slotWidth e d0) 0
  let i1 := if one && !emit then [mkStream 1 false d1 (scaleOf d1 s1) b.fmt1 (isGx8 b.fmt1 d1) (slotWidth e d1) 0] else []
  let o1 := if emit then [mkStream 1 true d1 (scaleOf d1 s1) b.fmtOut (isGx8 b.fmtOut d1) (slotWidth e d1) 0] else []
  let o2 := if bitAt (Hdr.descUse c) 2 then [mkStream 2 true d2 none .int32 false 1 0] else []
  let r := (streamBeats e n (i0 :: i1)).toArray
  let rowLast := fun q => (List.range sz).foldl (fun m j => max m (r.getD (q * sz + j) 0)) 0
  let w := statRecWords g.op
  let s := streamLen (ceilDiv n e) (i0 :: i1)
    (o1.map (fun o => (o, fun k => r.getD k 0)) ++ o2.map (fun o => (o, fun k => rowLast (k / w))))
  let (rd, wr) := carryBeats g.cin g.cout g.cbase (segCount d0 g.level) sz lc r
  { streams := (i0 :: i1) ++ placeOuts s lc (o1 ++ o2), nIn := 1 + i1.length, s, latency := s + lc, carryRd := rd, carryWr := wr }

/-- VSTAT: the pre-map, then each row's statistic (R206 to R214). -/
def ChainBody.runStat (b : ChainBody) (c : Cmd512) (p : VePlan) (x : VeCtx) (ls : List Latch) : VeOut :=
  match p.streams with
  | i0 :: rest =>
    let g := SegCtl.stat (nth 0 b.steps 7)
    let emit := g.b6
    let i1 := if p.nIn = 2 then rest.head? else none
    let os := p.streams.drop p.nIn
    let o1 := if emit then os.head? else none
    let l0 := lanesOr (some i0) (nth [] ls 0)
    let l1 := i1.map fun s => lanesOr (some s) (nth [] ls 1)
    let oa := match o1 with | some s => outActs s (nth [] ls p.nIn) | none => #[]
    let outAct := fun k => match o1 with | some _ => oa.getD k false | none => true
    let els := b.runChain (x.grain.rc (rndOf b.rnd) false) none true
      (b.enter i0.d.seq l0 i0.gx8 l1 (match i1 with | some s => s.gx8 | none => false) outAct)
    let ibase := nth 0 b.k 2
    let sz := segSize i0.d g.level
    let rows := chunks sz (segCount i0.d g.level) els
    let res := numberFrom (fun q (es : List El) =>
      let xs := es.map fun e => if e.act then some (decodeFmt .fp32 (nth 0 e.t 0)) else none
      let cin := if g.cin then some ((nth none x.carry q).getD [0, 0, 0, 0]) else none
      if g.op = 4 then lseRow cin xs else statRow g.op ibase cin xs) 0 rows
    let recs := (res.flatMap RowOut.recw).toArray
    let es := (els.zip (res.flatMap RowOut.e)).map fun (e, v) =>
      (⟨e.act, v, x.grain.rc (rndOf b.rnd) b.sat e.k, true⟩ : OutEl)
    let (ou1, f1) := match o1 with
      | some s =>
        let (u, f) := convertOut b.fmtOut s.gx8 s.d (b.passBits l0) es (ownEnc b.fmtOut s.gx8 0)
        ([u], f)
      | none => ([], Flag.none)
    let ou2 := if bitAt (Hdr.descUse c) 2 then
        match os.getLast? with
        | some s =>
          let ra := outActs s (nth [] ls (p.streams.length - 1))
          [⟨s.d.seq.map fun q => posWrite s.d none (ra.getD q.k false) q (some (recs.getD q.k 0)), [], []⟩]
        | none => []
      else ([] : List Outs)
    let n := (els.filter El.act).length
    let w := b.tWeight none
    { VeOut.empty with
      outs := ou1 ++ ou2
      carry := if g.cout then numberFrom (fun q (r : RowOut) => (g.cbase + q, r.carry)) 0 res else []
      fl := res.foldl (fun f r => f ||| r.fl) (els.foldl (fun f e => f ||| e.fl) f1)
      elems := n, evals := n * w + (if g.op = 4 then n + 2 * rows.length else 0)
      compat := if w == 2 then n else 0, segs := rows.length }
  | [] => VeOut.empty

/-! ### RMSNORM (R230 to R233) -/

structure RmsBody where
  fmtX   : Fmt
  fmtG   : Fmt
  fmtOut : Fmt
  rnd    : Nat
  sat    : Bool
  pass   : Nat
  level  : Nat
  compat : Bool
  cout   : Bool
  cbase  : Nat
  eps    : Nat
  passV  : Nat
  deriving DecidableEq, Repr

def RmsBody.ofCmd (c : Cmd512) : RmsBody :=
  { fmtX := Fmt.ofCode (cb c 16 0 4), fmtG := Fmt.ofCode (cb c 16 4 4), fmtOut := Fmt.ofCode (cb c 17 0 4)
    rnd := cb c 17 4 3, sat := cb c 17 7 1 == 1, pass := cb c 18 0 2, level := cb c 18 2 3, compat := cb c 18 5 1 == 1
    cout := cb c 18 6 1 == 1, cbase := cb c 20 0 9, eps := cb c 24 0 32, passV := cb c 28 0 32 }

/-- Formats of R232. -/
def rmsFmtOk (f : Fmt) : Bool := f == .fp32 || f == .bf16 || f == .fp16 || f == .e4m3 || f == .e5m2 || f.isMx

/-- R230, R232: the checks of RMSNORM. -/
def RmsBody.ok (b : RmsBody) (c : Cmd512) (d0 d1 d2 s0 s1 s2 : Desc) : Bool :=
  let u := Hdr.descUse c
  let one := bitAt u 1
  let e := decodeFmt .fp32 b.eps
  bitAt u 0 && bitAt u 2 && rmsFmtOk b.fmtX && rmsFmtOk b.fmtG && rmsFmtOk b.fmtOut && b.rnd ≤ 4
    && e.isFinite && (!e.sign || e.isZero) && b.level < d0.levels
    && segSize d0 b.level ≥ 2 && segSize d0 b.level ≤ 16384
    && b.pass != 3 && (b.pass != 2 || b.fmtX == b.fmtOut)
    && (!b.cout || b.cbase + segCount d0 b.level ≤ 512)
    && slotOk d0 s0 b.fmtX false false && (!one || slotOk d1 s1 b.fmtG false false) && slotOk d2 s2 b.fmtOut false true
    && d0.positions == d2.positions && (!one || d0.positions == d1.positions)

/-- R233: plan of RMSNORM: every element's stream beat is that of the last of its row. -/
def RmsBody.plan (b : RmsBody) (c : Cmd512) (d0 d1 d2 s0 s1 s2 : Desc) : VePlan :=
  let e := 128
  let i0 := mkStream 0 false d0 (scaleOf d0 s0) b.fmtX false (slotWidth e d0) 0
  let i1 := if bitAt (Hdr.descUse c) 1 then [mkStream 1 false d1 (scaleOf d1 s1) b.fmtG false (slotWidth e d1) 0] else []
  let o := mkStream 2 true d2 (scaleOf d2 s2) b.fmtOut false (slotWidth e d2) 0
  let lc := 21 + 2 * b2n (blockOut b.fmtOut d2)
  let n := d0.positions
  let sz := segSize d0 b.level
  let r0 := (streamBeats e n (i0 :: i1)).toArray
  let rOf := fun k => r0.getD (k / sz * sz + sz - 1) 0
  let s := streamLen (ceilDiv n e) (i0 :: i1) [(o, rOf)]
  { streams := (i0 :: i1) ++ placeOuts s lc [o], nIn := 1 + i1.length, s, latency := s + lc, carryRd := []
    carryWr := if b.cout then (List.range (segCount d0 b.level)).map fun q => (lc - 1 + rOf (q * sz), b.cbase + q, q) else [] }

/-- One row of R231: outputs by position, carry words when c > 0, status bits. -/
def rmsRow (eps : FV) (compat : Bool) (xs : List (Bool × Bool × FV × FV)) (gain : Bool) :
    List FV × Option (List (Option Nat)) × Fl :=
  let leaves := xs.map fun q => if q.1 then some (statLeaf 1 0 0 q.2.2.1) else none
  let lf := leaves.foldl (fun f l => match l with | some q => f ||| q.2 | none => f) Flag.none
  let (s, fs) := statBlocks 1 (chunks 128 xs.length (leaves.map fun l => l.map Prod.fst)) (none, lf)
  let c := (xs.filter fun q => q.1).length
  if c = 0 then (xs.map fun _ => FV.zero false, none, Flag.none)
  else
    let cf := roundTo .fp32 .rne (FV.ofNat c)
    let ms := (divV (s.getD (statEmpty 1)).v cf.v).round .fp32 .rne
    let v := add32 ms.v eps
    let r := sfuEval 6 compat v.v
    let ys := xs.map fun q =>
      let y := mul32 q.2.2.1 r.v
      if gain then let z := mul32 y.v q.2.2.2; (⟨z.v, y.fl ||| z.fl⟩ : Res) else y
    let fl := ((xs.zip ys).foldl (fun f q => if q.1.2.1 then f ||| q.2.fl else f) fs) ||| cf.fl ||| ms.fl ||| v.fl ||| r.fl
    (ys.map Res.v, some [some (f32 r.v), some (f32 ms.v), some c, some 0], fl)

def RmsBody.run (b : RmsBody) (p : VePlan) (x : VeCtx) (ls : List Latch) : VeOut :=
  match p.streams with
  | i0 :: rest =>
    match rest.getLast? with
    | none => VeOut.empty
    | some o =>
      let i1 := if p.nIn = 2 then rest.head? else none
      let l0 := lanesOr (some i0) (nth [] ls 0)
      let l1 := lanesOr i1 (nth [] ls 1)
      let oa := outActs o (nth [] ls (p.streams.length - 1))
      let els := numberFrom (fun k (l : Lane) =>
        let g := l1.getD k Lane.off
        let rx := roundTo .fp32 .rne (i0.value l)
        let rg := match i1 with | some s => roundTo .fp32 .rne (s.value g) | none => ⟨FV.one, Flag.none⟩
        let all := l.active && (i1.isNone || g.active) && oa.getD k false
        ((l.active, all, rx.v, rg.v),
          (if l.active then rx.fl else Flag.none) ||| (if all then rg.fl else Flag.none))) 0 l0.toList
      let sz := segSize i0.d b.level
      let rows := chunks sz (segCount i0.d b.level) (els.map Prod.fst)
      let res := rows.map fun r => (rmsRow (decodeFmt .fp32 b.eps) b.compat r i1.isSome, r.any fun q => q.1)
      let ys := res.flatMap fun r => r.1.1
      let live := (((rows.zip res).flatMap fun q => q.1.map fun _ => q.2.2)).toArray
      let xs := numberFrom (fun k (q : (Bool × Bool × FV × FV) × FV) =>
        (⟨q.1.2.1, q.2, x.grain.rc (rndOf b.rnd) b.sat k, live.getD k false⟩ : OutEl)) 0 ((els.map Prod.fst).zip ys)
      let pass (k : Nat) : Option Nat :=
        if !live.getD k false then none
        else match b.pass with
          | 1 => some (encodeFmt b.fmtOut (roundTo b.fmtOut ⟨.rne, 0, true⟩ (decodeFmt .fp32 b.passV)).v)
          | 2 => some (l0.getD k Lane.off).raw
          | _ => none
      let (outs, fo) := convertOut b.fmtOut false o.d pass xs (ownEnc b.fmtOut false 0)
      let nr := (res.filter fun r => r.2).length
      { VeOut.empty with
        outs := [outs]
        carry := if b.cout then (numberFrom (fun q (r : (List FV × Option (List (Option Nat)) × Fl) × Bool) =>
          r.1.2.1.map fun w => (b.cbase + q, w)) 0 res).filterMap id else []
        fl := res.foldl (fun f r => f ||| r.1.2.2) (els.foldl (fun f e => f ||| e.2) fo)
        elems := (els.filter fun e => e.1.2.1).length, evals := nr * (if b.compat then 2 else 1)
        compat := if b.compat then nr else 0, rmsRows := nr }
  | [] => VeOut.empty

/-! ### VGRAIN (R374 to R377) -/

structure GrainBody where
  mode   : Nat
  fmtOut : Fmt
  rnd    : Nat
  sat    : Bool
  tid    : Nat
  ibase  : Nat
  pkeep  : Nat
  deriving DecidableEq, Repr

def GrainBody.ofCmd (c : Cmd512) : GrainBody :=
  { mode := cb c 16 0 3, fmtOut := Fmt.ofCode (cb c 17 0 4), rnd := cb c 17 4 3, sat := cb c 17 7 1 == 1
    tid := cb c 20 0 32, ibase := cb c 24 0 48, pkeep := cb c 32 0 24 }

/-- R376: formats of a mode. -/
def grainFmtOk (mode : Nat) (f : Fmt) : Bool :=
  match mode with
  | 0 => true
  | 1 => f == .int32
  | 3 => f == .uint8 || f == .int8 || f == .fp32 || f == .bf16 || f == .fp16
  | _ => f == .fp32 || f == .bf16 || f == .fp16 || f == .e4m3 || f == .e5m2

/-- R375, R376: the checks of VGRAIN. -/
def GrainBody.ok (b : GrainBody) (c : Cmd512) (d2 : Desc) : Bool :=
  b.mode ≤ 4 && b.rnd ≤ 3 && grainFmtOk b.mode b.fmtOut
    && (if b.mode = 0 then Hdr.descUse c == 0
        else Hdr.descUse c == 4 && d2.ok b.fmtOut.bits && !d2.rstore && !d2.scaleUse)

def GrainBody.plan (b : GrainBody) (d2 : Desc) : VePlan :=
  if b.mode = 0 then { streams := [], nIn := 0, s := 1, latency := 1, carryRd := [], carryWr := [] }
  else elementPlan d2.positions (if b.mode = 4 then 16 else 128) (if b.mode = 4 then 38 else 14) []
    [mkStream 2 true d2 none b.fmtOut false (slotWidth (if b.mode = 4 then 16 else 128) d2) 0]

/-- R376: the value of one element from its generator words. -/
def GrainBody.value (b : GrainBody) (g : GrainSt) : Res :=
  let h := g.x0 >>> 8
  match b.mode with
  | 1 => ⟨FV.ofInt (signed 32 g.x0), Flag.none⟩
  | 2 => ⟨.fin false h (-24), Flag.none⟩
  | 3 => ⟨if h < b.pkeep then FV.one else FV.zero false, Flag.none⟩
  | _ =>
    let l := sfuNative 2 (.fin false (h + 1) (-24))
    let a := mul32 (.fin true 2 0) l.v
    let q := sfuNative 5 a.v
    let ang := mul32 (decodeFmt .fp32 0x40C90FDB) (.fin false (g.x1 >>> 8) (-24))
    let co := sfuNative 15 ang.v
    let r := mul32 q.v co.v
    ⟨r.v, l.fl ||| a.fl ||| q.fl ||| ang.fl ||| co.fl ||| r.fl⟩

/-- R376: what a VGRAIN other than SETID writes. -/
def GrainBody.run (b : GrainBody) (p : VePlan) (x : VeCtx) (ls : List Latch) : VeOut :=
  match p.streams with
  | [o] =>
    let oa := outActs o (nth [] ls 0)
    let es := o.d.seq.map fun q =>
      let act := oa.getD q.k false
      let r := b.value (grain x.grain.seed x.grain.step (b.ibase + q.k) b.tid)
      (act, r, (⟨act, r.v, ⟨rndOf b.rnd, 0, b.sat⟩, true⟩ : OutEl), q.pad)
    let (outs, fo) := convertOut b.fmtOut false o.d (fun _ => none) (es.map fun e => e.2.2.1) (fun _ _ => ⟨0, [], Flag.none⟩)
    let n := (es.filter Prod.fst).length
    { VeOut.empty with
      outs := [outs]
      fl := es.foldl (fun f e => if e.1 && !e.2.2.2 then f ||| e.2.1.fl else f) fo
      elems := n, evals := if b.mode = 4 then 3 * n else 0 }
  | _ => VeOut.empty

end Sys2Proof.Machine
end

