-- ==== Sys2Proof/Machine/Vred.lean ====
section
/-!
DEFINITION. Sys2Proof/Machine/Vred.lean: VRED (12_gradient_reduction.md, R347 to R349, R354, R355, R363 to R365): leaves,
nodes, the root and the fold, computed block by block.
-/
namespace Sys2Proof.Machine

/-- The VRED body (R363). -/
structure RedBody where
  mode     : Nat
  kindL    : Nat
  kindR    : Nat
  compress : Bool
  avg      : Bool
  right    : Bool
  resBf    : Bool
  recOff   : Nat
  agrOff   : Nat
  nextOff  : Nat
  deriving DecidableEq, Repr

def RedBody.ofCmd (c : Cmd512) : RedBody :=
  { mode := cb c 16 0 2, kindL := cb c 16 2 2, kindR := cb c 16 4 2
    compress := cb c 17 0 1 == 1, avg := cb c 17 1 1 == 1, right := cb c 17 2 1 == 1, resBf := cb c 17 3 1 == 1
    recOff := cb c 20 0 22, agrOff := cb c 24 0 22, nextOff := cb c 28 0 22 }

/-- Blocks a slot of a kind covers: 0 GX8, 1 compressed, otherwise elements by 32 (R364). -/
def redBlocks (kind : Nat) (d : Desc) : Nat :=
  match kind with | 1 => d.positions | _ => ceilDiv d.positions 32

/-- R364: two slots cover the same number of elements. A compressed slot names its blocks only, so it agrees with every
number of elements that takes as many. -/
def redAgree (kind1 : Nat) (d1 : Desc) (kind2 : Nat) (d2 : Desc) : Bool :=
  if kind1 = 1 ∨ kind2 = 1 then redBlocks kind1 d1 == redBlocks kind2 d2 else d1.positions == d2.positions

/-- R364: no mask, no pads and no RSTORE. -/
def Desc.plain (d : Desc) : Bool := !d.maskBounds && !d.maskTensor && d.noPads && !d.rstore

/-- R364: a slot of a kind. -/
def redSlotOk (kind : Nat) (d s : Desc) : Bool :=
  d.plain &&
  match kind with
  | 0 => d.ok 8 && d.scaleUse && scaleDescOk true d s && s.plain && d.scaleCount == ceilDiv d.positions 32
  | 1 => d.ok 32 && d.scaleUse && s.ok 16 && s.plain && s.levels == d.levels && s.lv.map Level.count == d.lv.map Level.count
  | _ => d.ok 32 && !d.scaleUse

/-- Result slot of FINAL: RESFMT elements. -/
def redResultOk (bf : Bool) (d : Desc) : Bool :=
  d.plain && d.ok (if bf then 16 else 32) && !d.scaleUse

/-- R363, R364: the checks of VRED. -/
def RedBody.ok (b : RedBody) (c : Cmd512) (d0 d1 d2 s0 s1 s2 : Desc) : Bool :=
  let u := Hdr.descUse c
  b.recOff % 128 == 0 && b.agrOff % 128 == 0 && b.nextOff % 128 == 0 && b.kindL != 3 && b.kindR != 3 &&
  match b.mode with
  | 0 =>
    (u == 7 || (u == 5 && !b.compress)) && b.kindL == 2 && redSlotOk 2 d0 s0
      && (u == 5 || (redSlotOk 2 d1 s1 && d0.positions == d1.positions))
      && redSlotOk (if b.compress then 1 else 0) d2 s2 && redAgree 2 d0 (if b.compress then 1 else 0) d2
  | 1 =>
    u == 7 && b.kindL ≤ 1 && b.kindR ≤ 1 && redSlotOk b.kindL d0 s0 && redSlotOk b.kindR d1 s1 && redSlotOk 0 d2 s2
      && redAgree b.kindL d0 0 d2 && redAgree b.kindR d1 0 d2 && redAgree b.kindL d0 b.kindR d1
  | 2 =>
    u == (if b.right then 7 else 5) && b.kindL ≤ 2 && (b.kindL != 2 || !b.right) && redSlotOk b.kindL d0 s0
      && (!b.right || (b.kindR ≤ 1 && redSlotOk b.kindR d1 s1 && redAgree b.kindR d1 2 d2))
      && redResultOk b.resBf d2 && redAgree b.kindL d0 2 d2
  | _ => u == 3 && b.kindL ≤ 1 && redSlotOk b.kindL d0 s0 && redSlotOk 2 d1 s1 && redAgree b.kindL d0 2 d1

/-- A contiguous array of `n` elements of `bits` (16, or 8 for a record) at a scratchpad offset. -/
def flatDesc (off n esize : Nat) : Desc :=
  { base := off, esize, levels := 1, swz := 0, padw := false, rstore := false, maskBounds := false, maskTensor := false
    lv := [⟨n, if esize = 2 then 1 else 2, 0, 0, 0⟩], padValue := 0, maskBase := 0, scaleEntry := 0, scaleUse := false, space := padSpace }

/-- A slot of a kind as a stream (R364, R365). -/
def redStream (kind slot : Nat) (wr : Bool) (d s : Desc) : Stream :=
  match kind with
  | 0 => mkStream slot wr d (some s) .e5m2 true 2 0
  | 1 => mkStreamIdent slot wr d (some s) 2 0
  | _ => mkStream slot wr d none .fp32 false 4 0

/-- The further streams of R365: the record, the agreed words, the next agreed words. -/
def recStream (b : RedBody) : Stream := mkStream 0 false (flatDesc b.recOff 128 2) none .int8 false 1 0
def agrStream (b : RedBody) (n : Nat) : Stream := mkStream 0 false (flatDesc b.agrOff n 3) none .int16 false 1 0
def nextStream (b : RedBody) (n : Nat) : Stream := mkStream 2 true (flatDesc b.nextOff n 3) none .int16 false 1 0

/-- Blocks of the command. -/
def RedBody.nBlocks (b : RedBody) (d0 : Desc) : Nat := redBlocks b.kindL d0

def RedBody.hasRec (b : RedBody) : Bool := b.mode != 0
def RedBody.hasAgr (b : RedBody) : Bool := (b.mode == 0 && !b.compress) || b.mode == 1 || b.mode == 2
/-- Slot 1 is read: the error memory only with COMPRESS 1 (R347), the right input of a node. -/
def RedBody.hasRight (b : RedBody) : Bool := (b.mode == 0 && b.compress) || b.mode == 1 || (b.mode == 2 && b.right) || b.mode == 3

/-- Input streams in order: slot 0, slot 1 where read, the record, the agreed words. -/
def RedBody.ins (b : RedBody) (d0 d1 s0 s1 : Desc) : List Stream :=
  [redStream b.kindL 0 false d0 s0]
    ++ (if b.hasRight then [redStream (if b.mode = 1 ∨ b.mode = 2 then b.kindR else 2) 1 false d1 s1] else [])
    ++ (if b.hasRec then [recStream b] else [])
    ++ (if b.hasAgr then [agrStream b (b.nBlocks d0)] else [])

/-- Output streams in order. -/
def RedBody.outsOf (b : RedBody) (d0 d1 d2 s2 : Desc) : List Stream :=
  match b.mode with
  | 0 => (if b.compress then [redStream 2 1 true d1 d1] else []) ++ [redStream (if b.compress then 1 else 0) 2 true d2 s2]
  | 1 => [redStream 0 2 true d2 s2]
  | 2 => [mkStream 2 true d2 none (if b.resBf then .bf16 else .fp32) false (if b.resBf then 2 else 4) 0, nextStream b (b.nBlocks d0)]
  | _ => [redStream 2 1 true d1 d1]

/-- R365: Lc by mode. -/
def RedBody.lc (b : RedBody) : Nat := match b.mode with | 0 => 12 | 1 => 10 | 2 => 14 | _ => 8

/-- Elements a position of a stream stands for: its block's for words, itself otherwise. -/
def redElemOf (s : Stream) (bits16 : Bool) (k : Nat) : List Nat :=
  if s.ident || bits16 then (List.range 32).map (fun i => 32 * k + i) else [k]

/-- R365, R193: plan of VRED over n = 32·B elements at 128 a beat. -/
def RedBody.plan (b : RedBody) (d0 d1 d2 s0 s1 s2 : Desc) : VePlan :=
  let n := 32 * b.nBlocks d0
  let ins := b.ins d0 d1 s0 s1
  let outs := b.outsOf d0 d1 d2 s2
  let gs := ins.map fun s => (s, s.groupOf.toArray)
  let r := ((List.range n).map fun k => gs.foldl (fun m q =>
    if q.1.d.base = b.recOff ∧ q.1.fmt = .int8 then m
    else max m (q.2.getD (if q.1.ident || q.1.fmt == .int16 then k / 32 else k) 0)) (k / 128)).toArray
  let rOf (s : Stream) (k : Nat) : Nat := (redElemOf s (s.fmt == .int16) k).foldl (fun m e => max m (r.getD e 0)) 0
  let s := streamLen (ceilDiv n 128) ins (outs.map fun o => (o, rOf o))
  { streams := ins ++ placeOuts s b.lc outs, nIn := ins.length, s, latency := s + b.lc, carryRd := [], carryWr := [] }

/-! ### Blocks -/

/-- A decoded input block: values of its elements, its scale when it is GX8 (R348), and the status bits its decoding
raises (R86, R87, R365). -/
structure InBlock where
  vals  : List FV
  scale : Option Nat
  fl    : Fl
  deriving DecidableEq, Repr

/-- Block `b` of a slot of a kind out of its lanes (R348). -/
def redBlock (kind : Nat) (ls : Array Lane) (b : Nat) : InBlock :=
  match kind with
  | 1 =>
    let l := ls.getD b Lane.off
    let m := decodeFmt .bf16 l.scale
    { vals := (List.range 32).map fun i => if m.isNan then .nan false else if bitAt l.raw i then m.neg else m
      scale := none, fl := sigFl m }
  | 0 =>
    let rs := (List.range 32).map fun i =>
      let l := ls.getD (32 * b + i) Lane.off
      roundTo .fp32 .rne (gx8Value l.scale l.raw)
    { vals := rs.map Res.v, scale := some (field (ls.getD (32 * b) Lane.off).scale 0 8)
      fl := rs.foldl (fun f r => f ||| r.fl) Flag.none }
  | _ =>
    let rs := (List.range 32).map fun i => roundTo .fp32 .rne (decodeFmt .fp32 (ls.getD (32 * b + i) Lane.off).raw)
    { vals := rs.map Res.v, scale := none, fl := rs.foldl (fun f r => f ||| r.fl) Flag.none }

/-- `a ≤ 57,344 × 2^(s − 127)` on magnitudes (R349). -/
def fitsScale (s : Nat) (a : FV) : Bool :=
  match a with
  | .fin _ m e => magLe m e 57344 ((s : Int) - 127)
  | _ => false

/-- R349: raise the scale until the largest element fits, at most to 254. -/
def escalate (amax : FV) : Nat → Nat → Nat
  | 0, s => s
  | fuel + 1, s => if s < 254 ∧ !fitsScale s amax then escalate amax fuel (s + 1) else s

/-- Largest magnitude of finite values. -/
def amaxOf (zs : List FV) : FV := zs.foldl (fun m z => if cmpV m z.abs == -1 then z.abs else m) (FV.zero false)

/-- A combined block: z, the scale before escalation, status bits. -/
structure ZBlock where
  z   : List FV
  s   : Nat
  bad : Bool
  fl  : Fl
  deriving DecidableEq, Repr

/-- R349 up to z: combine the inputs under the agreed scale. -/
def combineBlock (agreed : Nat) (l : InBlock) (r : Option InBlock) : ZBlock :=
  let s := max (field agreed 0 8) (max (l.scale.getD 0) (match r with | some x => x.scale.getD 0 | none => 0))
  let zr : List Res := match r with
    | some x => (l.vals.zip x.vals).map fun q => add32 q.1 q.2
    | none => l.vals.map fun v => ⟨v, Flag.none⟩
  let z := zr.map Res.v
  { z, s, bad := s == 255 || z.any (fun v => !v.isFinite)
    fl := zr.foldl (fun f q => f ||| q.fl) (l.fl ||| (match r with | some x => x.fl | none => Flag.none)) }

/-- One encoded GX8 block of a node with its counts (R349). -/
structure NodeBlock where
  elems : List Nat
  word  : Nat
  fl    : Fl
  esc   : Nat
  satn  : Nat
  nan   : Nat
  deriving DecidableEq, Repr

/-- R349: encode a combined block. DESIGN CHOICE (log 91): the scale word of a NaN block has HEADROOM 0 and ESC 0. -/
def encodeNode (agreed : Nat) (zb : ZBlock) : NodeBlock :=
  if zb.bad then ⟨List.replicate 32 0, gx8Word 255 0 false, zb.fl ||| Flag.invalid, 0, 0, 1⟩
  else
    let amax := amaxOf zb.z
    let s := escalate amax 255 zb.s
    let es := zb.z.map fun v => roundTo .e5m2 ⟨.rne, 0, true⟩ (v.scale (127 - (s : Int)))
    { elems := es.map fun r => encodeFmt .e5m2 r.v
      word := gx8Word s (field agreed 8 2) (s > field agreed 0 8)
      fl := es.foldl (fun f r => f ||| r.fl) zb.fl
      esc := if s > zb.s then 1 else 0, satn := if fitsScale s amax then 0 else 1, nan := 0 }

/-- R347, COMPRESS 1: sign word, magnitude and error memory of one block of `v`. -/
structure LeafBlock where
  signs : Nat
  mag   : Nat
  err   : List FV
  fl    : Fl
  deriving DecidableEq, Repr

def leafBlock (vs : List FV) : LeafBlock :=
  let signs := sumNat (numberFrom (fun i (v : FV) => if v.sign then 2 ^ i else 0) 0 vs)
  if vs.any (fun v => !v.isFinite) then ⟨signs, 0x7FC0, vs.map fun _ => FV.zero false, Flag.invalid⟩
  else
    let (t, f1) := treeTotal (fun x y => let r := add32 x y; (r.v, r.fl)) (fun i => (vs.map (some ∘ FV.abs)).getD i none) 7 0
    let q := (divV (t.getD (FV.zero false)) (FV.ofNat vs.length)).round .fp32 .rne
    let m := roundTo .bf16 .rne q.v
    let es := vs.map fun v => add32 v (if v.sign then m.v else m.v.neg)
    { signs, mag := encodeFmt .bf16 m.v, err := es.map Res.v
      fl := es.foldl (fun f r => f ||| r.fl) (f1 ||| q.fl ||| m.fl) }

/-- R355: next agreed word of a block, from z alone. -/
def nextWord (agreed : Nat) (zb : ZBlock) : Nat :=
  if zb.z.any (fun v => !v.isFinite) then agreed % 1024
  else
    match blockLog zb.z with
    | none => agreed % 1024
    | some l => gx8Word (clampInt (l - 15 + 127 + 2) 0 254).toNat 2 false

/-- R355: result elements of a block. -/
def resultBlock (bf avg : Bool) (count : Nat) (zb : ZBlock) : List (Nat × Fl) :=
  let f := if bf then Fmt.bf16 else Fmt.fp32
  let cnt := (roundTo .fp32 .rne (FV.ofNat count)).v
  zb.z.map fun z =>
    if zb.bad then (encodeFmt f (.nan false), Flag.none)
    else
      let r : Res := if avg then (divV z cnt).round .fp32 .rne else ⟨z, Flag.none⟩
      let t := r.round f .rne
      (encodeFmt f t.v, t.fl)

/-- What VRED computes from its latched lines. -/
def RedBody.run (b : RedBody) (p : VePlan) (ls : List Latch) : VeOut :=
  match p.streams with
  | i0 :: _ =>
    let lane (i : Nat) : Array Lane := match p.streams[i]? with | some s => (s.lanes (nth [] ls i)).toArray | none => #[]
    let l0 := lane 0
    let l1 := if b.hasRight then lane 1 else #[]
    let recIdx := if b.hasRight then 2 else 1
    let recL := if b.hasRec then lane recIdx else #[]
    let recb (i : Nat) : Nat := (recL.getD i Lane.off).raw
    let agrIdx := recIdx + (if b.hasRec then 1 else 0)
    let agr := if b.hasAgr then lane agrIdx else #[]
    let agrW (i : Nat) : Nat := (agr.getD i Lane.off).raw
    let nb := b.nBlocks i0.d
    let n := i0.d.positions
    let inclR := bitAt (recb 8) 0
    let selfIncl := bitAt (recb 8) 1
    let count := recb 0 + 256 * recb 1 + 65536 * recb 2
    match b.mode with
    | 0 =>
      let g (k : Nat) : FV := decodeFmt .fp32 (l0.getD k Lane.off).raw
      let vAt (k : Nat) : Res :=
        if b.compress then add32 (g k) (decodeFmt .fp32 (l1.getD k Lane.off).raw) else roundTo .fp32 .rne (g k)
      let blockVs (j : Nat) : List Res := ((List.range 32).filter fun i => 32 * j + i < n).map fun i => vAt (32 * j + i)
      let vfl := (List.range nb).foldl (fun f j => (blockVs j).foldl (fun f r => f ||| r.fl) f) Flag.none
      if b.compress then
        let bs := (List.range nb).map fun j => leafBlock ((blockVs j).map Res.v)
        { VeOut.empty with
          outs := [⟨(bs.flatMap fun x => x.err).map fun e => some (f32 e), [], []⟩,
                   ⟨bs.map fun x => some x.signs, bs.map fun x => some x.mag, []⟩]
          fl := bs.foldl (fun f x => f ||| x.fl) vfl, elems := n }
      else
        let bs := (List.range nb).map fun j =>
          let vs := (List.range 32).map fun i => if 32 * j + i < n then (vAt (32 * j + i)).v else FV.zero false
          encodeNode (agrW j) (combineBlock (agrW j) ⟨vs, none, Flag.none⟩ none)
        { VeOut.empty with
          outs := [⟨(bs.flatMap NodeBlock.elems).map some, bs.map fun x => some x.word, []⟩]
          fl := bs.foldl (fun f x => f ||| x.fl) vfl, elems := n
          redEsc := sumNat (bs.map NodeBlock.esc), redSat := sumNat (bs.map NodeBlock.satn), redNan := sumNat (bs.map NodeBlock.nan) }
    | 1 =>
      let bs := (List.range nb).map fun j =>
        encodeNode (agrW j) (combineBlock (agrW j) (redBlock b.kindL l0 j) (if inclR then some (redBlock b.kindR l1 j) else none))
      { VeOut.empty with
        outs := [⟨(bs.flatMap NodeBlock.elems).map some, bs.map fun x => some x.word, []⟩]
        fl := bs.foldl (fun f x => f ||| x.fl) Flag.none, elems := 32 * nb
        redEsc := sumNat (bs.map NodeBlock.esc), redSat := sumNat (bs.map NodeBlock.satn), redNan := sumNat (bs.map NodeBlock.nan) }
    | 2 =>
      let zs := (List.range nb).map fun j =>
        (combineBlock (agrW j) (redBlock b.kindL l0 j) (if b.right && inclR then some (redBlock b.kindR l1 j) else none), agrW j)
      let rs := zs.flatMap fun q => resultBlock b.resBf b.avg count q.1
      { VeOut.empty with
        outs := [⟨rs.map fun r => some r.1, [], []⟩, ⟨zs.map fun q => some (nextWord q.2 q.1), [], []⟩]
        fl := rs.foldl (fun f r => f ||| r.2) (zs.foldl (fun f q => f ||| q.1.fl) Flag.none), elems := 32 * nb }
    | _ =>
      let ne := match p.streams[1]? with | some s => s.d.positions | none => 0
      let ins := (List.range nb).map fun j => redBlock b.kindL l0 j
      let bs := ins.flatMap InBlock.vals
      let leafFl := ins.foldl (fun f x => f ||| x.fl) Flag.none
      let es := (List.range ne).map fun k =>
        add32 (decodeFmt .fp32 (l1.getD k Lane.off).raw) (nth (FV.zero false) bs k)
      if selfIncl then { VeOut.empty with outs := [⟨es.map fun _ => none, [], []⟩], elems := ne }
      else
        { VeOut.empty with
          outs := [⟨es.map fun r => some (f32 r.v), [], []⟩], fl := es.foldl (fun f r => f ||| r.fl) leafFl
          elems := ne, redFolds := 1 }
  | [] => VeOut.empty

end Sys2Proof.Machine
end

