-- ==== Sys2Proof/Machine/Timed.lean ====
section
/-!
DEFINITION. Sys2Proof/Machine/Timed.lean: the commands of the timed engines as one type: their checks (R106, R133), their
plan of accesses (R146, R155, R168, R194), and what they write from what their streams latched.
-/
namespace Sys2Proof.Machine

/-- A timed engine's command by its opcode (R126, R155). -/
inductive TOp where
  | mq (b : MqBody)
  | map (b : ChainBody) (chisel : Bool)
  | cvt (b : CvtBody)
  | scan (b : ChainBody)
  | stat (b : ChainBody)
  | carry (b : CarryBody)
  | rms (b : RmsBody)
  | sfu (b : SfuBody)
  | red (b : RedBody)
  | grain (b : GrainBody)
  | tt (dirOut : Bool) (orient : Bool)
  deriving DecidableEq, Repr

def TOp.ofCmd (c : Cmd512) : Option TOp :=
  match Hdr.opcode c with
  | 0x080 => some (.map (ChainBody.ofCmd c) false)
  | 0x081 => some (.cvt (CvtBody.ofCmd c))
  | 0x082 => some (.scan (ChainBody.ofCmd c))
  | 0x083 => some (.stat (ChainBody.ofCmd c))
  | 0x084 => some (.carry (CarryBody.ofCmd c))
  | 0x085 => some (.rms (RmsBody.ofCmd c))
  | 0x086 => some (.sfu (SfuBody.ofCmd c))
  | 0x087 => some (.map (ChainBody.ofCmd c) true)
  | 0x088 => some (.red (RedBody.ofCmd c))
  | 0x089 => some (.grain (GrainBody.ofCmd c))
  | 0x0D0 => some (.tt false (bitAt (cb c 16 0 8) 0))
  | 0x0D1 => some (.tt true (bitAt (cb c 16 0 8) 0))
  | o => (MqOp.ofOpcode o).map fun op => .mq (MqBody.ofCmd op c)

/-- R240: the chisel slot a VCHISEL names. -/
def chiselSlot (c : Cmd512) : Nat := stepOp (nth 0 (ChainBody.ofCmd c).steps 6)

/-- R155: the checks of TTIN and TTOUT; SCALE_USE stays 0 (R148, log 41). -/
def ttOk (c : Cmd512) (d0 : Desc) : Bool :=
  Hdr.descUse c == 1 && d0.ok 0 && d0.positions == 4096 && (d0.esize == 0 || d0.esize == 2 || d0.esize == 3 || d0.esize == 4)
    && !d0.rstore && !d0.scaleUse

/-- Descriptors 0 to 2 and the scale descriptors of slots 0 to 2. -/
structure Descs where
  d0 : Desc
  d1 : Desc
  d2 : Desc
  s0 : Desc
  s1 : Desc
  s2 : Desc
  deriving DecidableEq, Repr

def Descs.ofList (l : List Desc1024) : Descs :=
  let d (i : Nat) : Desc := (Desc.ofBits (nth 0 l i)).onPad
  ⟨d 0, d 1, d 2, d 3, d 4, d 5⟩

/-- Step 2 of R106 for a timed command: its own fields and R133. -/
def TOp.ok (o : TOp) (c : Cmd512) (prog : Option ChiselProg) (x : Descs) : Bool :=
  match o with
  | .mq b => b.ok c x.d0 x.d1 x.d2 x.s0 x.s1 x.s2
  | .map b ch => b.mapCmdOk c ch prog x.d0 x.d1 x.d2 x.s0 x.s1 x.s2
  | .cvt b => b.ok c x.d0 x.d1 x.d2 x.s0 x.s2
  | .scan b => b.scanCmdOk c x.d0 x.d1 x.d2 x.s0 x.s1 x.s2
  | .stat b => b.statCmdOk c x.d0 x.d1 x.d2 x.s0 x.s1
  | .carry b => b.ok c x.d0 x.d2
  | .rms b => b.ok c x.d0 x.d1 x.d2 x.s0 x.s1 x.s2
  | .sfu b => b.ok c x.d0 x.d1 x.d2 x.s0 x.s1 x.s2
  | .red b => b.ok c x.d0 x.d1 x.d2 x.s0 x.s1 x.s2
  | .grain b => b.ok c x.d2
  | .tt _ _ => ttOk c x.d0

/-- R155: one slot at W 1, read from beat t or written from beat t + 3; D is the larger of its groups and Lt. -/
def ttPlan (dirOut : Bool) (d0 : Desc) : VePlan :=
  let st := mkStream 0 dirOut d0 none .int8 false 1 (if dirOut then 3 else 0)
  let d := max st.cost (4 * d0.ebits)
  { streams := [st], nIn := if dirOut then 0 else 1, s := d, latency := d + (if dirOut then 3 else 1), carryRd := [], carryWr := [] }

/-- The plan of a timed command: streams, issue interval, latency, carry accesses. -/
def TOp.plan (o : TOp) (c : Cmd512) (prog : Option ChiselProg) (x : Descs) : VePlan :=
  match o with
  | .mq b => let p := b.plan x.d0 x.d1 x.d2 x.s0 x.s1
             { streams := p.streams, nIn := p.streams.length - 1, s := p.s, latency := p.latency, carryRd := [], carryWr := [] }
  | .map b _ => b.mapPlan c prog x.d0 x.d1 x.d2 x.s0 x.s1 x.s2
  | .cvt b => b.plan x.d0 x.d1 x.d2 x.s0 x.s2
  | .scan b => b.scanPlan c x.d0 x.d1 x.d2 x.s0 x.s1 x.s2
  | .stat b => b.statPlan c x.d0 x.d1 x.d2 x.s0 x.s1
  | .carry b => b.plan x.d0 x.d2
  | .rms b => b.plan c x.d0 x.d1 x.d2 x.s0 x.s1 x.s2
  | .sfu b => b.plan x.d0 x.d1 x.d2 x.s0 x.s1 x.s2
  | .red b => b.plan x.d0 x.d1 x.d2 x.s0 x.s1 x.s2
  | .grain b => b.plan x.d2
  | .tt dirOut _ => ttPlan dirOut x.d0

/-- Which slots a stream's access rank within one engine: its slot first, then elements, scales and masks (R47). -/
def AccKind.rank : AccKind → Nat
  | .elem => 0 | .scale => 1 | .mask => 2

/-! ### The turntable's tile (R154, R157) -/

/-- Cell (row, column) of position `p` of a TTIN, and of a TTOUT (R155, R157). -/
def ttCell (dirOut orient : Bool) (p : Nat) : Nat × Nat :=
  if dirOut == orient then (p / 64, p % 64) else (p % 64, p / 64)

/-- Positions of tile line `i` for elements of `w` bits. -/
def ttLine (w i : Nat) : List Nat := (List.range (1024 / w)).map fun j => i * (1024 / w) + j

/-- The elements of a TTOUT from the lines it has read: one value per position. -/
def ttElems (l : List (Option Nat)) (w : Nat) : List Nat :=
  (List.range 4096).map fun p => nth 0 (toElems ((nth none l (p / (1024 / w))).getD 0)) (p % (1024 / w))
where
  toElems (v : Nat) : List Nat := (List.range (1024 / w)).map fun j => field v (j * w) w

/-- What a whole command leaves: for each written stream its values, status bits, carry entries and counts. -/
def TOp.run (o : TOp) (c : Cmd512) (p : VePlan) (x : VeCtx) (tileLines : List (Option Nat)) (ls : List Latch) : VeOut × Nat :=
  match o with
  | .mq b =>
    let r := b.run ⟨p.s, p.latency, p.streams⟩ ls
    ({ VeOut.empty with outs := [⟨r.outs, [], []⟩], fl := r.fl }, r.gated)
  | .map b ch => (b.runMap p x ch ls, 0)
  | .cvt b => (b.run p x ls, 0)
  | .scan b => (b.runScan p x ls, 0)
  | .stat b => (b.runStat c p x ls, 0)
  | .carry b => (b.run p x ls, 0)
  | .rms b => (b.run p x ls, 0)
  | .sfu b => (b.run p x ls, 0)
  | .red b => (b.run p ls, 0)
  | .grain b => (b.run p x ls, 0)
  | .tt true _ =>
    match p.streams with
    | [st] =>
      let es := (ttElems tileLines st.d.ebits).toArray
      let oa := outActs st (nth [] ls 0)
      ({ VeOut.empty with outs := [⟨st.d.seq.map fun q => posWrite st.d none (oa.getD q.k false) q (some (es.getD q.k 0)), [], []⟩] }, 0)
    | _ => (VeOut.empty, 0)
  | .tt false _ => (VeOut.empty, 0)

/-- Inactive positions of every slot of a command (PM_MASKED, R158). -/
def maskedCount (p : VePlan) (ls : List Latch) : Nat :=
  let per := numberFrom (fun i (st : Stream) => (st.slot, st.wr, st.d.seq.countP fun q => !activeOf st.d (st.latched (nth [] ls i)) q)) 0 p.streams
  -- the accumulator slot of an MQ command is read and written: its positions are counted once
  sumNat ((per.filter fun e => e.2.1 || !(per.any fun f => f.1 == e.1 && f.2.1)).map fun e => e.2.2)

end Sys2Proof.Machine
end

