-- ==== Sys2Proof/WellFormed.lean ====
section
/-!
DEFINITION. Sys2Proof/WellFormed.lean: which commands name units the module has (R19): regions 0 to 47, physical
clusters 0 to 8, queues 0 to 3, two vector engines and movers, contexts 0 to 15, dies D0 to D3, Eokoby ports 0 to 7. A write
of a register has no bound of its own on what it writes: a field takes the low bits of its operand, and the register's rule
says what a number without a unit does.
-/
namespace Sys2Proof

/-- A party is one of R398's; a context has a number below 16 (R20). -/
def Party.ok : Party → Bool
  | .ctx c => c < 16
  | _ => true

/-- A packet whose fields have the widths of R312, with the data that LEN announces: none behind a read request. -/
def Pkt.ok (x : Pkt) : Bool :=
  x.ptype < 256 && x.dst < 4096 && x.src < 4096 && x.epoch < 65536 && x.job < 65536 && x.cls < 4 && x.hops < 32 && x.vl < 2
    && (match x.pmask with | some m => decide (m < 2 ^ 128) | none => true) && x.status < 8 && x.tag < 65536 && x.addr < 2 ^ 52
    && x.aux < 2 ^ 32 && x.len ≤ 4096 && x.data.length == (if x.ptype = 1 then 0 else x.len) && x.reserved < 2 ^ 66

/-- A command names units the module has, and a packet or a flit has its form (R307, R312). -/
def Instr.wf (i : Instr) : Bool :=
  match i with
  | .nop r k q => r < 48 && k < 9 && q < 4
  | .endq r k q => r < 48 && k < 9 && q < 4
  | .wait r k q => r < 48 && k < 9 && q < 4
  | .signal r k q => r < 48 && k < 9 && q < 4
  | .barrier r k q => r < 48 && k < 9 && q < 4
  | .stepPoint r k q => r < 48 && k < 9 && q < 4
  | .evalPoint r k q => r < 48 && k < 9 && q < 4
  | .evalEnd r k q => r < 48 && k < 9 && q < 4
  | .mma r k => r < 48 && k < 9
  | .distL1 r k => r < 48 && k < 9
  | .distL2 r k => r < 48 && k < 9
  | .minplus r k => r < 48 && k < 9
  | .maxplus r k => r < 48 && k < 9
  | .cmpcount r k => r < 48 && k < 9
  | .vmap r k v => r < 48 && k < 9 && v < 2
  | .vcvt r k v => r < 48 && k < 9 && v < 2
  | .vscan r k v => r < 48 && k < 9 && v < 2
  | .vstat r k v => r < 48 && k < 9 && v < 2
  | .vcarryStore r k v => r < 48 && k < 9 && v < 2
  | .vcarryLoad r k v => r < 48 && k < 9 && v < 2
  | .rmsnorm r k v => r < 48 && k < 9 && v < 2
  | .vsfu r k v => r < 48 && k < 9 && v < 2
  | .vchisel r k v => r < 48 && k < 9 && v < 2
  | .vredLeaf r k v => r < 48 && k < 9 && v < 2
  | .vredNode r k v => r < 48 && k < 9 && v < 2
  | .vredFinal r k v => r < 48 && k < 9 && v < 2
  | .vredFold r k v => r < 48 && k < 9 && v < 2
  | .vgrainSetid r k v => r < 48 && k < 9 && v < 2
  | .vgrainRaw r k v => r < 48 && k < 9 && v < 2
  | .vgrainUniform r k v => r < 48 && k < 9 && v < 2
  | .vgrainBernoulli r k v => r < 48 && k < 9 && v < 2
  | .vgrainNormal r k v => r < 48 && k < 9 && v < 2
  | .mvcopy r k => r < 48 && k < 9
  | .mvset r k => r < 48 && k < 9
  | .mvatom r k => r < 48 && k < 9
  | .mvcollUp r k _ => r < 48 && k < 9
  | .mvcollRecv r k _ => r < 48 && k < 9
  | .mvcollDown r k _ => r < 48 && k < 9
  | .mvcollRdown r k _ => r < 48 && k < 9
  | .ttin r k => r < 48 && k < 9
  | .ttout r k => r < 48 && k < 9
  | .descLoad r k => r < 48 && k < 9
  | .seqDoorbell p r k _ => p.ok && r < 48 && k < 9
  | .seqLdoorbell p r _ _ => p.ok && r < 48
  | .startBeat r k => r < 48 && k < 9
  | .queueFetchRequest r k q => r < 48 && k < 9 && q < 4
  | .queueFetchComplete r _ _ => r < 48
  | .clusterBeat r k _ => r < 48 && k < 9
  | .stretchYield r k => r < 48 && k < 9
  | .holdBeat r k => r < 48 && k < 9
  | .timedDonePoint r k _ => r < 48 && k < 9
  | .descLoadDone r _ _ => r < 48
  | .moverCommandStart r k m _ => r < 48 && k < 9 && m < 2
  | .translationWalk r _ _ _ => r < 48
  | .admissionAccept r _ _ => r < 48
  | .moverRequestComplete r _ _ => r < 48
  | .cxlRequestTimeout r _ _ => r < 48
  | .mlmWindowTimeout r _ _ => r < 48
  | .remoteRequestTimeout r _ _ => r < 48
  | .evalSwitch r k => r < 48 && k < 9
  | .switchBeat r k => r < 48 && k < 9
  | .stepReturnNoSwitch r k => r < 48 && k < 9
  | .evalReturn r k => r < 48 && k < 9
  | .returnBeat r k => r < 48 && k < 9
  | .incrementVisible r k _ => r < 48 && k < 9
  | .syncPoke p r _ _ => p.ok && r < 48
  | .barrierNodeArrival _ => true
  | .barrierRelease _ => true
  | .swapBeat => true
  | .governorInterval _ => true
  | .paceMeasurement r k _ => r < 48 && k < 9
  | .patinaMonitor r k _ => r < 48 && k < 9
  | .healthMonitorTick _ => true
  | .telemetryUpdate _ => true
  | .heartbeat => true
  | .sramScrubRead r k bank _ => r < 48 && k < 9 && bank < 48
  | .patrolScrub stack _ => stack < 20
  | .hbmRecalibration _ => true
  | .analogueCheck _ _ _ => true
  | .drbgReseed _ => true
  | .porstAssert => true
  | .porstRelease _ _ _ => true
  | .bootReady _ => true
  | .vinUndervoltage _ _ => true
  | .vinOvervoltage _ _ => true
  | .thermalTrip _ _ _ => true
  | .recovEdge _ => true
  | .hltRecover p _ _ => p.ok
  | .recoveryComplete _ => true
  | .regionReset p _ => p.ok
  | .dieReset p _ => p.ok
  | .dieCoreTimeout d _ => d < 4
  | .assign p _ _ => p.ok
  | .release p _ => p.ok
  | .secRotate p _ => p.ok
  | .sweepPageComplete c => c < 16
  | .scrubGo p _ => p.ok
  | .scrubDone => true
  | .memXlateInv p _ _ _ => p.ok
  | .invalidationComplete => true
  | .ekbJoin p _ _ _ => p.ok
  | .graceExpiry => true
  | .defaultRoutingUpdate => true
  | .ekbCtxJobWrite p c _ _ => p.ok && c < 16
  | .flitReceive port f => port < 10 && f.bytes.length == 256
  | .flitReplay port _ => port < 10
  | .linkControlFlit port _ => port < 10
  | .portTrainingComplete port _ _ _ => port < 8
  | .portRetrainTimeout port => port < 8
  | .packetTransit x => x.ok
  | .rdReq x _ => x.ok
  | .rdData x => x.ok
  | .wr x _ => x.ok
  | .wrCpl x => x.ok
  | .atom x _ => x.ok
  | .atomCpl x => x.ok
  | .flagInc x => x.ok
  | .barArrive x => x.ok
  | .barRelease x => x.ok
  | .collUp x _ => x.ok
  | .collDown x _ => x.ok
  | .collCpl x => x.ok
  | .kexHello x _ => x.ok
  | .kexReply x _ => x.ok
  | .recvRightComplete r k _ _ _ => r < 48 && k < 9
  | .recvDeadline r k _ _ _ => r < 48 && k < 9
  | .snapReq p c _ => p.ok && c < 16
  | .snapPartCopy c _ => c < 16
  | .maqLoad p => p.ok
  | .maqLoadDone => true
  | .maqSwap p _ => p.ok
  | .maqDiscard p => p.ok
  | .fwActivate p _ => p.ok
  | .fwCommit => true
  | .fwActivateTimeout => true
  | .stageGo p _ _ _ => p.ok
  | .stageDone => true
  | .cfgBootSel p _ _ => p.ok
  | .mboxInGo p _ => p.ok
  | .mboxInTaken => true
  | .cfgMboxOutTail p _ => p.ok
  | .memMlmWin p _ => p.ok
  | .mlmRdReq m x _ => m < 2 && x.ok
  | .mlmWr m x _ => m < 2 && x.ok
  | .mlmAtom m x _ => m < 2 && x.ok
  | .mlmKexHello m x => m < 2 && x.ok
  | .mlmPortRetrain m _ => m < 2
  | .pwrGovCtrlWrite p _ => p.ok
  | .ekbGraceWrite p _ => p.ok
  | .bistReqGo p _ _ _ _ => p.ok
  | .bistReqCancel p _ => p.ok
  | .bistSlice r k => r < 48 && k < 9
  | .hltRetire p _ _ => p.ok
  | .abistRerun p _ _ _ => p.ok
  | .csracc _ _ _ _ => true
  | .memacc _ _ => true
  | .idcode => true
  | .extest _ => true
  | .samplePreload _ => true
  | .extestPulse _ => true
  | .extestTrain _ => true
  | .bypass _ => true
  | .getVersion => true
  | .getCapabilities => true
  | .negotiateAlgorithms _ _ => true
  | .getDigests => true
  | .getCertificate _ _ _ => true
  | .challenge _ _ _ => true
  | .getMeasurements _ _ _ => true
  | .setdasa _ _ => true
  | .entdaa _ => true
  | .pldmEffecterSet _ _ => true
  | .registerWrite p _ _ => p.ok
  | .internalResetRelease _ _ _ => true
  | .linkGoesDown kind port => (if kind = 0 then port < 8 else if kind = 1 then port < 4 else port < 2)
  | .cxlEventRecord port _ _ => port < 4
  | .counterSample => true
  | .sliceComplete r k _ _ => r < 48 && k < 9
  | .resetComplete die n _ => if die then n < 4 else n < 48
  | .regionLoadsComplete r _ => r < 48
  | .spdmUnsupportedRequest _ => true
  | .mctpControlMessage _ _ => true
  | .mandatoryCommonCommand _ => true

end Sys2Proof
end

