-- ==== Sys2Proof/Machine/Seq.lean ====
section
/-!
DEFINITION. Sys2Proof/Machine/Seq.lean: the cluster sequencer (04_command_streams.md): when a queue's head is due, hold
causes (R102), predicates and checks (R106), skips (R107), issue of every opcode, done points (R109), barrier arrivals
at the cluster, and evaluation (R121 to R125).
-/
namespace Sys2Proof.Machine

/-! ### Queues -/

/-- R33, R23, R64, R467, R479: a cluster beats while the module is up, or in recovery while accepted requests remain; it is in
service, no self-test slice runs in it, and no reset has taken effect on its region, which it does once the accepted requests
are complete. -/
def State.beats (s : State) (r k : Nat) : Bool :=
  (s.boot == .ready || (s.boot == .recovering && (List.range 48).any fun q => !(s.rg q).accepted.isEmpty)) && !((s.rg r).inReset && (s.rg r).accepted.isEmpty) && (s.cl r k).slices.running.isNone && !(s.cl r k).gated && !(s.cl r k).retired

def Queue.cmdAt (q : Queue) (i : Nat) : Option Cmd512 := (q.buf.find? fun p => p.1 == i).map Prod.snd

/-- Index `i` lies in a fetch request that faulted (R259). -/
def Queue.faulted (q : Queue) (i : Nat) : Bool := q.faults.any fun f => f ≤ i && i < f + 64

/-- R92, R121, R122, R124: the queue holds its next 64 commands, or all that remain; a faulted fetch ends what remains. -/
def Queue.loaded (q : Queue) : Bool :=
  let want := match q.len with | some n => min 64 (n - q.pos) | none => 64
  (List.range want).all fun j => (q.cmdAt (q.pos + j)).isSome || q.faults.any fun f => f ≤ q.pos + j

/-- R100, R102: the earliest beat at which the next command could be due. -/
def Queue.earliest (q : Queue) : Nat := if q.first then q.origin else q.origin + 1

/-- R100: the due beat of the next command. -/
def Queue.due (q : Queue) (c : Cmd512) : Nat := q.origin + if q.first then Hdr.delay c else max 1 (Hdr.delay c)

/-- What stands at a queue's head in a beat. -/
inductive Head where
  | none
  | missing
  | faulted
  | cmd (c : Cmd512)
  deriving DecidableEq, Repr

def Queue.head (q : Queue) (b : Nat) : Head :=
  if q.st == .waiting then
    match q.cmdAt q.pos with | some c => .cmd c | none => .none
  else if q.st != .issuing || b < q.earliest then .none
  else if q.faulted q.pos then .faulted
  else
    match q.cmdAt q.pos with
    | none => .missing
    | some c => if b < q.due c then .none else .cmd c

/-- Queues of a running training stream set, and queues of an evaluation (R121, R122). -/
def Queue.training (q : Queue) : Bool := q.train && q.st != .idle && q.st != .ending
def Queue.evaluating (q : Queue) : Bool := q.len.isNone && q.st != .idle

/-- R100, R94: what a queue becomes when its head issues or is skipped in beat `b`. -/
def Queue.advance (q : Queue) (b : Nat) : Queue :=
  let atEnd : Bool := match q.len with | some n => n ≤ q.pos + 1 | none => false
  { q with
    pos := q.pos + 1, origin := b, first := false, arrived := false, buf := q.buf.filter fun p => p.1 != q.pos
    st := if atEnd then .ending else .issuing }

/-- An idle queue. -/
def Queue.toIdle (q : Queue) : Queue :=
  { q with
    st := .idle, buf := [], faults := [], gen := q.gen + 1, arrived := false, train := false, back := false, len := some 0, stop := .none }

/-! ### Descriptors (R111, R113, R148) -/

def Cluster.entry (c : Cluster) (e : Nat) : Desc1024 := Sparse.get 0 c.dcache e

/-- Descriptors of slots 0 to 2, then of their scale arrays; zeros where none is named. -/
def Cluster.slotDescs (c : Cluster) (x : Cmd512) : List Desc1024 :=
  let d (i : Nat) : Desc1024 := if bitAt (Hdr.descUse x) i then c.entry (Hdr.desc x i) else 0
  let sc (i : Nat) : Desc1024 := if (Desc.ofBits (d i)).scaleUse then c.entry (Desc.ofBits (d i)).scaleEntry else 0
  [d 0, d 1, d 2, sc 0, sc 1, sc 2]

/-- Entries a command names; an engine's block-scaled slots name their scale entries too (R148). -/
def Cluster.named (c : Cluster) (x : Cmd512) (scales : Bool) : List Nat :=
  ([0, 1, 2].filter fun i => bitAt (Hdr.descUse x) i).flatMap fun i =>
    let d := Desc.ofBits (c.entry (Hdr.desc x i))
    Hdr.desc x i :: (if scales && d.scaleUse then [d.scaleEntry] else [])

def Cluster.pendingEntry (c : Cluster) (e : Nat) : Bool := c.dpend.any fun p => p.2 == e

/-! ### Opcodes (R89, R126) -/

def isCommon (o : Nat) : Bool := o ≤ 7

/-- R89: whether a queue accepts an opcode. -/
def queueAccepts (q o : Nat) : Bool :=
  isCommon o || (if q = 0 then 0x40 ≤ o && o ≤ 0x45 else if q ≤ 2 then 0x80 ≤ o && o ≤ 0x89
    else (0xC0 ≤ o && o ≤ 0xC3) || o == 0xD0 || o == 0xD1 || o == 0xE0)

/-- The unit a long-running command drives. -/
def unitOf (q : Nat) (c : Cmd512) : EUnit :=
  match q with
  | 0 => .ma
  | 1 => .ve0
  | 2 => .ve1
  | _ =>
    let o := Hdr.opcode c
    if o = 0xE0 then .dl else if o = 0xD0 ∨ o = 0xD1 then .tt else if Hdr.moverSel c = 0 then .mv0 else .mv1

def EUnit.timed : EUnit → Bool
  | .ma | .ve0 | .ve1 | .tt => true
  | _ => false

/-- The slot of `busyUntil` that governs a timed command (R115, R155, R170, R195). -/
def busySlot (cl : Cluster) (q : Nat) (c : Cmd512) : Nat :=
  match unitOf q c with
  | .ma => match TOp.ofCmd c with
    | some (.mq b) => if cl.lastMode == some b.mode then 0 else 5
    | _ => 0
  | .ve0 => 1
  | .ve1 => 2
  | _ => if Hdr.opcode c = 0xD0 then 3 else 4

/-- R240: the program of a VCHISEL's slot. -/
def State.progOf (s : State) (r : Nat) (c : Cmd512) : Option ChiselProg :=
  if Hdr.opcode c = 0x087 then ((s.rg r).chisel.find? fun p => p.1 == chiselSlot c).map Prod.snd else none

/-! ### Body fields of the common opcodes -/

def waitFlag (c : Cmd512) : Nat := cb c 16 0 12
def waitThresh (c : Cmd512) : Nat := cb c 20 0 24
def sigFlag (c : Cmd512) : Nat := cb c 16 0 12
def sigInc (c : Cmd512) : Nat := cb c 20 0 24
def barFields (c : Cmd512) : BarF := ⟨cb c 16 0 6, cb c 16 6 2, cb c 17 0 4, cb c 17 4 1 == 1⟩

/-! ### Steps 1 and 2 of R106 -/

/-- What steps 1 and 2 decide: skipped by the predicate, skipped for a bad field, skipped as over-wide (R178), or
issued with the module numbers an MVCOLL read. -/
inductive Verdict where
  | pred
  | bad
  | wide
  | go (aux : List Nat)
  deriving DecidableEq, Repr

/-- COUNT of a flag as visible to a cluster; none for an ID that WAIT and predicates do not read (R291). -/
def State.flagSeen (s : State) (r k v : Nat) : Option Nat :=
  match s.flagRef r v with
  | .own i => some (s.visible r k true i)
  | .node i => some (s.visible r k false i)
  | _ => none

/-- R106 step 1, R291: some true: skip; some false: go on; none: the flag is unmapped or FOREIGN. -/
def State.predSkip (s : State) (r k : Nat) (c : Cmd512) : Option Bool :=
  if Hdr.predFlag c = 0xFFF then some false
  else (s.flagSeen r k (Hdr.predFlag c)).map fun n => (Hdr.predValue c ≤ n) == Hdr.predSense c

/-- R106 step 2: OPCODE, queue, fields and descriptors. -/
def State.checkCmd (s : State) (r k q : Nat) (c : Cmd512) (e : Env := noEnv) : Option (List Nat) :=
  let o := Hdr.opcode c
  if !queueAccepts q o then none
  else if isCommon o then
    let ok : Bool := match o with
      | 2 => (s.flagSeen r k (waitFlag c)).isSome
      | 3 => sigFlag c != 0xFFF && sigInc c != 0
      | 4 =>
        let f := barFields c
        f.qmask != 0 && bitAt f.qmask q && (!f.realign || (f.scope != 0 && f.qmask == 15))
      | _ => true
    if ok then some [] else none
  else if o = 0xE0 then (if dlOk c then some [] else none)
  else
    let ds := (s.cl r k).slotDescs c
    match MvOp.ofCmd c with
    | some op => s.mvCheck e r op c (Desc.ofBits (nth 0 ds 0)) (Desc.ofBits (nth 0 ds 1))
    | none =>
      match TOp.ofCmd c with
      | some op => if op.ok c (s.progOf r c) (Descs.ofList ds) then some [] else none
      | none => none

/-- R178: more columns than the array has. -/
def State.overWide (s : State) (r k : Nat) (c : Cmd512) : Bool :=
  match TOp.ofCmd c with
  | some (.mq b) => b.cols > s.fieldN (A.maShape r k) 0 7
  | _ => false

def State.verdict (s : State) (r k q : Nat) (c : Cmd512) (e : Env := noEnv) : Verdict :=
  match s.predSkip r k c with
  | some true => .pred
  | none => .bad
  | some false =>
    match s.checkCmd r k q c e with
    | none => .bad
    | some aux => if s.overWide r k c then .wide else .go aux

/-! ### Hold causes (R102) -/

/-- Commands due now, with their queues, WAIT and BARRIER under way apart. -/
def State.dueCmds (s : State) (r k : Nat) : List (Nat × Cmd512) :=
  let c := s.cl r k
  (List.range 4).filterMap fun q =>
    if (c.queue q).st == .waiting then none
    else match (c.queue q).head c.beat with | .cmd x => some (q, x) | _ => none

def State.fetchHold (s : State) (r k : Nat) : Bool :=
  let c := s.cl r k
  c.queues.any fun q => q.head c.beat == .missing

/-- R102: a due command that its predicate does not skip names an entry that a DESC_LOAD is writing. -/
def State.descHold (s : State) (r k : Nat) : Bool :=
  let c := s.cl r k
  (s.dueCmds r k).any fun p =>
    s.predSkip r k p.2 == some false && !isCommon (Hdr.opcode p.2)
      && (c.named p.2 (unitOf p.1 p.2).timed).any c.pendingEntry

def Verdict.runs : Verdict → Bool
  | .go _ => true
  | _ => false

/-- R114: long-running commands due now that would issue. -/
def State.dueLris (s : State) (r k : Nat) (e : Env := noEnv) : List (Nat × Cmd512) :=
  (s.dueCmds r k).filter fun p => !isCommon (Hdr.opcode p.2) && (s.verdict r k p.1 p.2 e).runs

def State.lriHold (s : State) (r k : Nat) (e : Env := noEnv) : Bool :=
  let n := (s.dueLris r k e).length
  n != 0 && (s.cl r k).lris.length + n > 8

/-- R115: a due command's timed engine has not passed its issue interval. -/
def State.busyHold (s : State) (r k : Nat) (e : Env := noEnv) : Bool :=
  let c := s.cl r k
  (s.dueLris r k e).any fun p => (unitOf p.1 p.2).timed && c.beat < nth 0 c.busyUntil (busySlot c p.1 p.2)

/-- The counter of the first cause that holds in this beat. -/
def State.holdCause (s : State) (r k : Nat) (e : Env := noEnv) : Option Nat :=
  if s.fetchHold r k then some (A.holdFetch r k)
  else if s.descHold r k then some (A.holdDesc r k)
  else if s.lriHold r k e then some (A.holdLri r k)
  else if s.busyHold r k e then some (A.holdBusy r k)
  else none

/-- R113: a DESC_LOAD that issues in this beat writes an entry that a command of another queue, due in the same beat, names.
The entries are pending from the issue beat on, so the DESC_LOAD issues and the other command is held (DEDUCED, log 95). -/
def State.descFirst (s : State) (r k : Nat) (e : Env := noEnv) : Bool :=
  let c := s.cl r k
  match (s.dueCmds r k).find? fun p => p.1 == 3 with
  | some (_, x) =>
    Hdr.opcode x == 0xE0 && (s.verdict r k 3 x e).runs
      && (s.dueCmds r k).any fun p => p.1 != 3 && s.predSkip r k p.2 == some false && !isCommon (Hdr.opcode p.2)
        && (c.named p.2 (unitOf p.1 p.2).timed).any fun e => dlFirst x ≤ e && e < dlFirst x + dlCount x
  | none => false

/-! ### Done-flags, skips and common opcodes -/

/-- R109: the done-flag of a command, incremented in the current beat. -/
def State.doneFlag (s : State) (r k : Nat) (c : Cmd512) : State :=
  if Hdr.doneEn c && Hdr.doneFlag c != 0xFFF then s.incFlag r k (Hdr.doneFlag c) (Hdr.doneInc c) else s

/-- R103, R107: a done-flag to be incremented in a later beat of the cluster. -/
def State.laterFlag (s : State) (r k beat : Nat) (c : Cmd512) : State :=
  if Hdr.doneEn c && Hdr.doneFlag c != 0xFFF then
    s.modCl r k fun x => { x with dueInc := x.dueInc ++ [⟨beat, Hdr.doneFlag c, Hdr.doneInc c⟩] }
  else s

/-- R110. -/
def State.retire (s : State) (r k q : Nat) : State := s.bump (A.qRetired r k q) 1

def State.advance (s : State) (r k q : Nat) : State :=
  s.modCl r k fun c => ({ c with begun := true }).setQ q ((c.queue q).advance c.beat)

/-- R14: W1C bits that the module sets in a cluster's current beat; a write in that beat does not clear them. -/
def State.setNow (s : State) (r k a v : Nat) : State :=
  (s.orReg a v).modCl r k fun c => { c with setNow := if v = 0 then c.setNow else (a, v) :: c.setNow }

/-- R103, R107, R178: the current schedule beat has begun. -/
def State.markBegun (s : State) (r k : Nat) : State := s.modCl r k fun c => { c with begun := true }

/-- R107, R178: a skip and the counter it takes. -/
def State.skipCmd (s : State) (r k q : Nat) (c : Cmd512) (counter : Nat) : State :=
  ((((s.laterFlag r k ((s.cl r k).beat + 1) c).retire r k q).advance r k q)).bump counter 1

/-- A command whose issue beat is its done point and whose queue goes on (R109). -/
def State.passCmd (s : State) (r k q : Nat) (c : Cmd512) : State :=
  ((s.doneFlag r k c).retire r k q).advance r k q

/-- R123, R125: an evaluation queue stops with `pos` as its next index; DONE once every queue stopped on EVAL_END. -/
def State.evalStop (s : State) (r k q pos : Nat) (why : EvalStop) : State :=
  let s1 := (s.modCl r k fun c => c.setQ q { c.queue q with st := .stopped, stop := why, pos }).setReg (A.evalPos r k q)
    (BitVec.ofNat 64 (pos % 2 ^ 24))
  let es := (s1.cl r k).queues.filter Queue.evaluating
  if es.all fun x => x.st == .stopped && x.stop == .passEnd then
    (List.range 4).foldl (fun s q => s.setReg (A.evalPos r k q) 0) (s1.setNow r k (A.evalStatus r k) 1)
  else s1

/-- R94, R123: END, and a fetch fault reached, stop the queue. -/
def State.endQueue (s : State) (r k q pos : Nat) : State :=
  if (s.queue r k q).evaluating then s.evalStop r k q pos .other
  else s.modCl r k fun c => c.setQ q { c.queue q with st := .ending, origin := c.beat }

/-- R290: the condition of a WAIT. -/
def State.waitMet (s : State) (r k : Nat) (c : Cmd512) : Bool :=
  match s.flagSeen r k (waitFlag c) with
  | some n => waitThresh c ≤ n
  | none => false

/-- R290: a satisfied wait raises MATCHED and issues. -/
def State.waitIssue (s : State) (r k q : Nat) (c : Cmd512) : State :=
  let t := waitThresh c
  let s1 := if t = 0 then s else match s.flagRef r (waitFlag c) with
    | .own i => s.raiseMatched r k true i t
    | .node i => s.raiseMatched r k false i t
    | _ => s
  s1.passCmd r k q c

/-! ### Barrier arrivals (R298) -/

/-- Context of a barrier node; for cluster and region nodes the region's owner. -/
def State.nodeCtx (s : State) (n : Node) : Nat :=
  match n with
  | .cluster r _ | .region r => ((s.rg r).owner).getD 0
  | .die _ c | .top c | .fabric c | .child c _ => c

/-- R298: how many arrivals a node waits for. -/
def State.expected (s : State) (e : BarEntry) : Nat :=
  match e.node with
  | .cluster _ _ => popCount 4 e.f.qmask
  | .region r => s.nClusters r
  | .die d c => ((s.regionsOf c).filter fun r => dieOf r == d).length
  | .top c => (s.diesOf c).length
  | .fabric c => s.fieldN (A.fabChildren c) 0 5 + 1
  | .child _ _ => 0

/-- R298: a node holds its expected number for a use of an ID; one that holds a mismatched arrival never does. -/
def State.barFull (s : State) (e : BarEntry) : Bool := e.extra == 0 && s.expected e ≤ e.count

/-- R301: the use of an ID that a node still counts. -/
def State.counting (s : State) (node : Node) (bid : Nat) (e : BarEntry) : Bool :=
  e.node == node && e.f.bid == bid && !e.sent && !s.barFull e

/-- One arrival at a node (R298): the first of a use sets the fields; matching ones count, others are held and counted in region
`r`. Once the node has its number, the next arrival begins the next use (R301). `stamp` is how many cluster beats had begun when
the last arrival below came, `froms` the modules that sent it. -/
def State.arriveAt (s : State) (r : Nat) (node : Node) (f : BarF) (beat stamp : Nat) (froms : List Nat) : State :=
  match s.bars.find? (s.counting node f.bid) with
  | none => { s with bars := s.bars ++ [⟨node, f, 1, 0, beat, false, froms, stamp⟩] }
  | some e =>
    let e' : BarEntry :=
      if e.f == f then { e with count := e.count + 1, last := beat, froms := e.froms ++ froms, stamp := max e.stamp stamp }
      else { e with extra := e.extra + 1 }
    let s1 := { s with bars := s.bars.map fun x => if s.counting node f.bid x then e' else x }
    if e.f == f then s1 else s1.bump (A.barMismatch r) 1

/-- R104, R300: the release of one use of an ID reaches a cluster: the BARRIERs that wait for it issue. -/
def State.releaseQueues (s : State) (r k : Nat) (f : BarF) : State :=
  (List.range 4).foldl (fun s q =>
    let x := s.queue r k q
    match x.head (s.cl r k).beat with
    | .cmd c => if x.st == .waiting && x.arrived && Hdr.opcode c == 4 && barFields c == f then s.passCmd r k q c else s
    | _ => s) s

/-- R300: CLUSTER barriers whose last arrival lies 6 schedule beats back release now. -/
def State.clusterReleases (s : State) (r k : Nat) : State :=
  let due := s.bars.filter fun e => e.node == Node.cluster r k && e.f.scope == 0 && s.barFull e && e.last + 6 ≤ (s.cl r k).beat
  due.foldl (fun s e => ({ s with bars := s.bars.filter fun x => x != e }).releaseQueues r k e.f) s

/-! ### Issue of a long-running command (R101, R114 to R116) -/

/-- Intents of a timed command's slots: read and written streams, pads only with PADW (R116, R147). A written slot under
RSTORE, which adds to the element as it stands, registers a write intent only (DESIGN CHOICE, log 98). -/
def streamIntents (st : Stream) : List Intent :=
  match physRange (slotAccs st.d st.sd st.ident true) with
  | some (lo, hi) => [⟨st.wr, lo, hi⟩]
  | none => []

def State.grainNow (s : State) (r k v : Nat) : GrainCtx :=
  { seed := (s.rg r).seed, step := s.fieldN (A.step r) 0 32, ibase := s.fieldN (A.veIbase r k v) 0 48, tid := s.fieldN (A.veTid r k v) 0 32 }

/-- R115, R170, R195, R155: the issue interval a timed command imposes. -/
def Cluster.setBusy (c : Cluster) (q : Nat) (x : Cmd512) (p : VePlan) : Cluster :=
  match TOp.ofCmd x with
  | some (.mq b) =>
    { c with busyUntil := setNth (c.beat + p.s + b.drain) (setNth (c.beat + p.s) c.busyUntil 0) 5, lastMode := some b.mode }
  | some (.tt dirOut _) => { c with busyUntil := setNth (c.beat + p.s) c.busyUntil (if dirOut then 4 else 3) }
  | _ => { c with busyUntil := setNth (c.beat + p.s) c.busyUntil q }

/-- R375: SETID writes the grain registers in its issue beat; R170: MA_MODE_SWITCH counts a change of MODE. -/
def State.issueEffects (s : State) (r k q : Nat) (x : Cmd512) : State :=
  match TOp.ofCmd x with
  | some (.grain b) =>
    if b.mode = 0 then
      (s.setReg (A.veTid r k (q - 1)) (BitVec.ofNat 64 b.tid)).setReg (A.veIbase r k (q - 1)) (BitVec.ofNat 64 b.ibase)
    else s
  | some (.mq b) =>
    match (s.cl r k).lastMode with
    | some m => if m = b.mode then s else s.bump (A.maSwitch r k) 1
    | none => s
  | _ => s

/-- The record of a long-running command at its issue. -/
def State.newLri (s : State) (r k q : Nat) (x : Cmd512) (aux : List Nat) : Lri :=
  let c := s.cl r k
  let u := unitOf q x
  let ds := c.slotDescs x
  let base : Lri :=
    { id := c.nextId, q, unit := u, cmd := x, ds, issue := c.beat, done := none, intents := [], latches := [], carry := []
      grain := s.grainNow r k (q - 1), prog := s.progOf r x, fl := Flag.none, tileIn := [], eval := (c.queue q).evaluating, aux
      mv := MvState.init }
  match MvOp.ofCmd x with
  | some op => { base with intents := s.mvIntents r k op (Desc.ofBits (nth 0 ds 0)) (Desc.ofBits (nth 0 ds 1)) }
  | none =>
    match TOp.ofCmd x with
    | some op =>
      let p := op.plan x base.prog (Descs.ofList ds)
      { base with
        done := some (c.beat + p.latency), intents := p.streams.flatMap streamIntents
        latches := p.streams.map fun st => List.replicate st.accs.length none
        carry := List.replicate p.carryRd.length none }
    | none => base

/-- R101, R112, R114: a long-running command issues. -/
def State.issueLri (s : State) (r k q : Nat) (x : Cmd512) (aux : List Nat) : State :=
  let l := s.newLri r k q x aux
  let s1 := (s.issueEffects r k q x).modCl r k fun c => { c with lris := c.lris ++ [l], nextId := c.nextId + 1 }
  let s2 := match TOp.ofCmd x with
    | some op => s1.modCl r k fun c => c.setBusy q x (op.plan x l.prog (Descs.ofList l.ds))
    | none => s1
  let s3 := if Hdr.opcode x = 0xE0 then
      (s2.modCl r k fun c => { c with dpend := c.dpend ++ (List.range (dlCount x)).map fun i => (l.id, dlFirst x + i) }).addReq r
        (s2.newReq r k (.desc l.id) 0)
    else s2
  s3.advance r k q

/-! ### The head of one queue in the current beat -/

/-- R341, R266: an MVCOLL reads entries of the rank table at its issue: errors met there count. -/
def State.noteRanks (s : State) (r : Nat) (e : Env) (c : Cmd512) : State :=
  let x := ((s.rg r).owner).getD 0
  match MvOp.ofCmd c with
  | some (.coll bidx phase level src left out) =>
    (match (s.cx x).bucket bidx with
     | some b =>
       if Hdr.descUse c == 0 && collShape b phase level src left out then
         s.noteReads none e ((collReads b phase level).flatMap fun m => s.ctxPlaces x (b.ranktab + 2 * m) 2)
       else s
     | none => s)
  | _ => s

/-- A due command other than one already waiting, after its verdict (R106, R107, R109, R121, R123). A STEP_POINT that is the
last command of its stream ends its queue (R94) and holds nothing (DESIGN CHOICE, log 96). -/
def State.actOn (s : State) (r k q : Nat) (c : Cmd512) (e : Env := noEnv) : State :=
  match s.verdict r k q c e with
  | .pred => s.skipCmd r k q c (A.skipped r k)
  | .bad => (s.noteRanks r e c).skipCmd r k q c (A.badField r k)
  | .wide => s.skipCmd r k q c (A.maWidthSkip r k)
  | .go aux =>
    let ev := (s.queue r k q).evaluating
    let pos := (s.queue r k q).pos
    let hold (s : State) : State := s.modCl r k fun x => x.setQ q { x.queue q with st := .waiting }
    match Hdr.opcode c with
    | 0 => s.passCmd r k q c
    | 1 => (s.passCmd r k q c).endQueue r k q (pos + 1)
    | 2 => if s.waitMet r k c then s.waitIssue r k q c else hold s
    | 3 => (s.incFlag r k (sigFlag c) (sigInc c)).passCmd r k q c
    | 4 =>
      let s1 := s.arriveAt r (.cluster r k) (barFields c) (s.cl r k).beat s.ticks []
      s1.modCl r k fun x => x.setQ q { x.queue q with st := .waiting, arrived := true }
    | 5 =>
      let s1 := s.passCmd r k q c
      if ev || (s1.queue r k q).st == .ending then s1
      else s1.modCl r k fun x => x.setQ q { x.queue q with st := .held }
    | 6 =>
      let s1 := s.passCmd r k q c
      if ev && (s.cl r k).switchBeat + s.fieldN (A.evalCtrl r k) 32 32 ≤ (s.cl r k).beat then s1.evalStop r k q (pos + 1) .point else s1
    | 7 =>
      let s1 := s.passCmd r k q c
      if ev then s1.evalStop r k q (pos + 1) .passEnd else s1
    | _ => (s.noteRanks r e c).issueLri r k q c aux

/-- R101, R104: what a queue does in this beat, no hold cause holding. -/
def State.stepQueue (s : State) (r k q : Nat) (e : Env := noEnv) : State :=
  let x := s.queue r k q
  match x.head (s.cl r k).beat with
  | .none => s
  | .missing => s
  | .faulted => s.endQueue r k q x.pos
  | .cmd c =>
    if x.st == .waiting then (if Hdr.opcode c == 2 && s.waitMet r k c then s.waitIssue r k q c else s)
    else s.actOn r k q c e

/-! ### Done points of timed commands (R109, R110) -/

/-- What a timed command has computed from what it latched so far. -/
def Lri.outcome (l : Lri) : VeOut × Nat :=
  match TOp.ofCmd l.cmd with
  | none => (VeOut.empty, 0)
  | some op =>
    let p := op.plan l.cmd l.prog (Descs.ofList l.ds)
    op.run l.cmd p ⟨l.grain, l.prog, l.carry⟩ l.tileIn l.latches

/-- Counters and status bits of a timed command at its done point (R87, R158, R160, R180, R215, R242, R369). -/
def State.countDone (s : State) (r k : Nat) (l : Lri) : State :=
  match TOp.ofCmd l.cmd with
  | none => s
  | some op =>
    let p := op.plan l.cmd l.prog (Descs.ofList l.ds)
    let (o, gated) := l.outcome
    let s0 := (s.bump (A.pmSplit r k) (sumNat (p.streams.map Stream.splits))).bump (A.pmMasked r k) (maskedCount p l.latches)
    let ve (v : Nat) : State :=
      let c := ((s.rg r).owner).getD 0
      let s1 := (s0.setNow r k (A.veFp r k v) (o.fl ||| l.fl).toNat).bump (A.veCmds r k v) 1
      let s2 := ((s1.bumpUnits (A.veElems r k v) o.elems).bumpUnits (A.veEvals r k v) o.evals).bump (A.veSegments r k v) o.segs
      let s3 := ((s2.bumpUnits (A.sfuCompat r k v) o.compat).bumpUnits (A.sfuChisel r k v) o.chisel).bumpUnits (A.sfuDeriv r k v) o.deriv
      let s4 := s3.bump (A.sfuRms r k v) o.rmsRows
      (((s4.bump (A.redEsc c) o.redEsc).bump (A.redSat c) o.redSat).bump (A.redNan c) o.redNan).bump (A.redFolds c) o.redFolds
    match l.unit with
    | .ma => ((s0.setNow r k (A.maFp r k) (o.fl ||| l.fl).toNat).bump (A.maCmds r k) 1).bumpUnits (A.maGated r k) gated
    | .ve0 => ve 0
    | .ve1 => ve 1
    | _ => match op with
      | .tt true _ => s0.bump (A.ttDrains r k) 1
      | _ => s0.bump (A.ttFills r k) 1

/-- R109, R110, R116: the done point of a timed command. -/
def State.donePoint (s : State) (r k : Nat) (l : Lri) : State :=
  let s1 := (s.countDone r k l).modCl r k fun c => { c with lris := c.lris.filter fun x => x.id != l.id, begun := true }
  (s1.doneFlag r k l.cmd).retire r k l.q

/-- Timed commands whose done point is this beat. -/
def Cluster.dueDone (c : Cluster) : List Lri :=
  c.lris.filter fun l => match l.done with | some b => b ≤ c.beat | none => false

/-! ### Starts, switches and returns (R92, R121 to R125) -/

/-- R92: start sets whose every queue holds its first 64 commands. -/
def State.startSet (s : State) (r k m : Nat) : State :=
  let c := s.cl r k
  if (setBits 4 m).all fun q => (c.queue q).loaded then
    s.modCl r k fun c =>
      { (setBits 4 m).foldl (fun c q => c.setQ q { c.queue q with st := .issuing, origin := c.beat, first := true }) c with
        starts := c.starts.filter fun x => x != m, begun := true }
  else s

def State.startBeats (s : State) (r k : Nat) : State := (s.cl r k).starts.foldl (fun s m => s.startSet r k m) s

/-- R94: queues that ended in an earlier beat are idle. -/
def Cluster.endQueues (c : Cluster) : Cluster :=
  { c with queues := c.queues.map fun q => if q.st == .ending && q.origin < c.beat then q.toIdle else q }

/-- R121, R94: every running training queue has issued a STEP_POINT, in an earlier beat. A queue that ends in this beat
still runs in it. -/
def Cluster.allHeld (c : Cluster) : Bool :=
  let ts := c.endQueues.queues.filter fun q => q.train && q.st != .idle
  ts.any (fun q => q.st == .held) && ts.all fun q => q.st == .held && q.origin < c.beat

/-- R466: a self-test slice still has to run at this step point; the check of R121 follows it. -/
def Cluster.sliceDue (c : Cluster) : Bool := !c.slices.pend.isEmpty && !c.slices.ranStep

def Slices.next (x : Slices) : Slices := { x with ranStep := false }

/-- R121: the sequencer returns without switching. -/
def State.noSwitch (s : State) (r k : Nat) : Bool :=
  !s.bit (A.evalCtrl r k) 0 || s.bit (A.evalStatus r k) 0 || (List.range 4).all fun q => s.fieldN (A.evalBase r k q) 6 46 == 0

/-- Training queues share a beat origin again (R121, R124). -/
def Queue.resume (b : Nat) (q : Queue) : Queue := { q with st := .issuing, origin := b, first := true }

/-- R121: return without a switch, once the fetch buffers hold what R121 asks. While they do not, the choice between return
and switch is made anew in each beat, from EN, DONE and the bases as they then stand (DESIGN CHOICE, log 97). -/
def State.returnNoSwitch (s : State) (r k : Nat) : State :=
  let c := s.cl r k
  if c.phase == .train && c.allHeld && !c.sliceDue && s.noSwitch r k && (c.queues.filter Queue.training).all Queue.loaded then
    s.modCl r k fun c => { c with slices := c.slices.next, begun := true, queues := c.queues.map fun q => if q.training then q.resume c.beat else q }
  else s

/-- R122: what a queue becomes at a switch; `base` is SEQ_EVAL_BASE_q, `pos` SEQ_EVAL_POS_q. -/
def Queue.toEval (base pos : Nat) (q : Queue) : Queue :=
  let kept := { q with
    tbase := q.base, tlen := q.len.getD 0, tpos := q.pos, back := q.training, buf := [], faults := [], gen := q.gen + 1, req := q.pos
    stop := .none }
  if base = 0 ∨ !(q.training || q.st == .idle) then (if q.training then kept else q)
  else { kept with st := .fetching, base, len := none, pos, req := pos }

/-- R121, R122: the sequencer switches to the evaluation streams. -/
def State.evalSwitch (s : State) (r k : Nat) : State :=
  let c := (s.cl r k).endQueues
  if c.phase == .train && c.allHeld && !c.sliceDue && !s.noSwitch r k then
    let conv (q : Nat) : Queue := (c.queue q).toEval (s.fieldN (A.evalBase r k q) 6 46 * 64) (s.fieldN (A.evalPos r k q) 0 24)
    s.setCl r k { c with queues := (List.range 4).map conv, phase := .toEval, slices := c.slices.next, begun := true }
  else s

/-- R122: the switch beat. -/
def State.switchBeat (s : State) (r k : Nat) : State :=
  let c := s.cl r k
  let es := c.queues.filter Queue.evaluating
  if c.phase == .toEval && es.all Queue.loaded then
    (s.setCl r k { c with
      queues := c.queues.map fun q => if q.evaluating then q.resume c.beat else q
      phase := .eval, switchBeat := c.beat, begun := true }).setB (A.evalStatus r k) 1 true
  else s

/-- What a queue becomes when training returns: the queues that trained at the switch refetch after their STEP_POINT, other
evaluation queues go idle, and a queue that a doorbell started meanwhile goes on (R124). -/
def Queue.toTrain (q : Queue) : Queue :=
  if q.back then
    { q with
      st := .fetching, base := q.tbase, len := some q.tlen, pos := q.tpos, req := q.tpos, buf := [], faults := [], gen := q.gen + 1, stop := .none }
  else if q.evaluating then q.toIdle
  else q

/-- R124: every evaluation queue has stopped and every instruction of theirs is done. -/
def State.evalReturn (s : State) (r k : Nat) : State :=
  let c := s.cl r k
  if c.phase == .eval && (c.queues.filter Queue.evaluating).all (fun q => q.st == .stopped) && !c.lris.any Lri.eval then
    s.setCl r k { c with queues := c.queues.map Queue.toTrain, phase := .toTrain, begun := true }
  else s

/-- R124: the return beat. -/
def State.returnBeat (s : State) (r k : Nat) : State :=
  let c := s.cl r k
  if c.phase == .toTrain && (c.queues.filter Queue.back).all Queue.loaded then
    (s.setCl r k { c with
      queues := c.queues.map fun q =>
        if q.back then { (if q.tlen ≤ q.tpos then { q with st := .ending, origin := c.beat } else q.resume c.beat) with back := false } else q
      phase := .train, begun := true }).setB (A.evalStatus r k) 1 false
  else s

/-! ### The begin of a beat -/

/-- R103, R107: increments whose beat has come. -/
def State.applyDueInc (s : State) (r k : Nat) : State :=
  let c := s.cl r k
  let now := c.dueInc.filter fun d => d.beat ≤ c.beat
  now.foldl (fun s d => s.incFlag r k d.flag d.inc) (s.setCl r k { c with dueInc := c.dueInc.filter fun d => c.beat < d.beat })

/-- What the current beat begins with: increments and done points that fall in it, CLUSTER releases, queues that went
idle, starts, switches and returns. A second time in one beat it finds nothing left to do. -/
def State.beginBeat (s : State) (r k : Nat) : State :=
  let s1 := s.applyDueInc r k
  let s2 := (s1.cl r k).dueDone.foldl (fun s l => s.donePoint r k l) s1
  let s3 := (s2.clusterReleases r k).modCl r k Cluster.endQueues
  let s4 := (s3.startBeats r k).returnNoSwitch r k
  let s5 := ((s4.evalSwitch r k).switchBeat r k).evalReturn r k
  (s5.returnBeat r k).markBegun r k

/-- R113: the DESC_LOAD of `descFirst` issues before the hold that it causes. -/
def State.descBefore (s : State) (r k : Nat) (e : Env := noEnv) : State :=
  if (s.holdCause r k e).isNone && s.descFirst r k e then s.stepQueue r k 3 e else s

/-! ### Meanings of the command rows -/

/-- A queue's head is due in this beat, no hold cause holds, and its opcode is one of `ops` with body bits as `sel`. -/
def State.issues (s : State) (r k q : Nat) (sel : Cmd512 → Bool) (e : Env := noEnv) : Bool :=
  s.beats r k && (s.holdCause r k e).isNone && (q == 3 || !s.descFirst r k e)
    && (match (s.queue r k q).head (s.cl r k).beat with | .cmd c => sel c | _ => false)

/-- The head of queue `q` issues, is skipped or goes on waiting in the current beat (R101, R104, R106); nothing
happens where it is not due, another command stands there, or a hold cause holds. -/
def State.issueHead (s : State) (r k q : Nat) (sel : Cmd512 → Bool) (e : Env := noEnv) : State :=
  if s.beats r k then
    let s1 := s.beginBeat r k
    if s1.issues r k q sel e then s1.stepQueue r k q e else s
  else s

end Sys2Proof.Machine
end

