-- ==== Sys2Proof/Machine/Engine.lean ====
section
/-!
DEFINITION. Sys2Proof/Machine/Engine.lean: one beat of a cluster: timed line accesses (R47, R118, R136 to R138, R140),
collisions and stretch beats (R47, R48), slips (R117, R120), the untimed port (R49 to R51), carry files (R204), the
turntable's tile (R154 to R157), hold and yield beats.
-/
namespace Sys2Proof.Machine

/-! ### Slips (R116, R117, R120) -/

/-- Intents of other instructions in flight that a line access meets, as (kind code, issue beat, queue, tag). -/
def slipsOf (c : Cluster) (self : Nat) (wr : Bool) (line : Nat) : List (Nat × Nat × Nat × Nat) :=
  (c.lris.filter fun l => l.id != self).flatMap fun l =>
    (l.intents.filter fun i => i.lo ≤ line && line ≤ i.hi && (wr || i.wr)).map fun i =>
      (if wr then (if i.wr then 3 else 2) else 1, l.issue, l.q, Hdr.tag l.cmd)

/-- Order of R120: lowest kind, then earliest issue beat, then lowest queue. -/
def slipLess (a b : Nat × Nat × Nat × Nat) : Bool :=
  a.1 < b.1 || (a.1 == b.1 && (a.2.1 < b.2.1 || (a.2.1 == b.2.1 && a.2.2.1 < b.2.2.1)))

def slipFirst : List (Nat × Nat × Nat × Nat) → Option (Nat × Nat × Nat × Nat)
  | [] => none
  | x :: xs => match slipFirst xs with | none => some x | some y => some (if slipLess y x then y else x)

/-- R117, R118, R120: count a line access's slips; while VALID is 0 it may become the record of its beat. -/
def State.slip (s : State) (r k : Nat) (unit : EUnit) (self tag : Nat) (wr : Bool) (line : Nat) : State :=
  let c := s.cl r k
  let hs := slipsOf c self wr line
  let has (n : Nat) : Nat := if hs.any fun h => h.1 == n then 1 else 0
  let s1 := ((s.bump (A.slipRaw r k) (has 1)).bump (A.slipWar r k) (has 2)).bump (A.slipWaw r k) (has 3)
  match slipFirst hs with
  | none => s1
  | some h =>
    if s1.bit (A.slipInfo r k) 63 then s1
    else s1.modCl r k fun c => { c with slipNow := c.slipNow ++ [⟨unit, tag, h.1, h.2.2.2⟩] }

/-- R120: of the accesses of one beat, the first in the order MA, VE0, VE1, TT, MV0, MV1, then in the unit's own order. -/
def firstSlip : List SlipRec → Option SlipRec
  | [] => none
  | x :: xs => match firstSlip xs with | none => some x | some y => some (if y.unit.code < x.unit.code then y else x)

/-- R120: at the end of a beat its first slip is recorded, where nothing is recorded yet. -/
def State.recordSlip (s : State) (r k : Nat) : State :=
  let c := s.cl r k
  match firstSlip c.slipNow with
  | none => s
  | some h =>
    let s1 := s.setCl r k { c with slipNow := [] }
    if s.bit (A.slipInfo r k) 63 then s1
    else (s1.setReg (A.slipInfo r k) (BitVec.ofNat 64 (h.tag + h.holder * 256 + h.kind * 65536 + h.unit.code * 262144 + 2 ^ 63))).setReg
      (A.slipBeat r k) (BitVec.ofNat 64 (min c.beat (2 ^ 48 - 1)))

/-! ### Timed accesses of a beat -/

/-- One timed line access of a beat: the instruction, its stream and access index, and R47's rank in its unit. -/
structure TAcc where
  unit : EUnit
  lri  : Nat
  tag  : Nat
  j    : Nat
  i    : Nat
  rank : Nat
  wr   : Bool
  acc  : Acc
  deriving DecidableEq, Repr

/-- The plan of an instruction in flight. -/
def Lri.plan (l : Lri) : VePlan :=
  match TOp.ofCmd l.cmd with
  | some op => op.plan l.cmd l.prog (Descs.ofList l.ds)
  | none => ⟨[], 0, 0, 0, [], []⟩

/-- R47: slot, then a VRED's further streams, then element, scale and mask. -/
def accRank (l : Lri) (j : Nat) (st : Stream) (a : Acc) : Nat :=
  let further := st.d != (Desc.ofBits (nth 0 l.ds st.slot)).onPad
  st.slot * 1024 + (if further then 512 else 0) + a.kind.rank * 64 + j

/-- Accesses of an instruction in schedule beat `b` (R146, R155, R168, R194). -/
def Lri.accsAt (l : Lri) (b : Nat) : List TAcc :=
  (numberFrom (fun j (st : Stream) =>
    if l.issue + st.off ≤ b && b - l.issue - st.off < st.groups.length then
      let g := b - l.issue - st.off
      numberFrom (fun i (a : Acc) =>
        (⟨l.unit, l.id, Hdr.tag l.cmd, j, i, accRank l j st a, st.wr && a.kind != .mask, a⟩ : TAcc)) (st.accBase g) (nth [] st.groups g)
    else []) 0 l.plan.streams).flatten

/-- R171, R173: the beat in which a matrix command has read all its operands. A line of C accessed before it takes its
contents then, so that no sum misses a term (log 11). -/
def Lri.ready (l : Lri) : Option Nat :=
  match TOp.ofCmd l.cmd with
  | some (.mq _) => some ((l.plan.streams.filter fun st => !st.wr).foldl (fun m st => max m (l.issue + st.off + st.groups.length - 1)) l.issue)
  | _ => none

/-- The write accesses of an instruction up to schedule beat `b`. -/
def Lri.writesUpTo (l : Lri) (b : Nat) : List TAcc :=
  (numberFrom (fun j (st : Stream) =>
    if st.wr && l.issue + st.off ≤ b then
      (numberFrom (fun i (a : Acc) => (⟨l.unit, l.id, Hdr.tag l.cmd, j, i, accRank l j st a, a.kind != .mask, a⟩ : TAcc)) 0
        (st.groups.take (b + 1 - l.issue - st.off)).flatten).filter TAcc.wr
    else []) 0 l.plan.streams).flatten

/-- The write accesses whose lines take their contents in schedule beat `b`. -/
def Lri.storesAt (l : Lri) (b : Nat) : List TAcc :=
  match l.ready with
  | some n => if b < n then [] else if b = n then l.writesUpTo b else (l.accsAt b).filter TAcc.wr
  | none => (l.accsAt b).filter TAcc.wr

def TAcc.before (a b : TAcc) : Bool :=
  a.unit.code < b.unit.code || (a.unit.code == b.unit.code && (a.rank < b.rank || (a.rank == b.rank && (a.lri < b.lri || (a.lri == b.lri && a.i < b.i)))))

def insertAcc (a : TAcc) : List TAcc → List TAcc
  | [] => [a]
  | b :: bs => if a.before b then a :: b :: bs else b :: insertAcc a bs

/-- Every timed access of a cluster in its current beat, in the order of R47. -/
def Cluster.timedAccs (c : Cluster) : List TAcc :=
  ((c.lris.filter fun l => l.unit.timed).flatMap fun l => l.accsAt c.beat).foldr insertAcc []

/-- The stores of a cluster's current beat, in the order of R47. -/
def Cluster.timedStores (c : Cluster) : List TAcc :=
  ((c.lris.filter fun l => l.unit.timed).flatMap fun l => l.storesAt c.beat).foldr insertAcc []

/-! ### Collisions (R47, R48) -/

/-- Accesses that occupy a bank. -/
def banked (as : List TAcc) : List TAcc := as.filter fun a => a.acc.line.isSome

/-- Stretch beats: the largest k − 1 over the banks. -/
def stretchOf (as : List TAcc) : Nat :=
  (List.range 32).foldl (fun m b => max m (((banked as).countP fun a => a.acc.bank == b) - 1)) 0

/-- The lines the timed ports serve in elapsed beat `n` of a schedule beat: the n-th access of every bank. -/
def timedLines (as : List TAcc) (n : Nat) : List Nat :=
  (List.range 32).filterMap fun b => ((banked as).filter fun a => a.acc.bank == b)[n]?.map fun a => a.acc.phys

/-! ### Line contents (R136 to R138, R140) -/

/-- `n` bits of a line replaced from bit `at_`. -/
def putBits (line at_ n v : Nat) : Nat :=
  let m := (2 ^ n - 1) <<< at_
  (line &&& (2 ^ 1024 - 1 - m)) ||| ((v % 2 ^ n) <<< at_)

/-- Where an element of `eb` bits at bit `b` meets an access: bit in the line, bit in the element, width. -/
def Acc.place (a : Acc) (b : Int) (eb : Nat) : Option (Nat × Nat × Nat) :=
  let lo := max a.start b
  let hi := min (a.start + (a.len : Int)) (b + (eb : Int))
  if hi ≤ lo then none else some ((lo % 1024).toNat, (lo - b).toNat, (hi - lo).toNat)

/-- R138: the sum of an element and a later aliasing position. -/
def rstoreAdd (f : Fmt) (eb old v : Nat) : Nat × Fl :=
  if f.isInt then ((old + v) % 2 ^ eb, Flag.none)
  else
    let t := (addV .rne (decodeFmt f old) (decodeFmt f v)).round f .rne
    (encodeFmt f t.v, t.fl)

/-- What one written slot holds for its line writes: its address space, positions beside their runs, values, activity of
its elements. -/
structure WSlot where
  space : Nat
  pos   : List (Nat × Pos)
  vals  : List (Option Nat)
  acts  : List Bool
  deriving DecidableEq, Repr

def WSlot.val (w : WSlot) (k : Nat) : Option Nat := nth none w.vals k

/-- R140: a pad position yields to a non-pad position of its descriptor that aliases it and writes. -/
def WSlot.padYields (w : WSlot) (p : Pos) : Bool :=
  p.pad && w.pos.any fun q => !q.2.pad && q.2.aliases w.space p && (w.val q.2.k).isSome

/-- R138: an active non-pad position that is not the first of its address adds. A position whose element is inactive
through another slot (R190) takes no part: it neither replaces nor adds. -/
def WSlot.adds (w : WSlot) (p : Pos) : Bool :=
  !p.pad && nth false w.acts p.k
    && w.pos.any fun q => q.2.k < p.k && !q.2.pad && nth false w.acts q.2.k && q.2.aliases w.space p

/-- Bits of an element that an access's line holds now. -/
def oldBits (line : Nat) (pl : Nat × Nat × Nat) : Nat := field line pl.1 pl.2.2 <<< pl.2.1

/-- One access of elements: the line after every position of its run that falls on it, in ordinal order. -/
def writeElems (d : Desc) (f : Fmt) (w : WSlot) (a : Acc) (line : Nat) : Nat × Fl :=
  w.pos.foldl (fun (x : Nat × Fl) q =>
    if q.1 != a.run then x
    else
      match w.val q.2.k, a.place q.2.bits d.ebits with
      | some v, some pl =>
        if w.padYields q.2 then x
        else
          let (u, fl) := if d.rstore && w.adds q.2 then rstoreAdd f d.ebits (oldBits x.1 pl) v else (v, Flag.none)
          (putBits x.1 pl.1 pl.2.2 (u >>> pl.2.1), x.2 ||| fl)
      | _, _ => x) (line, Flag.none)

/-- R71: +0 at the missing positions of a written block that lie on this line, where no position of the descriptor has
their bits. The slot's accesses are those of its positions (R144), so a missing position on a line that none of them
reaches is not written (DESIGN CHOICE, log 94). -/
def writeMissing (d : Desc) (w : WSlot) (a : Acc) (line : Nat) : Nat :=
  w.pos.foldl (fun x q =>
    if q.1 == a.run && d.endsPass q.2 && (w.val q.2.k).isSome then
      (d.missingAfter q.2).foldl (fun x b =>
        if w.pos.any fun y => bitsMeet d.space d.ebits y.2.bits b then x
        else match a.toLineEnd.place b d.ebits with
          | some pl => putBits x pl.1 pl.2.2 0
          | none => x) x
    else x) line

/-- One access of a scale array's codes. -/
def writeScales (sd : Desc) (codes : List (Option Nat)) (a : Acc) (line : Nat) : Nat :=
  sd.seqRuns.foldl (fun x q =>
    if q.1 != a.run then x
    else
      match nth none codes q.2.k, a.place q.2.bits sd.ebits with
      | some v, some pl => putBits x pl.1 pl.2.2 (v >>> pl.2.1)
      | _, _ => x) line

/-- The line after one written access of stream `j`. -/
def Lri.writeLine (l : Lri) (o : VeOut) (j : Nat) (a : Acc) (line : Nat) : Nat × Fl :=
  let p := l.plan
  match p.streams[j]? with
  | none => (line, Flag.none)
  | some st =>
    let x := nth Outs.empty o.outs ((p.streams.take j).countP fun t => t.wr)
    match a.kind, st.sd with
    | .scale, some sd => (writeScales sd x.scales a line, Flag.none)
    | _, _ =>
      let w : WSlot := ⟨st.d.space, st.d.seqRuns, x.elems, x.acts⟩
      let (v, fl) := writeElems st.d st.fmt w a line
      (if st.sd.isSome && !st.ident then writeMissing st.d w a v else v, fl)

/-! ### Reads, writes, carry and tile accesses of a beat -/

def State.spLine (s : State) (r k line : Nat) : Nat := bytesToNat (s.bytes (spAddr r k (128 * line)) 128)

def State.setSpLine (s : State) (r k line v : Nat) : State :=
  { s with mem := s.mem.writeBytes (spAddr r k (128 * line)) (natToBytes 128 v) }

def Cluster.modLri (c : Cluster) (id : Nat) (f : Lri → Lri) : Cluster :=
  { c with lris := c.lris.map fun l => if l.id == id then f l else l }

def Cluster.lri (c : Cluster) (id : Nat) : Option Lri := c.lris.find? fun l => l.id == id

/-- Latch what a read access finds (R118). -/
def State.latch (s : State) (r k : Nat) (a : TAcc) : State :=
  match a.acc.line with
  | none => s
  | some _ =>
    let v := s.spLine r k a.acc.phys
    s.modCl r k fun c => c.modLri a.lri fun l => { l with latches := setNth (setNth (some v) (nth [] l.latches a.j) a.i) l.latches a.j }

def carryOf (c : Cluster) (u : EUnit) (e : Nat) : Nat := if u == .ve0 then Sparse.get 0 c.carry0 e else Sparse.get 0 c.carry1 e

def Cluster.setCarry (c : Cluster) (u : EUnit) (e v : Nat) : Cluster :=
  if u == .ve0 then { c with carry0 := Sparse.set 0 c.carry0 e v } else { c with carry1 := Sparse.set 0 c.carry1 e v }

/-- The four words of an entry. -/
def carryWords (v : Nat) : List Nat := (List.range 4).map fun i => field v (32 * i) 32

/-- R204: carry reads of an instruction in this beat, with the early ones counted. -/
def State.carryReads (s : State) (r k : Nat) (l : Lri) : State :=
  let b := (s.cl r k).beat
  (l.plan.carryRd.filter fun x => l.issue + x.1 == b).foldl (fun s x =>
    let c := s.cl r k
    let early := c.lris.any fun m =>
      m.unit == l.unit && m.id < l.id && m.plan.carryWr.any fun y => b ≤ m.issue + y.1 && y.2.1 == x.2.1
    let s1 := s.modCl r k fun c => c.modLri l.id fun l => { l with carry := setNth (some (carryWords (carryOf c l.unit x.2.1))) l.carry x.2.2 }
    s1.bump (A.veCarryEarly r k (l.unit.code - 1)) (if early then 1 else 0)) s

/-- R204, R205: carry writes of an instruction in this beat; a word it does not write keeps its value. -/
def State.carryWrites (s : State) (r k : Nat) (l : Lri) : State :=
  let now := l.plan.carryWr.filter fun x => l.issue + x.1 == (s.cl r k).beat
  if now.isEmpty then s
  else
    let out := l.outcome.1.carry
    now.foldl (fun s x =>
      match out.find? fun e => e.1 == x.2.1 with
      | none => s
      | some e => s.modCl r k fun c =>
        let old := carryWords (carryOf c l.unit x.2.1)
        let ws := (List.range 4).map fun i => (nth none e.2 i).getD (nth 0 old i)
        c.setCarry l.unit x.2.1 (sumNat (numberFrom (fun i w => (w % 2 ^ 32) <<< (32 * i)) 0 ws))) s

/-- A tile cell read as an element of `w` bits; a cell filled with another width is free (log 2). -/
def tileCell (t : Sparse Nat) (w : Nat) (rc : Nat × Nat) : Nat :=
  let e := Sparse.get 0 t (64 * rc.1 + rc.2)
  if e = 0 then 0
  else if e % 64 = w then e / 64
  else Sys2Proof.Config.tileMixed (e / 64) (e % 64) w % 2 ^ w

/-- R155: a TTOUT reads tile line i in beat t + i. -/
def State.tileRead (s : State) (r k : Nat) (l : Lri) : State :=
  match TOp.ofCmd l.cmd with
  | some (.tt true orient) =>
    let c := s.cl r k
    let w := (Desc.ofBits (nth 0 l.ds 0)).ebits
    let i := c.beat - l.issue
    if i < 4 * w then
      let v := sumNat (numberFrom (fun j p => tileCell c.tile w (ttCell true orient p) <<< (j * w)) 0 (ttLine w i))
      s.modCl r k fun c => c.modLri l.id fun l => { l with tileIn := l.tileIn ++ [some v] }
    else s
  | _ => s

/-- R155: the beat in which a TTIN writes tile line `i`: t + 1 + i or the beat after its last access. -/
def ttWriteBeat (issue : Nat) (groupOf : Array Nat) (w i : Nat) : Nat :=
  (ttLine w i).foldl (fun m p => max m (issue + groupOf.getD p 0 + 1)) (issue + 1 + i)

/-- R155: the tile lines a TTIN writes in this beat; a masked position leaves its cell (log 40). -/
def State.tileWrite (s : State) (r k : Nat) (l : Lri) : State :=
  match TOp.ofCmd l.cmd, l.plan.streams with
  | some (.tt false orient), [st] =>
    let w := st.d.ebits
    let gs := st.groupOf.toArray
    let lanes := (st.lanes (nth [] l.latches 0)).toArray
    let now := (List.range (4 * w)).filter fun i => ttWriteBeat l.issue gs w i == (s.cl r k).beat
    s.modCl r k fun c => { c with
      tile := (now.flatMap (ttLine w)).foldl (fun t p =>
        let x := lanes.getD p Lane.off
        let cell := ttCell false orient p
        if x.active then Sparse.set 0 t (64 * cell.1 + cell.2) (x.raw % 2 ^ w * 64 + w) else t) c.tile }
  | _, _ => s

/-- One written access reaches its line (R47: in order). -/
def State.storeAcc (s : State) (r k : Nat) (o : Nat → VeOut) (a : TAcc) : State :=
  match a.acc.line, (s.cl r k).lri a.lri with
  | some _, some l =>
    let (v, fl) := l.writeLine (o a.lri) a.j a.acc (s.spLine r k a.acc.phys)
    (s.setSpLine r k a.acc.phys v).modCl r k fun c => c.modLri a.lri fun l => { l with fl := l.fl ||| fl }
  | _, _ => s

/-! ### The untimed port (R49 to R51) -/

/-- One elapsed beat of the untimed ports: every bank serves its first access whose line no timed access takes; the
others of the bank wait, and one whose line is taken counts the beat. Two requests at one bank are granted in the order
they came to it (R51 leaves it open: DESIGN CHOICE, log 9). A scratchpad has 32 banks (R145), a region buffer 16 (R249). -/
def serveUntimed (banks : Nat) (taken : List Nat) : List Nat → List UAcc → List UAcc
  | _, [] => []
  | busy, u :: us =>
    let b := u.line % banks
    if taken.contains u.line then { u with held := u.held + 1 } :: serveUntimed banks taken busy us
    else if busy.contains b then u :: serveUntimed banks taken busy us
    else serveUntimed banks taken (b :: busy) us

/-- R50: accesses held for 16 beats are served first in the stretch beat they cause. -/
def serveYield (us : List UAcc) : List UAcc :=
  serveUntimed 32 [] [] ((us.filter fun u => 16 ≤ u.held) ++ us.filter fun u => u.held < 16)

def Cluster.yields (c : Cluster) : Bool := c.uaccs.any fun u => 16 ≤ u.held

/-! ### Beats -/

/-- `n` beats of the banks of a region buffer; they pass with the elapsed beats of the region's clusters (DESIGN CHOICE, log 9). -/
def Region.serveBuffer (n : Nat) (g : Region) : Region :=
  { g with rbaccs := (List.range n).foldl (fun us _ => serveUntimed 16 [] [] us) g.rbaccs }

/-- The next beat of a cluster begins, after `n` elapsed ones. -/
def State.nextBeat (s : State) (r k n : Nat) (f : Cluster → Cluster) : State :=
  { (s.modCl r k (fun c => { f c with elapsed := c.elapsed + n, begun := false, setNow := [], beganAt := s.ticks + 1 })).modRg r
      (Region.serveBuffer n) with
    ticks := s.ticks + 1
    counted := Sparse.erase (fun a => A.doorbell r k / 0x10000 == a / 0x10000) s.counted }

/-- R37: an elapsed beat that is no schedule beat, counted in `a`; the untimed ports go on. -/
def State.stretchBeat (s : State) (r k a : Nat) (serve : List UAcc → List UAcc) : State :=
  ((s.recordSlip r k).bump a 1).nextBeat r k 1 fun c => { c with uaccs := serve c.uaccs }

/-- R50. -/
def State.yieldBeat (s : State) (r k : Nat) : State := s.stretchBeat r k (A.yield_ r k) serveYield

/-- R102. -/
def State.holdBeat (s : State) (r k a : Nat) : State := s.stretchBeat r k a (serveUntimed 32 [] [])

/-- Line accesses that wrote pads, and misaligned blocks, of this beat (R158). -/
def State.countAccs (s : State) (r k : Nat) (as : List TAcc) : State :=
  (s.bump (A.pmMis r k) (as.countP fun a => a.acc.mis)).bump (A.pmPadw r k) (as.countP fun a => a.wr && a.acc.padw && a.acc.line.isSome)

/-- R33, R47, R48, R118: the timed work of one schedule beat, with the errors its reads meet (R251); then the next schedule beat
begins. -/
def State.timedBeat (s : State) (r k : Nat) (e : Env) : State :=
  let as := (s.cl r k).timedAccs
  let n := stretchOf as
  let s1 := (banked as).foldl (fun s a => s.slip r k a.unit a.lri a.tag a.wr a.acc.phys) (s.countAccs r k as)
  let rds := as.filter fun a => !a.wr
  let s1' := s1.noteChip e ((banked rds).map fun a => Loc.chip (spAddr r k (128 * a.acc.phys)))
  let s2 := rds.foldl (fun s a => s.latch r k a) s1'
  let ls := (s2.cl r k).lris
  let s3 := ls.foldl (fun s l => (s.carryReads r k l).tileRead r k l) s2
  let ls' := (s3.cl r k).lris
  let stores := (s3.cl r k).timedStores
  let writers := dedupNat (stores.map TAcc.lri)
  let outs := (ls'.filter fun l => writers.contains l.id).map fun l => (l.id, l.outcome.1)
  let o (id : Nat) : VeOut := match outs.find? fun p => p.1 == id with | some p => p.2 | none => VeOut.empty
  let s4 := stores.foldl (fun s a => s.storeAcc r k o a) s3
  let s5 := ls'.foldl (fun s l => (s.carryWrites r k l).tileWrite r k l) s4
  let s6 := (s5.recordSlip r k).bump (A.collide r k) n
  (s6.nextBeat r k (n + 1) fun c =>
    { c with
      beat := c.beat + 1
      uaccs := (List.range (n + 1)).foldl (fun us i => serveUntimed 32 (timedLines as i) [] us) c.uaccs }).pruneUnseen r k

/-- R33, R102: one beat of a cluster: a yield or a hold beat where one is due, otherwise a schedule beat. -/
def State.clusterBeat (s : State) (r k : Nat) (e : Env) : State :=
  if !s.beats r k then s
  else if (s.cl r k).yields then s.yieldBeat r k
  else
    let s1 := (s.beginBeat r k).descBefore r k e
    match s1.holdCause r k e with
    | some a => s1.holdBeat r k a
    | none => ((List.range 4).foldl (fun s q => s.stepQueue r k q e) s1).timedBeat r k e

end Sys2Proof.Machine
end

