-- ==== Sys2Proof/Machine/Mover.lean ====
section
/-!
DEFINITION. Sys2Proof/Machine/Mover.lean: mover commands from start to done point (R56, R115, R149 to R153, R276, R329,
R330), translation of requests at a region router (R256, R257, R259), queue fetches and descriptor loads.
-/
namespace Sys2Proof.Machine

/-! ### Activity and pieces of a command -/

/-- R141, R259: bytes of a slot's mask tensor, none where the read faults; a poisoned one arrives as zeros (R266, log 27). -/
def State.maskBytes (s : State) (e : Env) (at_ : Nat → Loc) (d : Desc) : Array (Option Byte) :=
  if d.maskTensor then
    ((List.range (ceilDiv d.positions 8)).map fun i =>
      match at_ ((d.maskBase + i) % 2 ^ 52) with
      | .bad _ => none
      | l => let b := s.readByte e l; some (if b.poison then 0#8 else b.val)).toArray
  else #[]

/-- R141: addresses of the mask bytes that the positions from ordinal `lo` to before `hi` need. -/
def Desc.maskAddrs (d : Desc) (lo hi : Nat) : List Nat :=
  if d.maskTensor then (List.range (ceilDiv hi 8 - lo / 8)).map fun i => (d.maskBase + lo / 8 + i) % 2 ^ 52 else []

/-- R141, R259: whether position `k` is active; a mask byte that faulted leaves its positions inactive. -/
def moverActive (d : Desc) (mask : Array (Option Byte)) (p : Pos) : Bool :=
  p.inBnd && (!d.maskTensor || match mask.getD (p.k / 8) none with | some b => b.toNat.testBit (p.k % 8) | none => false)

/-- R158: inactive positions of a slot from ordinal `lo` to before `hi`. -/
def Desc.maskedIn (d : Desc) (mask : Array (Option Byte)) (lo hi : Nat) : Nat :=
  d.seq.countP fun p => lo ≤ p.k && p.k < hi && !moverActive d mask p

/-- Bit address of a position in the 52-bit space. -/
def Pos.bitAddr (p : Pos) : Nat := 8 * p.addr + p.bitoff

/-- Number of the destination block each position belongs to, by ordinal (R143, R153). -/
def Desc.blockOf (d : Desc) : List (Nat × Nat) :=
  (numberFrom (fun i (b : Block) => b.ps.map fun p => (p.k, i)) 0 d.blocks).flatten

/-- R140, R150: what a destination position receives: a pad its PAD_VALUE under PADW 1 unless a non-pad position that
aliases it is written, another its source. -/
def destMove (d1 : Desc) (blk : Nat) (act0 act1 : Bool) (others : List Pos) (src : Option Nat) (val : Nat) (p : Pos) : Option Move :=
  let put (src : Option Nat) (val : Nat) : Option Move := some ⟨src, val % 2 ^ d1.ebits, p.bitAddr, d1.ebits, blk, p.k, p.pad⟩
  if p.pad then (if act1 && d1.padw && !(others.any fun q => q.aliases d1.space p) then put none d1.padValue else none)
  else if act0 && act1 then put src val
  else none

/-- R150: the pieces of an MVCOPY from ordinal `lo` to before `hi`; with R328's operands and targets also those of an MVATOM. -/
def copyMoves (d0 d1 : Desc) (m0 m1 : Array (Option Byte)) (lo hi : Nat) : List Move :=
  let ps := (d0.seq.zip d1.seq).filter fun p => lo ≤ p.2.k && p.2.k < hi
  let acts := ps.map fun p => (moverActive d0 m0 p.1, moverActive d1 m1 p.2)
  let written := ((ps.zip acts).filter fun x => !x.1.2.pad && x.2.1 && x.2.2).map fun x => x.1.2
  let blk := (d1.blockOf.map Prod.snd).toArray
  (ps.zip acts).filterMap fun x =>
    let p := x.1.1
    destMove d1 (blk.getD x.1.2.k 0) x.2.1 x.2.2 written (if p.pad then none else some p.bitAddr) (if p.pad then d0.padValue else 0) x.1.2

/-- R276: the pieces of an MVSET. -/
def fillMoves (d1 : Desc) (pattern : Nat) (m1 : Array (Option Byte)) (lo hi : Nat) : List Move :=
  let acts := (d1.seq.filter fun p => lo ≤ p.k && p.k < hi).map fun p => (p, moverActive d1 m1 p)
  let written := (acts.filter fun x => !x.1.pad && x.2).map Prod.fst
  acts.filterMap fun x => destMove d1 0 true x.2 written none pattern x.1

/-! ### Collective layouts (R345, R346, R351, R357, R359, R360) -/

/-- Pieces that copy `n` bytes from `src` to `dst`, cut at 32-byte granules of both. -/
def byteMoves : Nat → Nat → Nat → Nat → List Move
  | 0, _, _, _ => []
  | f + 1, src, dst, n =>
    if n = 0 then []
    else
      let m := min n (min (32 - src % 32) (32 - dst % 32))
      ⟨some (8 * src), 0, 8 * dst, 8 * m, 0, 0, false⟩ :: byteMoves f (src + m) (dst + m) (n - m)

/-- Pieces that write given bytes. -/
def bytesAt (dst : Nat) (bs : List Byte) : List Move := numberFrom (fun i (b : Byte) => ⟨none, b.toNat, 8 * (dst + i), 8, 0, 0, false⟩) 0 bs

/-- R346: a record and its pattern as bytes; `pat` is the pattern as a number of 4,096 bits. -/
def recordBytes (count lo end_ : Nat) (inclR selfIncl : Bool) (pat : Nat) : List Byte :=
  natToBytes 128 (count % 2 ^ 24 + lo <<< 32 + end_ <<< 48 + (if inclR then 1 <<< 64 else 0) + (if selfIncl then 1 <<< 65 else 0))
    ++ natToBytes 512 pat

/-- R339: the weight of this module's leaf. -/
def State.leafWeight (s : State) (c : Nat) (b : Bucket) : Nat := if b.weight = 0 then (s.regionsOf c).length else b.weight

/-- R346: the record of this module's own leaf. -/
def State.leafRecord (s : State) (c : Nat) (b : Bucket) : List Byte :=
  recordBytes (s.leafWeight c b) b.myrank (b.myrank + 1) false false (2 ^ b.myrank)

/-- R360: the record of ALLGATHER and BROADCAST: COUNT and pattern of its own, the rest as R351 and R357 give it. -/
def byteRecord (b : Bucket) (lo end_ : Nat) (inclR self : Bool) : List Byte := recordBytes b.nranks lo end_ inclR self (2 ^ 4096 - 1)

/-- Where a byte collective's record lies in a layout: after its N bytes rounded up to a line (log 42). -/
def Bucket.byteRec (b : Bucket) : Nat := roundUp b.n 128

/-- Bytes of the layout an edge of a bucket carries, upward from `child` and downward (R345, R359, R360). -/
def Bucket.upSize (b : Bucket) (child : Nat) : Nat :=
  if b.byteColl then b.byteRec + 640
  else if b.compress && topCount child b.nranks == 0 then leafSize b.blocks else partSize b.blocks
def Bucket.downSize (b : Bucket) : Nat := if b.byteColl then b.byteRec + 640 else b.resultSize

/-- Ranges of layout offsets an UP from `m` carries: everything, or the sender's ranks of an ALLGATHER. -/
def Bucket.upRanges (b : Bucket) (m : Nat) : List (Nat × Nat) :=
  if b.coll = 2 then
    let each := b.n / b.nranks
    let hi := min (m + 2 ^ topCount m b.nranks) b.nranks
    [(m * each, (hi - m) * each), (b.byteRec, 640)]
  else if b.coll = 3 then [(b.byteRec, 640)]
  else [(0, b.upSize m)]

/-- Ranges of layout offsets a DOWN to `child` carries: a REDUCE_SCATTER's receiving ranks only (R359), the N bytes and the record of a
byte collective (R360). -/
def Bucket.downRanges (b : Bucket) (child : Nat) : List (Nat × Nat) :=
  if b.coll = 1 then
    let each := b.resBytes / b.nranks
    let hi := min (child + 2 ^ tz child) b.nranks
    [(child * each, (hi - child) * each), (b.er, b.resultSize - b.er)]
  else if b.byteColl then [(0, b.n), (b.byteRec, 640)]
  else [(0, b.downSize)]

/-- Pieces of an UP: the layout at SRC, with the record formed by the mover where a leaf or bytes are sent. -/
def State.upMoves (s : State) (c : Nat) (b : Bucket) (src : Nat) : List Move :=
  let m := b.myrank
  let leaf := topCount m b.nranks == 0
  let recOff := if b.byteColl then b.byteRec else if b.compress && leaf then leafRec b.blocks else partRec b.blocks
  (b.upRanges m).flatMap fun p =>
    if p.1 = recOff ∧ b.byteColl then bytesAt recOff (byteRecord b m (min (m + 2 ^ topCount m b.nranks) b.nranks) (!leaf) false)
    else if leaf ∧ !b.byteColl then byteMoves (p.2 + 1) src 0 recOff ++ bytesAt recOff (s.leafRecord c b)
    else byteMoves (p.2 + 1) (src + p.1) p.1 p.2

/-- Pieces of a DOWN: ranges of the result layout at SRC; the record of bytes is formed by the mover: the root's, with its right input
where there is one, and rank 0 included (R357). -/
def downMoves (b : Bucket) (child src : Nat) : List Move :=
  (b.downRanges child).flatMap fun p =>
    if b.byteColl && p.1 == b.byteRec then bytesAt b.byteRec (byteRecord b 0 b.nranks (b.coll == 2) true)
    else byteMoves (p.2 + 1) (src + p.1) p.1 p.2

/-- R55: largest request of a class in bytes. -/
def classMax (cls : Nat) : Nat := match cls with | 0 => 256 | 1 => 65536 | 2 => 4194304 | _ => 2097152

/-- A piece cut after its first `n` bits. -/
def Move.cut (m : Move) (n : Nat) : List Move :=
  if n = 0 then [m] else [{ m with n }, { m with src := m.src.map (· + n), val := m.val >>> n, dst := m.dst + n, n := m.n - n }]

/-- R56: pieces cut where a request of `most` bits ends, `left` bits of the current one being left. -/
def cutMoves (most : Nat) : Nat → List Move → List Move
  | _, [] => []
  | left, m :: ms => if m.n ≤ left then m :: cutMoves most (left - m.n) ms else m.cut left ++ cutMoves most (most - (m.n - left)) ms

/-- The pieces of an UP or DOWN with their ordinals; RECV and RDOWN move none. -/
def State.collMoves (s : State) (c : Nat) (o : MvOp) : List Move :=
  match o with
  | .coll bidx phase level src _ _ =>
    (match (s.cx c).bucket bidx with
     | none => []
     | some b =>
       let most := 8 * classMax b.cls
       numberFrom (fun i (m : Move) => { m with ord := i }) 0 (cutMoves most most
         (match phase with
          | 0 => s.upMoves c b src
          | 2 => downMoves b (b.myrank + 2 ^ level) src
          | _ => [])))
  | _ => []

/-! ### The pieces of a command and of its requests (R56, R141) -/

def Lri.desc (l : Lri) (i : Nat) : Desc := Desc.ofBits (nth 0 l.ds i)

/-- Whether its source and its destination are in this module. -/
def State.mvLocal (s : State) (o : MvOp) : Bool × Bool :=
  match o with
  | .copy a b => ((s.remoteMod a).isNone, (s.remoteMod b).isNone)
  | .fill b _ => (true, (s.remoteMod b).isNone)
  | .atomic _ b _ _ => (true, (s.remoteMod b).isNone)
  | .coll _ _ _ _ _ _ => (true, false)

/-- The descriptors a mover command uses. -/
def MvOp.slots : MvOp → List Nat
  | .copy _ _ | .atomic _ _ _ _ => [0, 1]
  | .fill _ _ => [1]
  | .coll _ _ _ _ _ _ => []

/-- Ordinals of a command. -/
def State.mvTotal (s : State) (c : Nat) (o : MvOp) (l : Lri) : Nat :=
  match o with | .coll _ _ _ _ _ _ => (s.collMoves c o).length | _ => (l.desc 1).positions

/-- The pieces of a command from ordinal `lo` to before `hi`, by its mask bytes as they stand; `at_` finds those by SWZ and address. -/
def State.mvMoves (s : State) (e : Env) (at_ : Nat → Nat → Loc) (c : Nat) (o : MvOp) (l : Lri) (lo hi : Nat) : List Move :=
  let d0 := l.desc 0
  let d1 := l.desc 1
  let mask (d : Desc) : Array (Option Byte) := s.maskBytes e (at_ d.swz) d
  match o with
  | .copy _ _ | .atomic _ _ _ _ => copyMoves d0 d1 (mask d0) (mask d1) lo hi
  | .fill _ pat => fillMoves d1 pat (mask d1) lo hi
  | .coll _ _ _ _ _ _ => (s.collMoves c o).filter fun m => lo ≤ m.ord && m.ord < hi

/-- R158: inactive positions of the slots of a command. -/
def State.mvMasked (s : State) (e : Env) (at_ : Nat → Nat → Loc) (o : MvOp) (l : Lri) (lo hi : Nat) : Nat :=
  sumNat (o.slots.map fun i => (l.desc i).maskedIn (s.maskBytes e (at_ (l.desc i).swz) (l.desc i)) lo hi)

/-- Virtual byte addresses of the source and destination bytes of a piece. -/
def Move.srcBytes (m : Move) : List Nat := match m.src with | some b => byteSpan b m.n | none => []
def Move.dstBytes (m : Move) : List Nat := byteSpan m.dst m.n

/-- Payload bytes of a list of pieces (R56). -/
def payload (ms : List Move) : Nat := ceilDiv (sumNat (ms.map Move.n)) 8

/-- The mover command that a request belongs to. -/
def State.mvOf (s : State) (r : Nat) (q : Req) : Option (Lri × MvOp) :=
  match q.kind with
  | .mover lri _ _ _ _ => ((s.cl r q.k).lri lri).bind fun l => (MvOp.ofCmd l.cmd).map fun o => (l, o)
  | _ => none

/-- R259: where a translated byte of a request lies; nowhere when its memory has gone. -/
def State.placeVia (s : State) (ps : List Page) (r c swz va : Nat) : Loc :=
  match s.locate ps c (some r) swz va with
  | .page p a => if s.outOk a then .page p a else .bad 4
  | l => l

/-- The pieces of a request, its mask bytes reached through the pages `ps`. -/
def State.reqMoves (s : State) (e : Env) (r : Nat) (q : Req) (ps : List Page) : List Move :=
  match q.kind, s.mvOf r q with
  | .mover _ _ _ lo hi, some (l, o) => s.mvMoves e (s.placeVia ps r q.ctx) q.ctx o l lo hi
  | _, _ => []

/-! ### Start of a mover command (R56, R115) -/

/-- R256: the class of a request from the page of its destination's first byte, else of its source's. -/
def classOf (page : Nat → Option Nat) (loc : Bool × Bool) (ms : List Move) : Nat :=
  let d := if loc.2 then (ms.head?.bind fun m => m.dstBytes.head?).bind page else none
  let a := if loc.1 then (ms.findSome? fun m => m.srcBytes.head?).bind page else none
  (d.orElse fun _ => a).getD 2

/-- R498: the Muolmorn port each end of a piece uses, where it lies in the companion window. -/
def State.portsOf (s : State) (r c : Nat) (loc : Bool × Bool) (swz0 swz1 : Nat) (m : Move) : Option Nat × Option Nat :=
  let port (b : Bool) (swz : Nat) (vas : List Nat) : Option Nat :=
    if b then match vas.head? with
      | some va => (match s.locNow r c swz va with | .page _ a => if isMlm a then some (s.mlmPort a) else none | _ => none)
      | none => none
    else none
  (port loc.1 swz0 m.srcBytes, port loc.2 swz1 m.dstBytes)

/-- The leading pieces of at most `n` bits. -/
def takeBits : Nat → List Move → List Move
  | _, [] => []
  | n, m :: ms => if m.n ≤ n then m :: takeBits (n - m.n) ms else []

/-- R56: consecutive requests, as class, first ordinal and the ordinal after the last: each of the largest size of its own class in
payload bytes, cut where a range crosses from one Muolmorn port to the other (R498); `cls` gives the class of those that
remain, `f` bounds the requests. -/
def splitMoves (cls : List Move → Nat) (ports : Move → Option Nat × Option Nat) (total : Nat) : Nat → Nat → List Move → List (Nat × Nat × Nat)
  | 0, _, _ => []
  | _ + 1, _, [] => []
  | f + 1, lo, m :: ms =>
    let k := cls (m :: ms)
    let part := (takeBits (8 * classMax k) (m :: ms)).takeWhile fun x => ports x == ports m
    let rest := (m :: ms).drop (max 1 part.length)
    let hi := match rest with | x :: _ => x.ord | [] => total
    (k, lo, hi) :: splitMoves cls ports total f hi rest

/-- R362: the class of a collective is its bucket's. -/
def State.collClass (s : State) (c : Nat) (o : MvOp) : Option Nat :=
  match o with
  | .coll bidx _ _ _ _ _ => ((s.cx c).bucket bidx).map Bucket.cls
  | _ => none

/-- The class of a request with the pieces `ms` (R256, R362). -/
def State.mvClass (s : State) (page : Nat → Option Nat) (c : Nat) (o : MvOp) (ms : List Move) : Nat :=
  (s.collClass c o).getD (classOf page (s.mvLocal o) ms)

/-- R153: the range of addresses that a slot reaches: of its non-pad positions, and of its pads where it writes them. -/
def Desc.span (d : Desc) (pads : Bool) : List Nat :=
  match (d.seq.filter fun p => !p.pad || (pads && d.padw)).flatMap fun p => byteSpan p.bitAddr d.ebits with
  | [] => []
  | v :: vs => let lo := vs.foldl min v; (List.range (vs.foldl max v + 1 - lo)).map (lo + ·)

/-- R153: bytes of the source and the destination range that reach the same local physical byte. -/
def State.overlapping (s : State) (r c : Nat) (d0 d1 : Desc) : Bool :=
  let reach (swz : Nat) (vas : List Nat) : List Nat := vas.filterMap fun va =>
    match s.locNow r c swz va with | .bad _ => none | l => some l.addr
  let b := reach d1.swz (d1.span true)
  (reach d0.swz (d0.span false)).any b.contains

/-- R151, R153, R276: the mode a command runs in. -/
def State.mvMode (s : State) (r c : Nat) (o : MvOp) (l : Lri) : MvMode :=
  let d0 := l.desc 0
  let d1 := l.desc 1
  match o with
  | .copy sm dm =>
    if (s.remoteMod sm).isNone && (s.remoteMod dm).isNone && s.overlapping r c d0 d1 then .ordered
    else if d0.hasShortRun || d1.hasShortRun then .narrow else .line
  | .fill _ _ => if d1.hasShortRun then .narrow else .line
  | .atomic _ _ _ _ => .narrow
  | .coll _ _ _ _ _ _ => .line

/-! ### Presenting, translating and dropping requests (R252 to R259) -/

/-- Addresses of the mask bytes a request needs, by slot, with the slot's SWZ. -/
def State.reqMasks (s : State) (r : Nat) (q : Req) : List (Nat × List Nat) :=
  match q.kind, s.mvOf r q with
  | .mover _ _ _ lo hi, some (l, o) => o.slots.map fun i => ((l.desc i).swz, (l.desc i).maskAddrs lo hi)
  | _, _ => []

/-- Local addresses a request with the pieces `ms` touches, with whether it writes there and the slot's SWZ. -/
def State.reqAddrs (s : State) (r : Nat) (q : Req) (ms : List Move) : List (Nat × Bool × Nat) :=
  match q.kind with
  | .mover _ _ _ _ _ =>
    match s.mvOf r q with
    | none => []
    | some (l, o) =>
      let loc := s.mvLocal o
      ms.flatMap fun m =>
        (if loc.1 then m.srcBytes.map fun a => (a, false, (l.desc 0).swz) else [])
          ++ (if loc.2 then m.dstBytes.map fun a => (a, true, (l.desc 1).swz) else [])
  | .fetch _ _ base idx n => (List.range n).map fun i => ((base + 64 * (idx + i)) % 2 ^ 52, false, 0)
  | .desc lri =>
    match (s.cl r q.k).lri lri with
    | some l => (List.range (dlCount l.cmd)).map fun i => ((dlSrc l.cmd + 128 * i) % 2 ^ 52, false, 0)
    | none => []
  | .flag _ _ _ _ => []

/-- Every address a request needs translated now. -/
def State.reqVas (s : State) (e : Env) (r : Nat) (q : Req) : List Nat :=
  (s.reqMasks r q).flatMap Prod.snd
    ++ (s.reqAddrs r q (match q.kind, s.mvOf r q with
        | .mover _ _ _ lo hi, some (l, o) => s.mvMoves e (s.locNow r q.ctx) q.ctx o l lo hi
        | _, _ => [])).map Prod.fst

/-- R259's SOURCE, MOVER and TRACE_TAG of a request. -/
def State.faultBy (s : State) (r : Nat) (q : Req) : Nat × Nat × Nat :=
  let tag (id : Nat) : Nat := match (s.cl r q.k).lri id with | some l => Hdr.tag l.cmd | none => 0
  match q.kind with
  | .mover lri m _ _ _ => (0, m, tag lri)
  | .fetch _ _ _ _ _ => (1, 0, 0)
  | .desc lri => (2, 0, tag lri)
  | .flag _ _ _ _ => (0, 0, 0)

/-- R367: key of a bucket's parity bit: direction 0 up, 1 down. -/
def parityKey (bidx dir level : Nat) : Nat := bidx * 32 + dir * 16 + level

/-- R367: flip a parity bit at the sender or at the receiver. -/
def State.flipParity (s : State) (c : Nat) (tx : Bool) (bidx dir level : Nat) : State :=
  s.modCx c fun x =>
    if tx then { x with ptx := Sparse.set 0 x.ptx (parityKey bidx dir level) (1 - Sparse.get 0 x.ptx (parityKey bidx dir level)) }
    else { x with prx := Sparse.set 0 x.prx (parityKey bidx dir level) (1 - Sparse.get 0 x.prx (parityKey bidx dir level)) }

/-- R109, R110, R103, R259: a mover command reaches its done point: its done-flag counts in the first schedule beat that begins
after it; one whose requests were all dropped counts in its issue beat's next schedule beat, or as soon after it as can be. -/
def State.finishMover (s : State) (r k : Nat) (l : Lri) (dropped : Bool) : State :=
  let s1 := s.modCl r k fun c => { c with lris := c.lris.filter fun x => x.id != l.id }
  let c := s1.cl r k
  let b := max (l.issue + 1) c.beat
  let s2 :=
    if c.begun && b = c.beat then (if dropped then s1.doneFlag r k l.cmd else s1.laterFlag r k (b + 1) l.cmd)
    else s1.laterFlag r k b l.cmd
  s2.retire r k l.q

/-- One request of a mover command is over, having moved the pieces given or been dropped; the last one ends the command. -/
def State.partOver (s : State) (r k lri part : Nat) (ms : Option (List Move)) : State :=
  match (s.cl r k).lri lri with
  | none => s
  | some l =>
    let mv := { l.mv with
      left := l.mv.left - 1, next := max l.mv.next (part + 1), moved := l.mv.moved || ms.isSome
      wrote := l.mv.wrote ++ (ms.getD []).map fun m => (m.dst, m.ord, m.pad) }
    let s1 := s.modCl r k fun c => c.modLri lri fun x => { x with mv := mv }
    if mv.left = 0 then s1.finishMover r k { l with mv := mv } (!mv.moved) else s1

/-- R112, R113: a DESC_LOAD reaches its done point with these descriptors. -/
def State.finishDesc (s : State) (r k lri : Nat) (ds : List Desc1024) : State :=
  match (s.cl r k).lri lri with
  | none => s
  | some l =>
    let s1 := s.modCl r k fun c => { c with
      dcache := (numberFrom (fun i (d : Desc1024) => (dlFirst l.cmd + i, d)) 0 ds).foldl (fun m p => Sparse.set 0 m p.1 p.2) c.dcache
      dpend := c.dpend.filter fun p => p.1 != lri
      lris := c.lris.filter fun x => x.id != lri }
    (s1.doneFlag r k l.cmd).retire r k l.q

/-- R259: a faulting request is dropped. -/
def State.dropReq (s : State) (r : Nat) (q : Req) (kind va : Nat) : State :=
  let (src, mv, tag) := s.faultBy r q
  let s1 := s.recordFault r kind va (s.logOf r q.k) src mv tag
  match q.kind with
  | .mover lri _ part _ _ => s1.partOver r q.k lri part none
  | .fetch qi gen _ idx _ =>
    s1.modCl r q.k fun c => if (c.queue qi).gen == gen then c.setQ qi { c.queue qi with faults := (c.queue qi).faults ++ [idx] } else c
  | .desc lri =>
    s1.finishDesc r q.k lri (match (s1.cl r q.k).lri lri with | some l => List.replicate (dlCount l.cmd) 0 | none => [])
  | .flag _ _ _ _ => s1

/-- The class of a request once its pages are known (R256, R362). -/
def State.classVia (s : State) (r : Nat) (q : Req) (ms : List Move) (ps : List Page) : Nat :=
  let page (va : Nat) : Option Nat := (pageOf ps q.ctx va).map Page.cls
  match q.kind, s.mvOf r q with
  | .mover _ _ _ _ _, some (_, o) => s.mvClass page q.ctx o ms
  | .flag _ _ _ _, _ => 0
  | _, _ => (((s.reqAddrs r q ms).head?.map Prod.fst).bind page).getD 2

/-- One address of each 2 MiB page, and of each line of a window. -/
def pageFirsts : List Nat → List Nat → List Nat
  | _, [] => []
  | seen, va :: vas =>
    let key := if va < winBase then va / 0x200000 else va / 128
    if seen.contains key then pageFirsts seen vas else va :: pageFirsts (key :: seen) vas

/-- R257, R259: translate a slot's mask addresses; the first fault is kept, and the others go on. -/
def State.xlateMask (s : State) (r c swz : Nat) : List Nat → XAll → XAll
  | [], x => x
  | va :: vas, x =>
    let y := s.xlateAll 1024 c [va] { x with fault := none }
    let bad := y.fault.orElse fun _ => s.accessFault y.pages c (some r) swz false va
    s.xlateMask r c swz vas { y with fault := x.fault.orElse fun _ => bad }

/-- The same for every slot, with each slot's first fault. -/
def State.xlateMasks (s : State) (r c : Nat) : List (Nat × List Nat) → XAll → XAll × List (Nat × Nat)
  | [], x => (x, [])
  | m :: ms, x =>
    let y := s.xlateMask r c m.1 (pageFirsts [] m.2) { x with fault := none }
    let z := s.xlateMasks r c ms { y with fault := none }
    (z.1, y.fault.toList ++ z.2)

/-- R58, R61: a translated request joins those presented to admission, or keeps its place among them. -/
def Region.presented (g : Region) (q : Req) : Region :=
  { g with waiting :=
      if g.waiting.any fun y => y.id == q.id && y.arrive.isSome then g.waiting.map fun y => if y.id == q.id then q else y
      else (g.waiting.filter fun y => y.id != q.id) ++ [q] }

/-- R257, R259: translate a request through the router's cache, walking what misses, its mask bytes first, and put it among those
presented to admission, or drop it. A mask that faults is recorded once for each slot; a request walked again counts only what it
reached before. -/
def State.translate (s : State) (r : Nat) (q : Req) (beats : Nat) (e : Env) : State :=
  let xm := s.xlateMasks r q.ctx (s.reqMasks r q) ⟨[], (s.rg r).cache, 0, 0, none⟩
  let ms := s.reqMoves e r q xm.1.pages
  let vas := s.reqAddrs r q ms
  let x := s.xlateAll 1024 q.ctx (vas.map Prod.fst) xm.1
  let s1 := ((s.bump (A.xHits r) x.hits).bump (A.xWalks r) x.walks).bump (A.xWalkBeats r) (if x.walks = 0 then 0 else beats)
  let s2 := s1.modRg r fun g => { g with cache := x.cache, misses := g.misses.filter fun i => i != q.id }
  let new := xm.2.filter fun f => q.arrive.isNone || (pageOf q.pages q.ctx f.2).isSome
  let s3 := new.foldl (fun s f => s.recordFault r f.1 f.2 (s.logOf r q.k) 3 (s.faultBy r q).2.1 (s.faultBy r q).2.2) s2
  let bad := match x.fault with
    | some f => some f
    | none => vas.findSome? fun (v : Nat × Bool × Nat) => s3.accessFault x.pages q.ctx (some r) v.2.2 v.2.1 v.1
  match bad with
  | some f => (s3.modRg r fun g => { g with waiting := g.waiting.filter fun y => y.id != q.id }).dropReq r q f.1 f.2
  | none =>
    s3.modRg r fun g => g.presented { q with
      pages := x.pages, walked := true, cls := s3.classVia r q ms x.pages
      arrive := match q.arrive with | some b => some b | none => some (s3.c0 r) }

/-- A request enters its router; one that every cached leaf serves needs no walk, another's misses arise (R257). -/
def State.present (s : State) (r : Nat) (q : Req) (e : Env) : State :=
  let s1 := s.addReq r q
  match (s1.rg r).waiting.getLast? with
  | none => s1
  | some q' => if allHit (s1.rg r).cache q'.ctx (s1.reqVas e r q') then s1.translate r q' 0 e else s1

/-- R257: a waiting request may be translated: every leaf it needs is cached, or its walks are among the first eight and no table page
of theirs lies in a stack that serves no request. -/
def State.mayWalk (s : State) (r : Nat) (q : Req) (e : Env) : Bool :=
  !q.walked && (allHit (s.rg r).cache q.ctx (s.reqVas e r q) || ((s.rg r).misses.take 8).contains q.id)
    && (s.reqVas e r q).all fun va => winBase ≤ va || (pageOf (s.rg r).cache q.ctx va).isSome || !s.walkHeld q.ctx va

/-- R56, R151, R153, R276: a mover starts a command: its requests are cut by its mask bytes as they stand (log 27), its mode counted,
its requests presented. One that moves nothing is done, its mask faults recorded. -/
def State.startMover (s : State) (r k m : Nat) (e : Env) (l : Lri) (o : MvOp) : State :=
  let c := ((s.rg r).owner).getD 0
  let total := s.mvTotal c o l
  let ms := s.mvMoves e (s.locNow r c) c o l 0 total
  let mode := s.mvMode r c o l
  let page (va : Nat) : Option Nat := match s.locNow r c 0 va with | .page p _ => some p.cls | _ => none
  let parts := splitMoves (s.mvClass page c o) (s.portsOf r c (s.mvLocal o) (l.desc 0).swz (l.desc 1).swz) total (ms.length + 1) 0 ms
  let waits : Bool := match o with | .coll _ phase _ _ _ _ => phase == 1 || phase == 3 | _ => false
  let counted : Bool := match o with | .copy _ _ | .fill _ _ => true | _ => false
  let s1 := s.bump (if mode == .ordered then A.mvOrdered r k m else A.mvNarrow r k m) (if counted && mode != .line then 1 else 0)
  let s2 := s1.modCl r k fun x => x.modLri l.id fun y =>
    { y with mv := { MvState.init with started := true, left := if waits then 1 else parts.length, mode } }
  if !waits && parts.isEmpty then
    let xm := s2.xlateMasks r c (o.slots.map fun i => ((l.desc i).swz, (l.desc i).maskAddrs 0 total)) ⟨[], (s2.rg r).cache, 0, 0, none⟩
    let s3 := xm.2.foldl (fun s f => s.recordFault r f.1 f.2 (s.logOf r k) 3 m (Hdr.tag l.cmd)) s2
    (s3.bump (A.pmMasked r k) (s.mvMasked e (s.locNow r c) o l 0 total)).finishMover r k l true
  else
    (numberFrom (fun i (p : Nat × Nat × Nat) => (i, p)) 0 parts).foldl (fun s p =>
      s.present r { s.newReq r k (.mover l.id m p.1 p.2.2.1 p.2.2.2) p.2.1 with ctx := c } e) s2

/-- R115: mover `m` carries up to 4 commands; the next one in issue order starts. -/
def State.moverNext (s : State) (r k m : Nat) : Option Lri :=
  let ls := (s.cl r k).lris.filter fun l => l.unit == (if m = 0 then EUnit.mv0 else EUnit.mv1)
  if (ls.countP fun l => l.mv.started) < 4 then ls.find? fun l => !l.mv.started else none

/-! ### Queue fetches (R96) -/

/-- R96, R121, R122: a queue may send a fetch request now: where its stream has commands not yet requested and 64 or
more slots of its buffer are free. -/
def State.mayFetch (s : State) (r k q : Nat) : Bool :=
  let c := s.cl r k
  let x := c.queue q
  let live : Bool := match x.st with
    | .starting | .issuing | .waiting => true
    | .held => c.phase == .train
    | .fetching => true
    | _ => false
  live && (match x.len with | some n => x.req < n | none => true) && x.req - x.pos ≤ 448

/-- R96: the next fetch request of a queue: 64 commands, or the rest of its stream. -/
def State.fetchReq (s : State) (r k q : Nat) : State :=
  let x := s.queue r k q
  let n := match x.len with | some n => min 64 (n - x.req) | none => 64
  (s.setQ r k q { x with req := x.req + n }).present r (s.newReq r k (.fetch q x.gen x.base x.req n) 2) noEnv

/-- Whether a place lies behind the plinth link (CXL tier or companion window). -/
def Loc.beyond : Loc → Bool
  | .page _ a => isCxl a || isMlm a
  | _ => false

/-- Bytes a request reads from consecutive addresses; poisoned ones arrive as zeros (R266), as do those that a far end
did not answer (`lost`, R270). -/
def State.readReq (s : State) (e : Env) (r : Nat) (q : Req) (lost : Bool) (va n : Nat) : List Byte :=
  (List.range n).map fun i =>
    let l := s.locate q.pages q.ctx (some r) 0 ((va + i) % 2 ^ 52)
    let b := s.readByte e l
    if b.poison || (lost && l.beyond) then 0#8 else b.val

/-- The places a plain read of `n` bytes touches. -/
def State.placesOf (s : State) (r : Nat) (q : Req) (va n : Nat) : List Loc :=
  (List.range n).map fun i => s.locate q.pages q.ctx (some r) 0 ((va + i) % 2 ^ 52)

/-- Take an accepted request off its router. -/
def State.takeReq (s : State) (r id : Nat) : State :=
  s.modRg r fun g => { g with accepted := g.accepted.filter fun x => x.id != id }

def State.acceptedReq (s : State) (r id : Nat) : Option Req := (s.rg r).accepted.find? fun q => q.id == id
def State.waitingReq (s : State) (r id : Nat) : Option Req := (s.rg r).waiting.find? fun q => q.id == id

/-- R266, R270, R274: what the reads of a request count: a far end that did not answer delivers each of its granules poisoned. -/
def State.noteSources (s : State) (r : Nat) (e : Env) (lost : Bool) (ls : List Loc) : State :=
  let far := if lost then ls.filter Loc.beyond else []
  ((s.noteReads (some r) e (if lost then ls.filter fun l => !l.beyond else ls)).noteChip e ls).bump (A.poisonReads r) (granulesAt far).length

/-- R96, R97: fetched commands enter the buffer of the queue that still runs the stream they belong to. -/
def State.fetchDone (s : State) (r : Nat) (q : Req) (e : Env) (lost : Bool) (qi gen base idx n : Nat) : State :=
  let va := (base + 64 * idx) % 2 ^ 52
  let s1 := s.noteSources r e lost (s.placesOf r q va (64 * n))
  let bs := s1.readReq e r q lost va (64 * n)
  let cmds := numberFrom (fun i (b : List Byte) => (idx + i, BitVec.ofNat 512 (bytesToNat b))) 0 (chunks 64 n bs)
  let s2 := s1.takeReq r q.id
  s2.modCl r q.k fun c => if (c.queue qi).gen == gen then c.setQ qi { c.queue qi with buf := (c.queue qi).buf ++ cmds } else c

/-- R112: loaded descriptors enter the cache. -/
def State.descDone (s : State) (r : Nat) (q : Req) (e : Env) (lost : Bool) (l : Lri) : State :=
  let n := dlCount l.cmd
  let s1 := s.noteSources r e lost (s.placesOf r q (dlSrc l.cmd) (128 * n))
  let bs := s1.readReq e r q lost (dlSrc l.cmd) (128 * n)
  (s1.takeReq r q.id).finishDesc r q.k l.id ((chunks 128 n bs).map fun b => BitVec.ofNat 1024 (bytesToNat b))

/-! ### Data of a mover request (R137, R140, R150, R153, R266, R329, R330) -/

/-- AOP at a width (R329). -/
def atomOp (aop : Nat) (sgn : Bool) (w x y : Nat) : Nat :=
  match aop with
  | 0 => (x + y) % 2 ^ w
  | 1 => if sgn then (if signed w x ≤ signed w y then x else y) else min x y
  | 2 => if sgn then (if signed w x ≤ signed w y then y else x) else max x y
  | 3 => x &&& y
  | 4 => x ||| y
  | _ => x ^^^ y

/-- R137, R140: whether a piece still writes once pieces of requests already complete have: not over a later ordinal at the same
address, nor a pad over an element. -/
def Move.stands (wrote : List (Nat × Nat × Bool)) (m : Move) : Bool :=
  !(wrote.any fun y => y.1 == m.dst && (if m.pad == y.2.2 then m.ord < y.2.1 else m.pad))

/-- The pieces of a request that write; the targets of an atomic all do. -/
def Lri.standing (l : Lri) (o : MvOp) (ms : List Move) : List Move :=
  match o with
  | .atomic _ _ _ _ => ms
  | _ => ms.filter (Move.stands l.mv.wrote)

/-- A piece's value as read from local memory, and whether its source was poisoned byte by byte. -/
def State.readMove (s : State) (e : Env) (locOf : Nat → Loc) (m : Move) : Nat × List Bool :=
  match m.src with
  | none => (m.val, [])
  | some b =>
    let rs := (byteSpan b m.n).map fun va => s.readByte e (locOf va)
    (gatherAt b m.n (rs.map ByteRead.val), rs.map ByteRead.poison)

/-- Byte writes of a piece at its destination places; a byte is poisoned where its source granule was (R266). -/
def Move.writes (m : Move) (locOf : Nat → Loc) (v : Nat) (bads : List Bool) : List (Loc × Wr) :=
  numberFrom (fun i (w : Wr) =>
    let bad := if m.n < 8 || bads.length ≠ (byteSpan m.dst m.n).length then bads.any id else nth false bads i
    (locOf w.addr, { w with bad := bad })) 0 (scatterAt m.dst m.n v false)

/-- R150: a part of a copy or fill: every source is read before any destination is written, but for values already held; R53 lets
no value depend on the order within a request whose ends do not overlap. -/
def State.moveData (s : State) (e : Env) (src dst : Nat → Loc) (held : List (Nat × Nat × List Bool)) (ms : List Move) : State :=
  s.writeLocs (ms.flatMap fun m =>
    let x := match held.find? fun h => h.1 == m.ord with | some h => h.2 | none => s.readMove e src m
    m.writes dst x.1 x.2)

/-- R153: block by block in ordinal order; `rest` are the pieces of the last block that its next request writes: they are read with
it, and held. -/
def State.moveOrdered (s : State) (e : Env) (src dst : Nat → Loc) (held : List (Nat × Nat × List Bool)) (ms rest : List Move) :
    State × List (Nat × Nat × List Bool) :=
  (dedupNat (ms.map Move.blk)).foldl (fun x b =>
    let h := (rest.filter fun m => m.blk == b).map fun m =>
      (m.ord, match held.find? fun h => h.1 == m.ord with | some h => h.2 | none => x.1.readMove e src m)
    (x.1.moveData e src dst held (ms.filter fun m => m.blk == b), x.2 ++ h)) (s, [])

/-- R329, R330: one operation on a target; poisoned targets and operands leave it, and are counted by granule. -/
def State.atomOne (s : State) (e : Env) (aop : Nat) (sgn : Bool) (dst : Nat → Loc) (m : Move) (v : Nat) (bad : Bool) : State :=
  let vas := byteSpan m.dst m.n
  let rs := vas.map fun va => s.readByte e (dst va)
  if bad || rs.any ByteRead.poison then s
  else s.writeLocs ((m.writes dst (atomOp aop sgn m.n (gatherAt m.dst m.n (rs.map ByteRead.val)) v)) [])

/-- R330: granules an atomic skipped: poisoned targets, and granules of operands that were poisoned. -/
def State.atomSkips (s : State) (e : Env) (src dst : Nat → Loc) (ms : List Move) : Nat :=
  let poisoned (locOf : Nat → Loc) (vas : List Nat) : List Nat :=
    dedupNat ((vas.filter fun va => (s.readByte e (locOf va)).poison).map fun va => granOf (locOf va).addr)
  (poisoned dst (ms.flatMap Move.dstBytes)).length + (poisoned src (ms.flatMap Move.srcBytes)).length

/-- R329: a part of a local MVATOM; targets in the companion window travel as ATOM packets (R499). -/
def State.atomData (s : State) (e : Env) (aop : Nat) (sgn : Bool) (src dst : Nat → Loc) (ms : List Move) : State :=
  let s1 := s.bump A.atomPoison (s.atomSkips e src dst ms)
  ms.foldl (fun s m =>
    let x := s.readMove e src m
    match dst (m.dst / 8 % 2 ^ 52) with
    | .page _ a =>
      if isMlm a then
        if x.2.any id then s
        else s.sendMlm (s.mlmPort a) (wrPacket 5 (s.mlmAddr a) (dst (m.dst / 8 % 2 ^ 52)).cls s.dataProt (natToBytes (m.n / 8) x.1)
          (aop + (if sgn then 8 else 0) + (if m.n = 64 then 16 else 0)))
      else s.atomOne e aop sgn dst m x.1 (x.2.any id)
    | _ => s.atomOne e aop sgn dst m x.1 (x.2.any id)) s1

/-- Lines of this cluster's scratchpad a list of places touches (R117). -/
def ownLines (r k : Nat) (ls : List Loc) : List Nat :=
  dedupNat (ls.filterMap fun l => match l with
    | .chip a => if spAddr r k 0 ≤ a && a < spAddr r k 0x400000 then some ((a - spAddr r k 0) / 128) else none
    | _ => none)

/-- Slips of a mover's line accesses to its own cluster's scratchpad (R117, R120). -/
def State.mvSlips (s : State) (r k : Nat) (l : Lri) (src dst : List Loc) : State :=
  let go (wr : Bool) (s : State) (lines : List Nat) : State :=
    lines.foldl (fun s n => s.slip r k l.unit l.id (Hdr.tag l.cmd) wr n) s
  go true (go false s (ownLines r k src)) (ownLines r k dst)

/-- Which source and destination places a mover request touches. -/
def State.mvPlaces (s : State) (r : Nat) (q : Req) (l : Lri) (o : MvOp) : List Loc × List Loc :=
  let loc := s.mvLocal o
  let at_ (swz va : Nat) : Loc := s.locate q.pages q.ctx (some r) swz va
  ((if loc.1 then (q.moves.flatMap Move.srcBytes).map (at_ (l.desc 0).swz) else []),
   (if loc.2 then (q.moves.flatMap Move.dstBytes).map (at_ (l.desc 1).swz) else []))

/-- The places of the mask bytes a request reads. -/
def State.maskPlaces (s : State) (r : Nat) (q : Req) : List Loc :=
  (s.reqMasks r q).flatMap fun m => (m.2.map fun va => s.placeVia q.pages r q.ctx m.1 va).filter fun l => match l with | .bad _ => false | _ => true

/-- The far end's answer makes a companion or CXL read poisoned, or leaves a write undone. -/
inductive FarEnd where
  | ok
  | lost (landed : Bool)
  deriving DecidableEq, Repr

/-- R270, R274: a place that a far end did not answer for reads as poison. -/
def FarEnd.src (far : FarEnd) (l : Loc) : Loc :=
  match far with | .ok => l | .lost _ => if l.beyond then .bad 0 else l

/-- R270, R274: whether writes to these places are known to be made, or happen to have been. -/
def FarEnd.writes (far : FarEnd) (dst : List Loc) : Bool :=
  match far with | .ok => true | .lost landed => landed || !(dst.any Loc.beyond)

/-- R153: pieces of the destination block that a request's last piece lies in, in the requests after it. -/
def State.restOfBlock (s : State) (e : Env) (r : Nat) (q : Req) (l : Lri) (o : MvOp) : List Move :=
  match q.kind, q.moves.getLast? with
  | .mover _ _ _ _ hi, some m =>
    (s.mvMoves e (s.locNow r q.ctx) q.ctx o l hi (s.mvTotal q.ctx o l)).filter fun x => x.blk == m.blk
  | _, _ => []

/-- The data of a local mover request: all of it, or, where the far end did not answer by its bound (R270, R274),
poison from it and writes that landed or not. Beside the state, the values held for an ordered command's next request. -/
def State.mvData (s : State) (r : Nat) (q : Req) (l : Lri) (o : MvOp) (e : Env) (far : FarEnd) : State × List (Nat × Nat × List Bool) :=
  let src (va : Nat) : Loc := far.src (s.locVia q.pages r q.ctx (l.desc 0).swz va)
  let dst (va : Nat) : Loc := s.locate q.pages q.ctx (some r) (l.desc 1).swz va
  let ms := l.standing o q.moves
  let keep := far.writes ((q.moves.flatMap Move.dstBytes).map dst)
  match o with
  | .copy _ _ =>
    if l.mv.mode == .ordered then
      let x := s.moveOrdered e src dst l.mv.held ms (s.restOfBlock e r q l o)
      (if keep then x.1 else s, x.2)
    else (if keep then s.moveData e src dst [] ms else s, [])
  | .fill _ _ => (if keep then s.moveData e src dst [] ms else s, [])
  | .atomic _ _ aop sgn => (if keep then s.atomData e aop sgn src dst ms else s, [])
  | .coll _ _ _ _ _ _ => (s, [])

/-- Values that an ordered command goes on with (R153). -/
def State.holdValues (s : State) (r k lri : Nat) (held : List (Nat × Nat × List Bool)) : State :=
  s.modCl r k fun c => c.modLri lri fun x => { x with mv := { x.mv with held } }

/-- R60, R117, R159, R251, R266: a local mover request completes. -/
def State.completeMover (s : State) (r : Nat) (q : Req) (l : Lri) (o : MvOp) (m part : Nat) (e : Env) (far : FarEnd) : State :=
  let pl := s.mvPlaces r q l o
  let rmw : Bool := match o with | .atomic _ _ _ _ => true | _ => false
  let s1 := s.noteSources r e (far != .ok) pl.1
  let x := ((s1.noteTargets rmw e pl.2).mvSlips r q.k l pl.1 pl.2).mvData r q l o e far
  let s2 := (x.1.bump (A.mvBytes r q.k m) (payload q.moves)).holdValues r q.k l.id x.2
  (s2.takeReq r q.id).partOver r q.k l.id part (some q.moves)

/-! ### Accesses at the banks (R49 to R51, R248, R249) -/

/-- Lines of scratchpads and region buffers that a list of places touches: region, unit (9 the region buffer), line. -/
def chipLines (ls : List Loc) : List (Nat × Nat × Nat) :=
  (dedupNat (ls.filterMap fun l => match l with | .chip a => some ((a - physWin) / 128) | _ => none)).filterMap fun n =>
    let o := n % 0x80000
    if o < 0x48000 then some (n / 0x80000, o / 0x8000, o % 0x8000)
    else if 0x60000 ≤ o then some (n / 0x80000, 9, o - 0x60000)
    else none

/-- Accesses of request `id` of `home` wait at their banks. -/
def State.queueUntimed (s : State) (home id : Nat) (ls : List Loc) : State :=
  (chipLines ls).foldl (fun s p =>
    if p.2.1 = 9 then s.modRg p.1 fun g => { g with rbaccs := g.rbaccs ++ [⟨home, id, p.2.2, 0⟩] }
    else s.modCl p.1 p.2.1 fun c => { c with uaccs := c.uaccs ++ [⟨home, id, p.2.2, 0⟩] }) s

def UAcc.of (home id : Nat) (u : UAcc) : Bool := u.home == home && u.req == id

/-- Whether a request still has an access waiting at a bank. -/
def State.untimedLeft (s : State) (home id : Nat) : Bool :=
  s.clusters.any (fun p => p.2.uaccs.any (UAcc.of home id)) || s.regions.any fun p => p.2.rbaccs.any (UAcc.of home id)

/-- A request that ends leaves no access waiting at a bank. -/
def State.dropUntimed (s : State) (home id : Nat) : State :=
  let s1 := (s.clusters.map Prod.fst).foldl (fun s key =>
    s.modCl (key / 9) (key % 9) fun c => { c with uaccs := c.uaccs.filter fun u => !u.of home id }) s
  (s.regions.map Prod.fst).foldl (fun s r => s.modRg r fun g => { g with rbaccs := g.rbaccs.filter fun u => !u.of home id }) s1

end Sys2Proof.Machine
end

