-- ==== Sys2Proof/Machine/Remote.lean ====
section
/-!
DEFINITION. Sys2Proof/Machine/Remote.lean: packets that leave the module (R312 to R320, R414), key exchange at the initiator
(R417), admission (R42, R55 to R61, R390, R391, R522), and the end of accepted requests, local and remote (R60, R270, R274,
R324 to R327).
-/
namespace Sys2Proof.Machine

/-! ### Packets out -/

/-- R338: the route table's entry for a module: its egress port when valid. -/
def State.routeOf (s : State) (m : Nat) : Option Nat :=
  let e := s.fieldN (A.route (m / 8)) (8 * (m % 8)) 8
  if bitAt e 3 then some (e % 8) else none

/-- R337: a port is up. -/
def State.portUp (s : State) (p : Nat) : Bool := s.fieldN (A.portStatus p) 0 2 != 0

/-- R317: the egress port for a module, where its entry is valid and the port up. -/
def State.egress (s : State) (m : Nat) : Option Nat :=
  match s.routeOf m with
  | some p => if s.portUp p then some p else none
  | none => none

/-- R414, R416: a packet is sealed under the session's send counter; the session ends at 2^48 packets. -/
def State.sealPkt (s : State) (x : Pkt) : State × Pkt :=
  if x.enc then
    match s.session x.dst with
    | none => (s, x)
    | some y =>
      let s1 := if y.sent + 1 = 2 ^ 48 then s.dropSession y.peer else s.setSession { y with sent := y.sent + 1 }
      (s1, { x with ctr := y.sent })
  else (s, x)

/-- R315, R317, R320, R414: a MEMBER's packet leaves through its route's port; without one it does not leave (log 44). -/
def State.sendPkt (s : State) (x : Pkt) : State :=
  if !s.isMember then s else
  match s.egress x.dst with
  | none => s
  | some p =>
    let y := { x with
      enc := s.dataProt && x.ptype < 0x20
      vl := if s.bit (A.portCtrl p) 0 then 1 else x.vl }
    if y.enc && (s.session y.dst).isNone then s
    else
      let (s1, z) := s.sealPkt y
      (s1.egressPkt p (some ((s.session y.dst).elim 0 Session.sendKey)) z).send (.packet p z)

/-- R312: a packet of this module in a context's name. -/
def State.mkPkt (s : State) (c ptype dst cls : Nat) : Pkt :=
  { ptype, dst, src := s.modNum, epoch := s.fabEpoch, job := s.fieldN (A.ctxJob c) 0 16, cls, hops := 0, vl := 0, enc := false
    pmask := none, status := 0, tag := 0, addr := 0, aux := 0, len := 0, data := [], reserved := 0, ctr := 0, tagOk := true }

def pktData (x : Pkt) (addr : Nat) (data : List Byte) (mask : Nat) : Pkt :=
  { x with addr, data, len := data.length, pmask := if mask = 0 then none else some mask }

/-- R312, R314: a request packet leaves with a fresh tag and is remembered until its completion. -/
def State.sendTracked (s : State) (r id : Nat) (reads : Bool) (x : Pkt) : State :=
  let t := s.nextTag % 65536
  let s1 := { s with
    nextTag := (s.nextTag + 1) % 65536
    sent := s.sent ++ [(⟨t, x.dst, r, id, x.addr, x.len, reads, false, 0, [], 0⟩ : Sent)] }
  s1.sendPkt { x with tag := t }

/-! ### Runs of bytes -/

/-- A byte for a remote place: address, value, whether its source was poisoned. -/
structure OutByte where
  addr : Nat
  val  : Byte
  bad  : Bool
  deriving DecidableEq, Repr

/-- Keep bytes in ascending order, the later of two at one address. -/
def insertByte (x : OutByte) : List OutByte → List OutByte
  | [] => [x]
  | y :: ys => if x.addr < y.addr then x :: y :: ys else if x.addr = y.addr then y :: ys else y :: insertByte x ys

def sortBytes (xs : List OutByte) : List OutByte := xs.foldr insertByte []

/-- R314: runs of consecutive bytes, at most 4,096 each. -/
def runsOf : List OutByte → List (List OutByte)
  | [] => []
  | x :: xs =>
    match runsOf xs with
    | (y :: ys) :: rest => if y.addr = x.addr + 1 ∧ ys.length + 1 < 4096 then (x :: y :: ys) :: rest else [x] :: (y :: ys) :: rest
    | rest => [x] :: rest

/-- R314: the last packet of a run is the shorter one: a run's pieces count from its start. -/
def cutRuns (rs : List (List OutByte)) : List (List OutByte) :=
  let joined := rs.foldr (fun r acc =>
    match r.getLast?, acc with
    | some l, (y :: ys) :: rest => if y.addr = l.addr + 1 then (r ++ y :: ys) :: rest else r :: (y :: ys) :: rest
    | _, acc => r :: acc) []
  joined.flatMap fun r => chunks 4096 (r.length / 4096 + 1) r

/-- R312: the poison mask of a run: bit g marks data bytes 32g to 32g + 31. -/
def maskOf (r : List OutByte) : Nat :=
  sumNat (numberFrom (fun i g => if g.any OutByte.bad then 2 ^ i else 0) 0 (chunks 32 (r.length / 32 + 1) r))

/-- The bytes of a piece for a remote place; bits it does not write are free (log 43). -/
def Move.outBytes (m : Move) (v : Nat) (bads : List Bool) : List OutByte :=
  numberFrom (fun i (w : Wr) =>
    let bad := if m.n < 8 || bads.length ≠ (byteSpan m.dst m.n).length then bads.any id else nth false bads i
    let free := BitVec.ofNat 8 (Sys2Proof.Config.packByte w.addr w.mask.toNat)
    ⟨w.addr, mergeByte (if w.mask = 0xFF#8 then 0#8 else free) w.val w.mask, bad⟩) 0 (scatterAt m.dst m.n v false)

/-! ### Bounds across the fabric (R331) -/

/-- R331: the links that a route to a module crosses: that of its egress port, then those further on (log 45): EKB_RTT_NS and lanes. -/
def State.routeLinks (s : State) (m : Nat) : List (Nat × Nat) :=
  let p := (s.routeOf m).getD 0
  (s.fieldN (A.rtt p) 0 16, if s.fieldN (A.portStatus p) 0 2 = 2 then 8 else 4) :: Sys2Proof.Config.farLinks m

/-- R331, R311: `x` ns plus `size` bytes at `rate` GB/s times a link's rate factor, rounded up to 10 ns. -/
def linkTime (x size rate : Nat) (l : Nat × Nat) : Nat :=
  let d := rate * l.2 * 1238
  ceilDiv (x * d + size * 8 * max l.1 1238) (10 * d)

/-- R331: the bound in 10 ns of a request over its route; the link of the least rate factor decides the last term. -/
def State.farBound (s : State) (m cls size : Nat) (unaligned : Bool) : Nat :=
  let ls := s.routeLinks m
  let (t0, rate) := match cls with | 0 => (115, 8) | 1 => (160, 16) | 2 => (200, 32) | _ => (350, 8)
  let excess := sumNat (ls.map fun l => l.1 - 620)
  t0 + 70 * (ls.length - 1) + (ls.map (linkTime excess (if unaligned then 2 * size else size) rate)).foldl max 0

/-! ### Key exchange at the initiator (R417) -/

/-- Bytes of the configuration flash (R432); erased ones read 0xFF. -/
def State.flashBytes (s : State) (o n : Nat) : List Byte := (List.range n).map fun i => Sparse.get 0xFF#8 s.flash (o + i)

/-- R439, R421: the certificate chain in the identity area. -/
def State.certChain (s : State) : List Byte := s.flashBytes 0x20010 (min 3000 (bytesToNat (s.flashBytes 0x20000 2)))

/-- R417: the data of an exchange: public key, chain, and signature over what precedes it. -/
def kexData (priv key : Nat) (chain before : List Byte) : List Byte :=
  let body := natToBytes 56 (Sys2Proof.Config.x448Public priv).toNat ++ chain
  body ++ ed448Sign key (before ++ body)

/-- R417: the lower number starts an exchange; the DRBG must serve (R407); none starts during an activation (R447). -/
def State.startKex (s : State) (peer : Nat) : State :=
  if s.modNum < peer && !(s.kexs.any fun x => x.peer == peer) && s.bit A.secStatus 2 && !s.bit A.secStatus 3 && (s.egress peer).isSome then
    let priv := s.nextKey
    let hello := kexData priv (s.identity.getD 0) s.certChain []
    let s1 := { s with nextKey := s.nextKey + 1, drbg := (s.drbg + 1) % 1048576, kexs := s.kexs ++ [(⟨peer, priv, hello, false⟩ : Kex)] }
    s1.sendPkt (pktData (s.mkPkt 0 0x20 peer 0) 0 hello 0)
  else s

/-! ### What an accepted request needs and does -/

/-- The module at the far end of a request, if it is another one. -/
def State.farMod (s : State) (r : Nat) (q : Req) : Option Nat :=
  match q.kind with
  | .flag _ m _ _ => m
  | _ =>
    match s.mvOf r q with
    | some (_, .copy a b) => (s.remoteMod a).orElse fun _ => s.remoteMod b
    | some (_, .fill b _) => s.remoteMod b
    | some (_, .atomic _ b _ _) => s.remoteMod b
    | some (l, .coll _ _ _ _ _ _) => l.aux.head?
    | none => none

/-- Whether a mover command reads from another module. -/
def State.readsFar (s : State) (o : MvOp) : Bool := match o with | .copy a _ => (s.remoteMod a).isSome | _ => false

/-- Places of a request in this module, its pieces settled: sources and destinations. -/
def State.reqPlaces (s : State) (r : Nat) (q : Req) : List Loc × List Loc :=
  match q.kind with
  | .mover _ _ _ _ _ => (match s.mvOf r q with | some (l, o) => s.mvPlaces r q l o | none => ([], []))
  | .fetch _ _ base idx n => (s.placesOf r q ((base + 64 * idx) % 2 ^ 52) (64 * n), [])
  | .desc lri =>
    match (s.cl r q.k).lri lri with
    | some l => (s.placesOf r q (dlSrc l.cmd) (128 * dlCount l.cmd), [])
    | none => ([], [])
  | .flag _ _ _ _ => ([], [])

/-- A request with the pieces it moves by its mask bytes as they stand (R141). -/
def State.settled (s : State) (e : Env) (r : Nat) (q : Req) : Req := { q with moves := s.reqMoves e r q q.pages }

/-- R57, R332: the resources on a request's path. -/
def State.reqPath (s : State) (r : Nat) (q : Req) : List Nat :=
  let d := dieOf r
  let pl := s.reqPlaces r q
  dedupNat ((pl.1 ++ pl.2 ++ s.maskPlaces r q).flatMap (s.placePath d)
    ++ (match s.farMod r q, q.kind with
        | some m, _ => resPlinth d :: (match s.egress m with | some p => [resEkb p] | none => [])
        | none, .flag t _ _ _ => ringPath d (dieOf t)
        | none, _ => []))

/-- R42: a class whose credit rate is zero. -/
def State.classStopped (s : State) (cls : Nat) : Bool :=
  (cls == 3 && 8 ≤ s.admDown) || (cls == 2 && 16 ≤ s.admDown) || (cls == 1 && 24 ≤ s.admDown)

/-- R58: the first of its class among the requests presented. -/
def Region.firstOfClass (g : Region) (q : Req) : Bool :=
  match g.waiting.find? fun x => x.arrive.isSome && x.cls == q.cls with
  | some x => x.id == q.id
  | none => false

/-- R390: a request that writes through a SNAP leaf to a pending part. -/
def State.snapWaits (s : State) (ls : List Loc) : Bool := ls.any s.pendingPart

/-- R390: the copier copies the part next. -/
def State.promote (s : State) (ls : List Loc) : State :=
  ls.foldl (fun s l =>
    match l with
    | .page p a =>
      if s.pendingPart l then
        s.modCx p.ctx fun x =>
          let hit (y : Nat × Option Nat) : Bool := match y.2 with | some b => b / 0x200000 == a / 0x200000 | none => false
          { x with snap := { x.snap with pend := x.snap.pend.filter hit ++ x.snap.pend.filter fun y => !hit y } }
      else s
    | _ => s) s

/-- R391: a write through a leaf without SNAP to a pending part: counted once, and the granules it touches kept with their poison. -/
def State.noteTorn (s : State) (ls : List Loc) : State :=
  let hits := (granulesAt ls).filter fun p => match p.1 with | .page q a => !q.snap && s.snapPending q.ctx a | _ => false
  let s1 := s.bump A.snapTorn (if hits.isEmpty then 0 else 1)
  hits.foldl (fun s p =>
    match p.1 with
    | .page q _ => s.modCx q.ctx fun x =>
      if x.snap.torn.any fun t => t.1 == p.2 then x
      else
        let g := s.readGran p.1.via p.2
        { x with snap := { x.snap with torn := x.snap.torn ++ [(p.2, g.bytes, g.poison)] } }
    | _ => s) s1

/-- The kind of a snapshot part's end, no ring hop added (R392). -/
def partEnd (l : Loc) : EndKind :=
  match l with
  | .page _ a => if isHbm a then .hbm 0 else if isCxl a then .cxl (cxlPort a) else .win
  | _ => .hbm 0

/-- R392, R273, R331: the part-copy bound of a context's part at place `l`, in 10 ns. -/
def State.partBound (s : State) (c : Nat) (l : Loc) : Nat :=
  if s.bit (A.snapCtl c) 2 then s.farBound (s.fieldN (A.snapCtl c) 3 12) 3 2097152 false
  else s.bound 0 3 2097152 (partEnd l) (partEnd (s.ctxPlace c (s.fieldN (A.snapDest c) 21 31 * 0x200000))) false false

/-- R390: the longest that a write to these places may wait: twice the part-copy bound, in 10 ns. -/
def State.snapWaitMax (s : State) (ls : List Loc) : Nat :=
  2 * (ls.map fun l => match l with | .page p _ => if p.snap then s.partBound p.ctx l else 0 | _ => 0).foldl max 0

/-- R390: a write is seen to wait: counted once, and its parts promoted. -/
def State.waitSnap (s : State) (counted : Bool) (ls : List Loc) : State := (s.bump A.snapWaits (if counted then 0 else 1)).promote ls

/-- R390: the wait of a write is over: a free value within its bound (log 37). -/
def State.endWait (s : State) (waited : Bool) (ls : List Loc) : State :=
  if waited then
    let x := s.free (10 * s.snapWaitMax ls + 1)
    x.2.bump A.snapWaitNs x.1
  else s

/-- R417, R315, R317: what a remote request still lacks before it may be accepted. -/
def State.farReady (s : State) (m : Nat) : Bool :=
  s.isMember && (s.egress m).isSome && (!s.dataProt || (s.session m).isSome)

/-- R332: the egress port of a module has lane credits for a request of a class. -/
def State.portRoom (s : State) (m cls : Nat) : Bool :=
  match s.egress m with
  | none => false
  | some p => (s.link p).laneFree p (laneOf cls false (bitOf (s.bit (A.portCtrl p) 0)))

/-- R467: offset `o` of a region lies in the scratchpad of a cluster under test or in its save area. -/
def State.sliceHeld (s : State) (r o : Nat) : Bool :=
  (List.range 9).any fun k =>
    match (s.cl r k).slices.running with
    | some (_, save) => o / 0x400000 == k || (0x3000000 ≤ o && (o - 0x3000000) / 0x200000 == save)
    | none => false

/-- R467, R477, R478: a place whose requests wait at admission: its stack serves none, its die is in reset, or a
self-test slice holds it. -/
def State.placeHeld (s : State) (l : Loc) : Bool :=
  match l with
  | .page _ a => isHbm a && !s.stackUp a
  | .chip a =>
    let r := (a - physWin) / 0x4000000
    s.dieReset.contains (dieOf r) || s.sliceHeld r ((a - physWin) % 0x4000000)
  | .bad _ => false

/-- R477: a path that needs the ring or plinth link ends of a die in reset. -/
def State.pathDown (s : State) (path : List Nat) : Bool :=
  s.dieReset.any fun d => path.contains (resRing d) || path.contains (resRing (d + 3)) || path.contains (resPlinth d)

/-- R42, R55, R57, R477: a class 3 transfer of the module's own (a snapshot part, a page of a sweep, a part of a scrub) may be accepted. -/
def State.bgReady (s : State) (ls : List Loc) : Bool :=
  let path := dedupNat (ls.flatMap s.plinthPath)
  !s.classStopped 3 && !(ls.any fun l => s.placeHeld l || s.recalHeld l) && !s.pathDown path && s.pathOk 3 path

/-- One place in each 4 KiB of 2 MiB from a place. -/
def Loc.partPages (l : Loc) : List Loc :=
  (List.range 512).map fun i => match l with | .page p a => .page p (a + 4096 * i) | .chip a => .chip (a + 4096 * i) | .bad k => .bad k

/-- R332: an arrived packet of this class waits for a resource of this path, and goes first. -/
def State.arrivalAhead (s : State) (cls : Nat) (path : List Nat) : Bool :=
  s.heldPkts.any fun h => h.locs.isNone && h.pkt.cls == cls && h.path.any path.contains

/-- R57, R58, R64, R42, R332, R390, R467, R477: nothing holds a presented request back, its pieces settled. -/
def State.acceptable (s : State) (r : Nat) (q : Req) : Bool :=
  let pl := s.reqPlaces r q
  let path := s.reqPath r q
  s.boot == .ready && q.walked && (s.rg r).firstOfClass q && !(s.rg r).closing && !s.classStopped q.cls
    && (match s.farMod r q with | some m => s.farReady m && s.portRoom m q.cls | none => true)
    && !s.snapWaits pl.2 && !((pl.1 ++ pl.2 ++ s.maskPlaces r q).any s.placeHeld)
    && !s.pathDown path && s.pathOk q.cls path && !s.arrivalAhead q.cls path

/-- R522: it is a request's turn: no other that its router could accept now goes before it. -/
def State.inOrder (s : State) (e : Env) (r : Nat) (q : Req) : Bool :=
  (s.rg r).waiting.all fun y =>
    y.id == q.id || !s.acceptable r (s.settled e r y)
      || s.creditRank q.cls (s.reqPath r q) ≤ s.creditRank y.cls (s.reqPath r (s.settled e r y))

/-- R57, R58, R522: a request may be accepted. -/
def State.mayAccept (s : State) (r : Nat) (q : Req) (e : Env) : Bool :=
  s.acceptable r (s.settled e r q) && s.inOrder e r (s.settled e r q)

/-- R59: an end of a request whose range in scratchpads and region buffers does not start and end on a line boundary. -/
def State.endUnaligned (s : State) (r : Nat) (q : Req) (swz : Nat) (vas : List Nat) : Bool :=
  chipUnaligned (vas.filter fun va => match s.locate q.pages q.ctx (some r) swz va with | .chip _ => true | _ => false)

/-- R59, R272, R273, R152, R331: the bound of a request once accepted, in 10 ns. -/
def State.reqBound (s : State) (r : Nat) (q : Req) : Nat :=
  let pl := s.reqPlaces r q
  match q.kind with
  | .mover _ _ _ _ _ =>
    (match s.mvOf r q with
     | none => 0
     | some (l, o) =>
       let loc := s.mvLocal o
       let un := (loc.1 && s.endUnaligned r q (l.desc 0).swz (q.moves.flatMap Move.srcBytes))
         || (loc.2 && s.endUnaligned r q (l.desc 1).swz (q.moves.flatMap Move.dstBytes))
       match s.farMod r q with
       | some m => s.farBound m q.cls (payload q.moves) un
       | none => s.bound r q.cls (payload q.moves) (s.endKind r pl.1) (s.endKind r pl.2) un (l.mv.mode != .line))
  | .fetch _ _ base idx n =>
    s.bound r q.cls (64 * n) (s.endKind r pl.1) .own (s.endUnaligned r q 0 ((List.range (64 * n)).map fun i => (base + 64 * idx + i) % 2 ^ 52)) false
  | .desc _ => s.bound r q.cls pl.1.length (s.endKind r pl.1) .own false false
  | .flag _ (some m) _ _ => s.farBound m 0 32 false
  | .flag t none _ _ => if dieOf t = dieOf r then 8 else 20

/-! ### Remote packets of a request (R314, R325, R329, R366) -/

/-- Bytes that a request with a remote destination carries, read where they lie now. -/
def State.outBytesOf (s : State) (e : Env) (src : Nat → Loc) (ms : List Move) : List OutByte :=
  sortBytes (ms.flatMap fun m => let x := s.readMove e src m; m.outBytes x.1 x.2)

/-- R366: AUX of a bucket's packets. -/
def collAux (b : Bucket) (bidx level par : Nat) : Nat := bidx + b.tag * 256 + level * 0x1000000 + par * 0x10000000

/-- Two pieces share a bit of their destinations. -/
def Move.meets (a b : Move) : Bool := a.dst < b.dst + b.n && b.dst < a.dst + a.n

/-- R329: pieces whose targets meet no earlier one's, and the others. -/
def oneLayer (ms : List Move) : List Move × List Move :=
  ms.foldl (fun x m => if x.1.any m.meets || x.2.any m.meets then (x.1, x.2 ++ [m]) else (x.1 ++ [m], x.2)) ([], [])

/-- R329: targets that alias go in packets after one another, so that each operation is made (log 107). -/
def layers : Nat → List Move → List (List Move)
  | 0, _ => []
  | f + 1, ms => let x := oneLayer ms; x.1 :: (if x.2.isEmpty then [] else layers f x.2)

/-- The packets of one type that carry the pieces `ms` of a request to module `m`. -/
def State.sendRuns (s : State) (r : Nat) (q : Req) (m : Nat) (e : Env) (src : Nat → Loc) (ptype aux : Nat) (ms : List Move) : State :=
  (cutRuns (runsOf (s.outBytesOf e src ms))).foldl (fun s run =>
    let x := pktData (s.mkPkt q.ctx ptype m q.cls) ((run.head?.map OutByte.addr).getD 0) (run.map OutByte.val) (maskOf run)
    s.sendTracked r q.id false { x with aux }) s

/-- The RD_REQs of a request that reads another module. -/
def State.sendReads (s : State) (r : Nat) (q : Req) (m : Nat) : State :=
  let runs := cutRuns (runsOf (sortBytes ((q.moves.flatMap Move.srcBytes).map fun a => ⟨a, 0#8, false⟩)))
  runs.foldl (fun s run =>
    let x := s.mkPkt q.ctx 1 m q.cls
    s.sendTracked r q.id true { x with addr := (run.head?.map OutByte.addr).getD 0, len := run.length }) s

/-- R367: the parity a command's packets carry; its first ones flip the bit. -/
def State.takeParity (s : State) (r k c : Nat) (l : Lri) (bidx dir level : Nat) : Nat × State :=
  match l.mv.par with
  | some p => (p, s)
  | none =>
    let p := Sparse.get 0 (s.cx c).ptx (parityKey bidx dir level)
    (p, (s.modCl r k fun x => x.modLri l.id fun y => { y with mv := { y.mv with par := some p } }).flipParity c true bidx dir level)

/-- The packets of a request that writes to another module leave, its source read now (R314, R326). -/
def State.sendWrites (s : State) (r : Nat) (q : Req) (m : Nat) (e : Env) (l : Lri) (o : MvOp) (far : FarEnd) : State :=
  let pl := s.mvPlaces r q l o
  let ms := l.standing o q.moves
  let src (va : Nat) : Loc := far.src (s.locate q.pages q.ctx (some r) (l.desc 0).swz va)
  let s1 := (s.noteSources r e (far != .ok) pl.1).mvSlips r q.k l pl.1 []
  let s2 := s1.modCl r q.k fun c => c.modLri l.id fun x => { x with mv := { x.mv with wrote := x.mv.wrote ++ q.moves.map fun m => (m.dst, m.ord, m.pad) } }
  let s3 := s2.modRg r fun g => { g with accepted := g.accepted.map fun x => if x.id == q.id then { x with sent := true } else x }
  match o with
  | .copy _ _ | .fill _ _ => s3.sendRuns r q m e src 3 0 ms
  | .atomic _ _ aop sgn =>
    let w := match ms with | x :: _ => x.n | [] => 32
    (layers (ms.length + 1) ms).foldl (fun s ms => s.sendRuns r q m e src 5 (aop + (if sgn then 8 else 0) + (if w = 64 then 16 else 0)) ms) s3
  | .coll bidx phase level _ _ _ =>
    match (s.cx q.ctx).bucket bidx with
    | none => s3
    | some b =>
      let p := s3.takeParity r q.k q.ctx l bidx (if phase = 0 then 0 else 1) level
      p.2.sendRuns r q m e src (if phase = 0 then 0x10 else 0x11) (collAux b bidx level p.1) ms

/-- R287, R289, R292: a FOREIGN increment is accepted. -/
def State.acceptFlag (s : State) (r : Nat) (q : Req) (target : Nat) (remote : Option Nat) (idx inc : Nat) : State :=
  match remote with
  | none =>
    if (s.rg target).owner == some q.ctx then s.incNode target idx inc (if dieOf target = dieOf r then 80 else 220)
    else s.bump (A.foreignDrop (if target < 48 then target else 0)) 1
  | some m => s.sendPkt { s.mkPkt q.ctx 7 m 0 with addr := inc, aux := idx + target * 512 }

/-- Whether a place lies in the companion's memory. -/
def Loc.companion : Loc → Bool
  | .page _ a => isMlm a
  | _ => false

def Loc.cxl : Loc → Bool
  | .page _ a => isCxl a
  | _ => false

/-- R49, R458: the accesses of an accepted request are served. -/
def State.served (s : State) (r : Nat) (q : Req) : Bool :=
  !s.untimedLeft r q.id && !(((s.reqPlaces r q).1 ++ (s.reqPlaces r q).2).any s.recalHeld)

/-- An accepted request that writes to another module has read what it sends: its packets leave (R60, R314). What the companion holds
has not been read before it answers. -/
def State.sendDueOne (s : State) (r id : Nat) (e : Env) : State :=
  match s.acceptedReq r id with
  | none => s
  | some q =>
    match s.farMod r q, s.mvOf r q with
    | some m, some (l, o) =>
      if q.sent || !s.served r q || (s.reqPlaces r q).1.any Loc.companion then s else s.sendWrites r q m e l o .ok
    | _, _ => s

/-- The same for every accepted request. -/
def State.sendDue (s : State) (e : Env) : State :=
  (s.regions.flatMap fun g => (g.2.accepted.filter fun q => !q.sent).map fun q => (g.1, q.id)).foldl (fun s p => s.sendDueOne p.1 p.2 e) s

/-- R141, R158: an accepted mover request reads its mask bytes, and its inactive positions are counted. -/
def State.readMasks (s : State) (r : Nat) (q : Req) (e : Env) (lo hi : Nat) : State :=
  match s.mvOf r q with
  | none => s
  | some (l, o) =>
    let ls := s.maskPlaces r q
    (((s.noteReads (some r) e ls).noteChip e ls).mvSlips r q.k l ls []).bump (A.pmMasked r q.k)
      (s.mvMasked e (s.placeVia q.pages r q.ctx) o l lo hi)

/-- What acceptance sets going: accesses at the banks, and packets to another module. -/
def State.startReq (s : State) (r : Nat) (q : Req) (e : Env) : State :=
  let pl := s.reqPlaces r q
  match q.kind with
  | .flag t m idx inc => s.acceptFlag r q t m idx inc
  | .mover _ _ _ lo hi =>
    let far := s.farMod r q
    let reads := match s.mvOf r q with | some (_, o) => s.readsFar o | none => false
    let q' := { q with sent := far.isNone || reads }
    let s1 := ((s.modRg r fun g => { g with accepted := g.accepted ++ [q'] }).queueUntimed r q.id (pl.1 ++ pl.2 ++ s.maskPlaces r q)).readMasks r q' e lo hi
    (match far with
     | some m => if reads then s1.sendReads r q' m else s1.sendDueOne r q.id e
     | none => s1)
  | _ => (s.modRg r fun g => { g with accepted := g.accepted ++ [{ q with sent := true }] }).queueUntimed r q.id pl.1

/-- R57, R58, R61, R390, R417: a presented request is accepted, or turned away with what its waiting causes. -/
def State.acceptReq (s : State) (r : Nat) (q0 : Req) (e : Env) : State :=
  let q := s.settled e r q0
  let pl := s.reqPlaces r q
  if s.mayAccept r q0 e then
    let w := s.c0 r - q.arrive.getD (s.c0 r)
    let s1 := ((s.bump (A.admWaits r q.cls) (if w = 0 then 0 else 1)).bump (A.admWaitBeats r q.cls) w).endWait q.snapW pl.2
    ((s1.noteTorn pl.2).modRg r fun g => { g with waiting := g.waiting.filter fun x => x.id != q.id }).startReq r
      { q with bound := s.reqBound r q, path := s.reqPath r q } e
  else if q.walked && (s.rg r).firstOfClass q then
    if s.snapWaits pl.2 then
      (s.modRg r fun g => { g with waiting := g.waiting.map fun x => if x.id == q.id then { x with snapW := true } else x }).waitSnap q.snapW pl.2
    else
      match s.farMod r q with
      | some m => if s.dataProt && s.isMember && (s.session m).isNone then s.startKex m else s
      | none => s
  else s

/-- ADMISSION_ACCEPT: a request at its router that presents itself for acceptance. -/
def State.admissionAccept (s : State) (r id : Nat) (e : Env) : State :=
  match s.waitingReq r id with
  | some q => s.acceptReq r q e
  | none => s

/-! ### Completion of accepted requests -/

/-- Packets of a request that await or hold their completions. -/
def State.sentOf (s : State) (r id : Nat) : List Sent := s.sent.filter fun x => x.region == r && x.req == id

def State.forget (s : State) (r id : Nat) : State := { s with sent := s.sent.filter fun x => !(x.region == r && x.req == id) }

/-- A byte of what a remote read returned: poison where it was refused, masked or did not come (R324, R326, R327). -/
def remoteByte (xs : List Sent) (a : Nat) : Byte × Bool :=
  match xs.find? fun x => x.addr ≤ a && a < x.addr + x.len with
  | some x =>
    if x.done && x.status == 0 && a - x.addr < x.data.length then (nth 0#8 x.data (a - x.addr), bitAt x.mask ((a - x.addr) / 32))
    else (0#8, true)
  | none => (0#8, true)

/-- R326, R324, R327: granules a remote read delivers as poisoned. -/
def badGranules (xs : List Sent) : Nat :=
  sumNat ((xs.filter Sent.reads).map fun x =>
    if x.done && x.status == 0 then popCount 128 x.mask else ceilDiv x.len 32)

/-- A remote mover request completes: a read's data is written where it belongs, unless its far end here did not take it (R270,
R274); a write has no more to do. -/
def State.completeRemote (s : State) (r : Nat) (q : Req) (l : Lri) (o : MvOp) (m part : Nat) (e : Env) (far : FarEnd) : State :=
  let xs := s.sentOf r q.id
  let pl := s.mvPlaces r q l o
  let dst (va : Nat) : Loc := s.locate q.pages q.ctx (some r) (l.desc 1).swz va
  let s1 :=
    if s.readsFar o then
      let s0 := ((s.bump (A.poisonReads r) (badGranules xs)).noteTargets false e pl.2).mvSlips r q.k l [] pl.2
      if far.writes pl.2 then
        s0.writeLocs ((l.standing o q.moves).flatMap fun x =>
          let rs := x.srcBytes.map (remoteByte xs)
          x.writes dst (match x.src with | some b => gatherAt b x.n (rs.map Prod.fst) | none => x.val) (rs.map Prod.snd))
      else s0
    else s
  (((s1.bump (A.mvBytes r q.k m) (payload q.moves)).forget r q.id).takeReq r q.id).partOver r q.k l.id part (some q.moves)

/-- R153: an ordered command's requests complete one after another. -/
def inTurn (l : Lri) (part : Nat) : Bool := l.mv.mode != .ordered || part == l.mv.next

/-- An accepted mover request whose accesses are served, whose turn it is and whose packets are answered goes on: its packets leave
or it completes. -/
def State.moverOn (s : State) (r : Nat) (q : Req) (l : Lri) (o : MvOp) (m part : Nat) (e : Env) (far : FarEnd) : State :=
  match s.farMod r q with
  | some f => if q.sent then s.completeRemote r q l o m part e far else s.sendWrites r q f e l o far
  | none => s.completeMover r q l o m part e far

/-- Whether a request waits for nothing but its far end. -/
def State.ripe (s : State) (r : Nat) (q : Req) (l : Lri) (part : Nat) : Bool :=
  s.served r q && inTurn l part && (s.sentOf r q.id).all Sent.done

/-- MOVER_REQUEST_COMPLETE: an accepted mover request whose accesses are served and packets answered; `e.status` is the answer of
the companion where it is an end (R499). -/
def State.moverRequestComplete (s : State) (r id : Nat) (e : Env) : State :=
  match s.acceptedReq r id with
  | none => s
  | some q =>
    match q.kind, s.mvOf r q with
    | .mover _ m part _ _, some (l, o) =>
      if !s.ripe r q l part then s
      else
        let pl := s.reqPlaces r q
        if e.status ≠ 0 ∧ (pl.1 ++ pl.2).any Loc.companion then (s.bump A.remoteRefused 1).moverOn r q l o m part e (.lost false)
        else s.moverOn r q l o m part e .ok
    | _, _ => s

/-- An accepted request that a far end outside the module did not answer by its bound (R270, R274). -/
def State.farTimeout (s : State) (r id : Nat) (e : Env) (which : Loc → Bool) (count : State → Loc → State) : State :=
  match s.acceptedReq r id with
  | none => s
  | some q =>
    let pl := s.reqPlaces r q
    match (pl.1 ++ pl.2).find? which with
    | none => s
    | some l0 =>
      if !s.served r q then s
      else
        let s1 := count s l0
        match q.kind with
        | .mover _ m part _ _ =>
          (match s.mvOf r q with
           | some (l, o) => if s.ripe r q l part then s1.moverOn r q l o m part e (.lost e.landed) else s
           | none => s)
        | .fetch qi gen base idx n => s1.fetchDone r q e true qi gen base idx n
        | .desc lri => (match (s.cl r q.k).lri lri with | some l => s1.descDone r q e true l | none => s)
        | .flag _ _ _ _ => s

/-- R270. -/
def State.cxlTimeout (s : State) (r id : Nat) (e : Env) : State :=
  s.farTimeout r id e Loc.cxl fun s l => s.bump (A.cxlTimeouts (cxlPort l.addr)) 1

/-- R274. -/
def State.mlmTimeout (s : State) (r id : Nat) (e : Env) : State :=
  s.farTimeout r id e Loc.companion fun s _ => s.bump A.mlmTimeouts 1

/-- R327: a remote request not complete at its bound. -/
def State.remoteTimeout (s : State) (r id : Nat) (e : Env) : State :=
  match s.acceptedReq r id with
  | none => s
  | some q =>
    match q.kind, s.mvOf r q with
    | .mover _ m part _ _, some (l, o) =>
      if (s.farMod r q).isSome && inTurn l part && ((s.sentOf r id).any fun x => !x.done) then
        ((s.bump A.remoteTimeouts 1).dropUntimed r id).completeRemote r q l o m part e .ok
      else s
    | _, _ => s

/-- QUEUE_FETCH_COMPLETE. -/
def State.queueFetchComplete (s : State) (r id : Nat) (e : Env) : State :=
  match s.acceptedReq r id with
  | none => s
  | some q =>
    match q.kind with
    | .fetch qi gen base idx n => if s.served r q then s.fetchDone r q e false qi gen base idx n else s
    | _ => s

/-- DESC_LOAD_DONE. -/
def State.descLoadDone (s : State) (r id : Nat) (e : Env) : State :=
  match s.acceptedReq r id with
  | none => s
  | some q =>
    match q.kind with
    | .desc lri =>
      (match (s.cl r q.k).lri lri with
       | some l => if s.served r q then s.descDone r q e false l else s
       | none => s)
    | _ => s

end Sys2Proof.Machine
end

