-- ==== Sys2Proof/Machine/Swap.lean ====
section
/-!
DEFINITION. Sys2Proof/Machine/Swap.lean: the swap fields of a configuration set (R436, R61) and the maquette swap (R445).
-/
namespace Sys2Proof.Machine

/-- MEM_ADM_SHARE of four shares (R61). -/
def shareWord (xs : List Nat) : Nat := nth 0 xs 0 + nth 0 xs 1 * 0x100 + nth 0 xs 2 * 0x10000 + nth 0 xs 3 * 0x1000000

/-- R445, R61: a region's router adopts the shares in force. -/
def State.adoptShares (s : State) (r : Nat) : State := s.setReg (A.admShare r) (BitVec.ofNat 64 (shareWord s.active.shares))

/-- R436: the swap fields of the active set go to the registers they name; a router in reset adopts its shares later. -/
def State.applySwapFields (s : State) : State :=
  let x := s.active
  let s1 := (s.setFld A.govCtrl 0 11 x.cap).setFld A.grace 0 16 x.grace
  let s2 := (s1.setFld A.riskGain 0 40 x.gains).setReg A.snapCtrl
    (BitVec.ofNat 64 (x.thresh + x.holdoff * 0x100 + (if x.hltEn then 0x1000000 else 0)))
  ((List.range 48).filter fun r => !(s2.rg r).inReset).foldl State.adoptShares s2

/-- R436, R24: what a set changes at a maquette swap; power-on fields keep their values. -/
def CfgSet.swapped (old new : CfgSet) : CfgSet :=
  { new with
    dataProt := old.dataProt, capacity := old.capacity, ekbEn := old.ekbEn, cxlEn := old.cxlEn, mlmEn := old.mlmEn
    span := old.span, gran := old.gran }

/-- R423: a new measurement record is committed. -/
def State.commitRecord (s : State) : State := { s with spdm := { s.spdm with record := s.spdm.record + 1 } }

/-- R445: a swap waits for its beat. -/
def State.swapping (s : State) : Bool := s.fieldN A.maqStatus 0 3 == 4

/-- R445: the swap beat. -/
def State.swapNow (s : State) : State :=
  match s.maq with
  | none => s
  | some x =>
    let s1 := { s with active := s.active.swapped x, maq := none }.applySwapFields
    ((s1.setB A.bootStatus 13 (!s1.bit A.bootStatus 13)).commitRecord.setReg A.maqStatus 0).bump A.cfgSwaps 1

end Sys2Proof.Machine
end

