-- ==== Sys2Proof/Machine/Barrier.lean ====
section
/-!
DEFINITION. Sys2Proof/Machine/Barrier.lean: the armature above the clusters (R294 to R303), the snapshot cut (R388), and
increments that become visible (R292).
-/
namespace Sys2Proof.Machine

/-! ### Nodes (R298, R299) -/

/-- R303: an ID of a node of the die, the module top or the fabric that is broken. -/
def State.brokenNode (s : State) (n : Node) (bid : Nat) : Bool :=
  match n with
  | .die _ c | .top c | .fabric c => bitAt (s.cx c).broken bid
  | _ => false

/-- R298, R303: a node that holds its expected number, of an ID that is not broken, and has not yet sent its arrival upward. -/
def State.barComplete (s : State) (e : BarEntry) : Bool := !e.sent && s.barFull e && !s.brokenNode e.node e.f.bid

/-- R297: the scope a node is the top of. -/
def Node.isTop (n : Node) (scope : Nat) : Bool :=
  match n with
  | .cluster _ _ => scope == 0
  | .region _ => scope == 1
  | .top _ => scope == 2
  | _ => false

/-- A node's arrival has gone up, or its release has begun. -/
def State.markSent (s : State) (e : BarEntry) : State :=
  { s with bars := s.bars.map fun x => if x == e then { x with sent := true } else x }

/-- A release passes a node: the use of the ID that it ends is forgotten. -/
def State.dropEntry (s : State) (n : Node) (f : BarF) : State :=
  { s with bars := s.bars.filter fun x => !(x.node == n && x.f == f && x.sent) }

def State.pushRel (s : State) (n : Node) (f : BarF) (c stamp : Nat) : State := { s with rels := s.rels ++ [⟨n, f, c, stamp⟩] }

/-- R313: AUX of an armature packet. -/
def barAux (f : BarF) : Nat := f.bid + f.qmask * 256 + (if f.realign then 4096 else 0)

/-- The region that counts a mismatch above the region nodes: the lowest one of the context (log 47). -/
def State.firstRegion (s : State) (c : Nat) : Nat := ((s.regionsOf c).head?).getD 0

/-- One arrival at a node from one below. -/
def State.arriveUp (s : State) (n : Node) (f : BarF) (stamp : Nat) (froms : List Nat) : State :=
  s.arriveAt (match n with | .region r => r | _ => s.firstRegion (s.nodeCtx n)) n f 0 stamp froms

/-- R299, R315, R317, R417: an armature packet leaves when module `m` can be reached; until then it waits, and the key exchange
that it needs begins. -/
def State.sendBar (s : State) (ptype c m : Nat) (f : BarF) (done : State → State) : State :=
  if s.farReady m then (done s).sendPkt { s.mkPkt c ptype m 0 with aux := barAux f }
  else if s.dataProt && s.isMember && (s.session m).isNone then s.startKex m
  else s

/-- R298, R299: a complete node sends its arrival to the node above; a fabric node to its parent module. -/
def State.sendUp (s : State) (e : BarEntry) : State :=
  let c := s.nodeCtx e.node
  match e.node with
  | .cluster r _ => (s.markSent e).arriveUp (.region r) e.f e.stamp []
  | .region r => (s.markSent e).arriveUp (.die (dieOf r) c) e.f e.stamp []
  | .die _ c => (s.markSent e).arriveUp (.top c) e.f e.stamp []
  | .top c => (s.markSent e).arriveUp (.fabric c) e.f e.stamp []
  | .fabric c => s.sendBar 8 c (s.fieldN (A.fabParent c) 0 12) e.f fun s => s.markSent e
  | .child _ _ => s

/-- R297, R299: a node where the release of a barrier starts: the top of its scope, or a fabric node without a parent. -/
def State.isRoot (s : State) (e : BarEntry) : Bool :=
  match e.node with
  | .fabric c => !s.bit (A.fabParent c) 12
  | n => n.isTop e.f.scope

/-- BARRIER_NODE_ARRIVAL: the `n`-th node that holds its expected number sends one arrival upward, or starts the release; a CLUSTER
barrier's release comes with its beat. -/
def State.nodeArrival (s : State) (n : Nat) : State :=
  match (s.bars.filter s.barComplete)[n]? with
  | none => s
  | some e =>
    match e.node with
    | .cluster _ _ => if e.f.scope = 0 then s else s.sendUp e
    | _ => if s.isRoot e then (s.markSent e).pushRel e.node e.f (s.nodeCtx e.node) e.stamp else s.sendUp e

/-! ### The snapshot cut (R388) -/

/-- R388, R393: local address of a part now, or none where its source faults. -/
def State.partAddr (s : State) (c va : Nat) : Option Nat :=
  if va < winBase then
    match (s.walk c va).1 with
    | .ok p => some (p.out + (va - p.va))
    | .error _ => none
  else none

/-- R388, R393: every part becomes pending in the beat in which the release passes the module top. -/
def State.snapCut (s : State) (c : Nat) : State :=
  if s.fieldN (A.snapStatus c) 0 3 = 1 then
    let x := s.cx c
    let pend := numberFrom (fun i va => (i, s.partAddr c va)) 0 x.snap.parts
    let r := s.firstRegion c
    let s1 := s.setCx c { x with snap := { x.snap with
      pend, torn := [], missing := [], step := (s.fieldN (A.step r) 0 32 + 1) % 2 ^ 32, epoch := s.fabEpoch, time := s.timeNs } }
    s1.setFld (A.snapStatus c) 0 3 2
  else s

/-! ### Releases (R294 to R296, R298, R300) -/

/-- One release passes one node on its way down; a broken ID's stays where it is (R303). A cluster takes it in a beat that began
after the last arrival of its scope (R300). -/
def State.passRelease (s : State) (x : Rel) : State :=
  let s0 := { s with rels := s.rels.erase x }
  let down (s : State) (n : Node) : State := s.pushRel n x.f x.ctx x.stamp
  if s.brokenNode x.node x.f.bid then s
  else
    match x.node with
    | .child c m => s.sendBar 9 c m x.f fun s => { s with rels := s.rels.erase x }
    | .fabric c =>
      let froms := match s.bars.find? fun e => e.node == x.node && e.f == x.f && e.sent with | some e => e.froms | none => []
      (froms.map (Node.child c) ++ [.top c]).foldl down (s0.dropEntry x.node x.f)
    | .top c =>
      let s1 := if x.f.realign then s0.snapCut c else s0
      let s1 := if x.f.realign && s1.swapping && !s1.bit A.maqCtrl 2 then s1.swapNow else s1
      ((s1.diesOf c).map fun d => Node.die d c).foldl down (s1.dropEntry x.node x.f)
    | .die d c => (((s0.regionsOf c).filter fun r => dieOf r == d).map Node.region).foldl down (s0.dropEntry x.node x.f)
    | .region r =>
      let s1 := if x.f.realign then s0.realignNode r (2 ≤ x.f.scope) else s0
      ((List.range (s1.nClusters r)).map fun l => Node.cluster r (s1.physOf r l)).foldl down (s1.dropEntry x.node x.f)
    | .cluster r k =>
      if !s.bars.any fun e => e.node == x.node && e.f == x.f && e.sent then s0
      else if !s.beats r k || (s.cl r k).beganAt ≤ x.stamp then s
      else
        let s1 := s0.dropEntry x.node x.f
        (if x.f.realign then s1.realignCluster r k else s1).releaseQueues r k x.f

/-- BARRIER_RELEASE: the `n`-th release under way reaches its next node; a CLUSTER barrier's comes with its beat. -/
def State.barrierRelease (s : State) (n : Nat) : State :=
  match s.rels[n]? with
  | some x => s.passRelease x
  | none => s

/-! ### Visibility (R292) -/

/-- INCREMENT_VISIBLE: the `n`-th unseen increment of a node counter becomes visible to a cluster, in a beat that begins
after it was applied. -/
def State.incVisible (s : State) (r k n : Nat) : State :=
  let g := s.rg r
  let c := s.cl r k
  match (g.unseen.filter fun u => u.k == k && !u.own)[n]? with
  | some u => if u.at_ < c.elapsed then s.setRg r { g with unseen := g.unseen.erase u } else s
  | none => s

end Sys2Proof.Machine
end

