-- ==== Sys2Proof/Machine/Ingress.lean ====
section
/-!
DEFINITION. Sys2Proof/Machine/Ingress.lean: packets that reach the module over Eokoby (R313, R315, R317 to R330, R333, R335,
R402, R414 to R418), transit, completions, FLAG_INC and armature packets.
-/
namespace Sys2Proof.Machine

/-! ### Checks on arrival -/

/-- R333: whether epoch `e'` is newer than `e`. -/
def newerEpoch (e' e : Nat) : Bool := let d := (e' + 65536 - e % 65536) % 65536; 1 ≤ d && d ≤ 32767

/-- R313, R366, R417: packet types in use; key exchange only in data-protected mode. -/
def State.typeKnown (s : State) (t : Nat) : Bool :=
  (1 ≤ t && t ≤ 9) || (0x10 ≤ t && t ≤ 0x12) || (s.dataProt && (t == 0x20 || t == 0x21))

/-- R313, R366: a nonzero reserved field: of the header, or AUX [31:29] of a collective packet; a STATUS above 2, which R312 gives no
meaning, counts as one (DESIGN CHOICE, log 104). -/
def fieldsBad (x : Pkt) : Bool :=
  x.reserved != 0 || ((x.ptype == 0x10 || x.ptype == 0x11) && field x.aux 29 3 != 0)
    || ((x.ptype == 2 || x.ptype == 4 || x.ptype == 6 || x.ptype == 0x12) && 2 < x.status)

/-- R335: a newer epoch is recorded unless one awaits adoption. -/
def State.noteNewer (s : State) (e : Nat) : State :=
  if s.bit A.member 48 then s else (s.setFld A.member 32 16 e).setB A.member 48 true

/-- R415: a counter is taken once, and none more than 2,048 below the highest. -/
def Session.accepts (y : Session) (ctr : Nat) : Bool := y.high ≤ ctr + 2048 && !y.seen.contains ctr

def Session.take (y : Session) (ctr : Nat) : Session :=
  let h := max y.high ctr
  { y with high := h, seen := (ctr :: y.seen).filter fun c => h ≤ c + 2048 }

/-- What the checks before a packet's own meaning decide. -/
inductive Arrived where
  | dropped (s : State)
  | transit (s : State)
  | here (s : State)

/-- R402, R414, R415: security checks of a packet for this module. -/
def State.securityCheck (s : State) (x : Pkt) : Arrived :=
  if s.dataProt then
    if x.ptype = 0x20 ∨ x.ptype = 0x21 then (if x.enc then .dropped (s.bump A.gcmFail 1) else .here s)
    else if !x.enc then .dropped (s.bump A.plainDrop 1)
    else
      match s.session x.src with
      | none => .dropped (s.bump A.gcmFail 1)
      | some y =>
        if !x.tagOk then .dropped (s.bump A.gcmFail 1)
        else if !y.accepts x.ctr then .dropped (s.bump A.replayDrop 1)
        else .here (if x.ctr + 1 = 2 ^ 48 then s.dropSession y.peer else s.setSession (y.take x.ctr))
  else if x.enc then .dropped (s.bump A.badPkt 1)
  else .here s

/-- R315, R333, R317, R313, R402, R415: an arriving packet's checks, in order. -/
def State.arrive (s : State) (x : Pkt) : Arrived :=
  if !s.isMember then .dropped (s.bump A.notMember 1)
  else if x.epoch ≠ s.fabEpoch then
    if newerEpoch x.epoch s.fabEpoch then .dropped ((s.noteNewer x.epoch).bump A.epochNew 1)
    else .dropped (s.bump A.epochOld 1)
  else if x.dst ≠ s.modNum then .transit s
  else if !s.typeKnown x.ptype || fieldsBad x then .dropped (s.bump A.badPkt 1)
  else s.securityCheck x

/-! ### Transit (R317, R319, R320) -/

/-- R319: a packet for another module goes on, or is dropped. -/
def State.transit (s : State) (x : Pkt) : State :=
  if 31 ≤ x.hops then s.bump A.hopsDrop 1
  else
    match s.egress x.dst with
    | none => s.bump A.routeDrop 1
    | some p =>
      let y := { x with hops := x.hops + 1, vl := if s.bit (A.portCtrl p) 0 then 1 else x.vl }
      (s.egressPkt p none y).send (.packet p y)

/-- R315, R441, R479: packets reach the module once its ports train; in recovery the ingress takes completions only. -/
def State.ingressOpen (s : State) (t : Nat) : Bool :=
  match s.boot with
  | .ready | .booting | .halted => true
  | .recovering => t == 2 || t == 4 || t == 6 || t == 0x12
  | _ => false

/-- A row's packet: of the row's type, or one no row knows, which the checks drop. -/
def State.receive (s : State) (t : Nat) (x : Pkt) (act : State → State) : State :=
  if s.ingressOpen t && (x.ptype == t || !s.typeKnown x.ptype) then
    match (s.drainPkt (List.range 8) x).arrive x with
    | .dropped s1 => s1
    | .transit s1 => s1.transit x
    | .here s1 => if x.ptype == t then act s1 else s1
  else s

/-- PACKET_TRANSIT: a packet of any type for another module. -/
def State.packetTransit (s : State) (x : Pkt) : State :=
  let s0 := s.drainPkt (List.range 8) x
  if !s.ingressOpen 0 then s else
  match s0.arrive x with
  | .dropped s1 => s1
  | .transit s1 => s1.transit x
  | .here _ => s

/-! ### The target's side (R322 to R326, R329, R330) -/

/-- R322: the context that a job ID names here. -/
def State.ctxOfJob (s : State) (job : Nat) : Option Nat :=
  (List.range 16).find? fun c => s.bit (A.ctxJob c) 16 && s.fieldN (A.ctxJob c) 0 16 == job

/-- R312, R324: the completion of a packet. -/
def State.complete (s : State) (x : Pkt) (ptype status : Nat) (data : List Byte) (mask : Nat) : State :=
  let y := pktData { s.mkPkt 0 ptype x.src x.cls with job := x.job, tag := x.tag, status, aux := x.aux } x.addr data mask
  s.sendPkt y

/-- R324: an arriving request that faults. -/
def State.ingressFault (s : State) (kind src c : Nat) : State :=
  let s1 := s.bump A.ingressFaults 1
  if s1.bit A.ingressInfo 63 then s1
  else s1.setReg A.ingressInfo (BitVec.ofNat 64 (kind + src * 8 + c * 0x8000 + 2 ^ 63))

/-- Addresses an arriving request touches. -/
def spanFrom (a n : Nat) : List Nat := (List.range n).map fun i => (a + i) % 2 ^ 52

/-- R323: translate an arriving request's bytes through the ingress cache of 4,096 leaves; places, or a fault kind. -/
def State.ingressAt (s : State) (c : Nat) (wr : Bool) (vas : List Nat) : Except Nat (List Loc) × State :=
  let x := s.xlateAll 4096 c vas ⟨[], s.ingress, 0, 0, none⟩
  let s1 := { s with ingress := x.cache }
  match x.fault with
  | some f => (.error f.1, s1)
  | none =>
    match vas.findSome? fun va => s1.accessFault x.pages c none 0 wr va with
    | some f => (.error f.1, s1)
    | none => (.ok (vas.map fun va => s1.locate x.pages c none 0 va), s1)

/-- The region a chip place lies in. -/
def chipRegion (ls : List Loc) : Option Nat := ls.findSome? fun l => match l with | .chip a => some ((a - physWin) / 0x4000000) | _ => none

/-- R326, R266: granules of a mask that reach a region's memory count there (log 48). -/
def State.countMasked (s : State) (ls : List Loc) (mask : Nat) : State :=
  match chipRegion ls with
  | some r => s.bump (A.poisonReads r) (popCount 128 mask)
  | none => s

/-- Bytes of a packet as writes at their places, poison by its mask (R326). -/
def maskedWrites (ls : List Loc) (data : List Byte) (mask : Nat) : List (Loc × Wr) :=
  numberFrom (fun i (p : Loc × Byte) => (p.1, (⟨p.1.addr, p.2, 0xFF#8, bitAt mask (i / 32)⟩ : Wr))) 0 (ls.zip data)

/-- R257: a walk that an arriving request needs waits for a stack. -/
def State.walksWait (s : State) (c : Nat) (vas : List Nat) : Bool :=
  vas.any fun va => va < winBase && (pageOf s.ingress c va).isNone && s.walkHeld c va

/-- A packet that arrives, before anything has been decided. -/
def HeldPkt.fresh (x : Pkt) (e : Env) : HeldPkt := ⟨x, e, false, true, 0, none, []⟩

/-- A packet waits at the ingress, under a new number. -/
def State.holdPkt (s : State) (h : HeldPkt) : State :=
  { s with heldPkts := s.heldPkts ++ [{ h with serial := s.nextHeld }], nextHeld := s.nextHeld + 1 }

/-- Accesses of an accepted packet wait under this home. -/
def ingressHome : Nat := 48

/-- R42, R57, R58, R467, R477: an arriving request that may not be accepted now: its class has no credit, an earlier one of its
class waits, its places serve none, or a resource on its path has no credit. -/
def State.ingressWaits (s : State) (cls : Nat) (ls : List Loc) (path : List Nat) : Bool :=
  s.classStopped cls || (s.heldPkts.any fun h => h.locs.isNone && h.pkt.cls == cls) || ls.any s.placeHeld || s.pathDown path || !s.pathOk cls path

/-- R57, R323, R390, R391: an arriving request of context `c` for the bytes `vas`: `fault` where one faults, held while it has to wait,
else accepted: it acts (`act`) once its accesses at the banks are served (R49). -/
def State.admitPkt (s : State) (h : HeldPkt) (c : Nat) (wr : Bool) (vas : List Nat) (fault : State → Nat → State)
    (act : State → List Loc → State) : State :=
  if s.walksWait c vas then s.holdPkt { h with path := [] }
  else
    match s.ingressAt c wr vas with
    | (.error k, s1) => fault s1 k
    | (.ok ls, s1) =>
      let path := dedupNat (ls.flatMap s1.plinthPath)
      if s1.heldPkts.any (fun y => y.locs.isNone && y.pkt.cls == h.pkt.cls) then s1.holdPkt { h with path }
      else if wr && s1.snapWaits ls then (s1.waitSnap h.again ls).holdPkt { h with again := true, path }
      else if s1.ingressWaits h.pkt.cls ls path then s1.holdPkt { h with path }
      else
        let s2 := if wr then (s1.endWait h.again ls).noteTorn ls else s1
        if (chipLines ls).isEmpty && !(ls.any s2.recalHeld) then act s2 ls
        else (s2.holdPkt { h with locs := some ls, path }).queueUntimed ingressHome s2.nextHeld ls

/-- R323, R324, R266: RD_REQ reads and answers. -/
def State.actRead (s : State) (x : Pkt) (e : Env) (ls : List Loc) : State :=
  let s1 := (s.noteReads none e ls).noteChip e ls
  let rs := ls.map (s1.readByte e)
  let mask := sumNat (numberFrom (fun i (g : List ByteRead) => if g.any ByteRead.poison then 2 ^ i else 0) 0 (chunks 32 (rs.length / 32 + 1) rs))
  s1.complete x 2 0 (rs.map fun b => if b.poison then 0#8 else b.val) mask

/-- R266, R326: the bytes of an arriving packet are written. -/
def State.writePkt (s : State) (x : Pkt) (e : Env) (ls : List Loc) : State :=
  ((s.noteTargets false e ls).countMasked ls (x.pmask.getD 0)).writeLocs (maskedWrites ls x.data (x.pmask.getD 0))

/-- R325: WR writes and answers. -/
def State.actWrite (s : State) (x : Pkt) (e : Env) (ls : List Loc) : State := (s.writePkt x e ls).complete x 4 0 [] 0

/-- R329, R330: the operations of an ATOM packet on consecutive targets. -/
def State.atomPacket (s : State) (e : Env) (ls : List Loc) (x : Pkt) : State :=
  let w := if bitAt x.aux 4 then 8 else 4
  let mask := x.pmask.getD 0
  (List.range (x.data.length / w)).foldl (fun s i =>
    let at_ := (ls.drop (w * i)).take w
    let v := bytesToNat ((x.data.drop (w * i)).take w)
    let rs := at_.map (s.readByte e)
    if bitAt mask (w * i / 32) || rs.any ByteRead.poison then s
    else s.writeLocs (maskedWrites at_ (natToBytes w (atomOp (field x.aux 0 3) (bitAt x.aux 3) (8 * w) (bytesToNat (rs.map ByteRead.val)) v)) 0)) s

/-- R330: granules an ATOM packet skips. -/
def State.atomPacketSkips (s : State) (e : Env) (ls : List Loc) (x : Pkt) : Nat :=
  (dedupNat ((ls.filter fun l => (s.readByte e l).poison).map fun l => granOf l.addr)).length + popCount 128 (x.pmask.getD 0)

/-- R329, R330, R324: ATOM operates and answers; AOP 6 and 7 change nothing (R328). -/
def State.actAtom (s : State) (x : Pkt) (e : Env) (ls : List Loc) : State :=
  if 6 ≤ field x.aux 0 3 then s.complete x 6 0 [] 0
  else
    let s1 := (s.noteTargets true e ls).noteChip e ls
    ((s1.bump A.atomPoison (s1.atomPacketSkips e ls x)).atomPacket e ls x).complete x 6 0 [] 0

/-- R322 to R324: RD_REQ, WR or ATOM at its target; `cpl` is the type of its completion. -/
def State.memReq (s : State) (h : HeldPkt) (cpl : Nat) (wr : Bool) (n : Nat) (act : State → List Loc → State) : State :=
  match s.ctxOfJob h.pkt.job with
  | none => s.complete h.pkt cpl 1 [] 0
  | some c => s.admitPkt h c wr (spanFrom h.pkt.addr n) (fun s k => (s.ingressFault k h.pkt.src c).complete h.pkt cpl 2 [] 0) act

def State.rdReq (s : State) (h : HeldPkt) : State := s.memReq h 2 false h.pkt.len fun s ls => s.actRead h.pkt h.env ls
def State.wrReq (s : State) (h : HeldPkt) : State := s.memReq h 4 true h.pkt.data.length fun s ls => s.actWrite h.pkt h.env ls
def State.atomReq (s : State) (h : HeldPkt) : State := s.memReq h 6 true h.pkt.data.length fun s ls => s.actAtom h.pkt h.env ls

/-! ### Completions at the source (R324, R327) -/

/-- A completion marks the packet it answers; a later one, or one that answers none, is discarded. -/
def State.completion (s : State) (x : Pkt) : State :=
  match s.sent.find? fun y => y.tag == x.tag && y.peer == x.src && !y.done with
  | none => s
  | some y =>
    let y' := { y with done := true, status := x.status, data := x.data, mask := x.pmask.getD 0 }
    { s.bump A.remoteRefused (if x.status = 0 then 0 else 1) with
      sent := s.sent.map fun z => if z.tag == y.tag && z.peer == y.peer then y' else z }

/-! ### Flags and barriers -/

/-- R324, R287, R292: FLAG_INC at its target. -/
def State.flagIncReq (s : State) (x : Pkt) : State :=
  match s.ctxOfJob x.job with
  | none => s.bump (A.foreignDrop 0) 1
  | some c =>
    match s.logRegion c (field x.aux 9 6) with
    | none => s.bump (A.foreignDrop 0) 1
    | some t => s.incNode t (field x.aux 0 9) (field x.addr 0 24) (1320 + 770 * x.hops)

/-- Fields of an armature packet; its scope is SYSTEM. -/
def barOf (x : Pkt) : BarF := ⟨field x.aux 0 6, 3, field x.aux 8 4, bitAt x.aux 12⟩

/-- R299: an arrival of a child module at the fabric node. -/
def State.barArrive (s : State) (x : Pkt) : State :=
  match s.ctxOfJob x.job with
  | none => s
  | some c =>
    s.arriveUp (.fabric c) (barOf x) s.ticks [x.src]

/-- R299: the parent's release reaches the fabric node whose arrival has gone up. -/
def State.barRelease (s : State) (x : Pkt) : State :=
  match s.ctxOfJob x.job with
  | none => s
  | some c =>
    match s.bars.find? fun e => e.node == .fabric c && e.f == barOf x && e.sent with
    | some e =>
      if s.brokenNode e.node e.f.bid || s.rels.any (fun y => y.node == e.node && y.f == e.f) then s
      else s.pushRel e.node e.f c (max e.stamp s.ticks)
    | none => s

/-! ### Key exchange (R417, R418) -/

/-- A session with a peer replaces an earlier one. -/
def State.openSession (s : State) (peer sendKey recvKey : Nat) : State :=
  { s.dropSession peer with sessions := (s.dropSession peer).sessions ++ [⟨peer, sendKey, recvKey, 0, 0, []⟩] }

/-- R417: KEX_HELLO at the responder; during an activation it waits with what its check found (R447). -/
def State.kexHello (s : State) (x : Pkt) (chainOk : Bool) : State :=
  if s.bit A.secStatus 3 then s.holdPkt { HeldPkt.fresh x noEnv with ok := chainOk }
  else if s.modNum ≤ x.src then s
  else if !chainOk then
    { s.bump A.kexFail 1 with kexs := s.kexs ++ [⟨x.src, 0, x.data, true⟩] }
  else if !s.bit A.secStatus 2 then s
  else
    let priv := s.nextKey
    let data := kexData priv (s.identity.getD 0) s.certChain x.data
    let peerPub := x.data.take 56
    let label := s.nextKey + 1
    let s1 := { s with nextKey := s.nextKey + 2, drbg := (s.drbg + 1) % 1048576 }
    let s2 := s1.openSession x.src (Sys2Proof.Config.x448Key priv peerPub (2 * label + 1)) (Sys2Proof.Config.x448Key priv peerPub (2 * label))
    s2.sendPkt (pktData { s.mkPkt 0 0x21 x.src 0 with job := x.job, tag := x.tag } 0 data 0)

/-- R417: KEX_REPLY at the initiator; during an activation it waits (R447). -/
def State.kexReply (s : State) (x : Pkt) (chainOk : Bool) : State :=
  if s.bit A.secStatus 3 then s.holdPkt { HeldPkt.fresh x noEnv with ok := chainOk } else
  match s.kexs.find? fun y => y.peer == x.src && !y.failed && y.priv != 0 with
  | none => s
  | some y =>
    if chainOk then
      let s1 := { s with kexs := s.kexs.filter fun z => z.peer != x.src, nextKey := s.nextKey + 1 }
      s1.openSession x.src (Sys2Proof.Config.x448Key y.priv (x.data.take 56) (2 * s.nextKey)) (Sys2Proof.Config.x448Key y.priv (x.data.take 56) (2 * s.nextKey + 1))
    else
      { s.bump A.kexFail 1 with kexs := s.kexs.map fun z => if z.peer == x.src then { z with failed := true } else z }

end Sys2Proof.Machine
end

