-- ==== Sys2Proof/Machine/Coll.lean ====
section
/-!
DEFINITION. Sys2Proof/Machine/Coll.lean: collective packets at their target (R366, R353, R367), the decisions of RECV (R350 to
R353, R356, R357), RDOWN (R357, R362), and the start of mover commands (R115, R341).
-/
namespace Sys2Proof.Machine

/-! ### Layouts received (R345, R350, R359, R360) -/

/-- A range joins ascending ranges that do not meet. -/
def addSpan (lo hi : Nat) : List (Nat × Nat) → List (Nat × Nat)
  | [] => [(lo, hi)]
  | (l, h) :: xs =>
    if h < lo then (l, h) :: addSpan lo hi xs
    else if hi < l then (lo, hi) :: (l, h) :: xs
    else addSpan (min lo l) (max hi h) xs

/-- Every byte of ranges, each given by its first byte and length, is covered. -/
def covers (spans want : List (Nat × Nat)) : Bool :=
  want.all fun p => p.2 == 0 || spans.any fun x => x.1 ≤ p.1 && p.1 + p.2 ≤ x.2

/-- Offset of the record in what the child at a level sends. -/
def Bucket.upRec (b : Bucket) (level : Nat) : Nat :=
  if b.byteColl then b.byteRec
  else if b.compress && topCount (b.myrank + 2 ^ level) b.nranks == 0 then leafRec b.blocks else partRec b.blocks

/-- Offset of the status record of a result layout. -/
def Bucket.downRec (b : Bucket) : Nat := if b.byteColl then b.byteRec else b.statusOff

/-- R345, R360: where an arriving COLL_UP of a level is staged; ALLGATHER keeps its offsets. -/
def Bucket.stageAt (b : Bucket) (level : Nat) : Nat := if b.byteColl then b.stage else b.stage + level * stageSpan b.blocks

/-- R350, R367: what is held with the parity that the receiver expects: levels 0 to 15 going up (`dir` 0), 16 the result. -/
def Ctx.gotAt (x : Ctx) (bidx level dir edge : Nat) : List (Nat × Nat) :=
  match x.rx.find? fun y => y.bidx == bidx && y.level == level && y.par == Sparse.get 0 x.prx (parityKey bidx dir edge) with
  | some y => y.got
  | none => []

def Ctx.setGot (x : Ctx) (bidx level dir edge : Nat) (got : List (Nat × Nat)) : Ctx :=
  { x with rx := (x.rx.filter fun y => !(y.bidx == bidx && y.level == level))
      ++ (if got.isEmpty then [] else [⟨bidx, level, Sparse.get 0 x.prx (parityKey bidx dir edge), got⟩]) }

/-! ### Reading and writing records -/

/-- The places of `n` bytes of a context's space, as a mover of region `r` reaches them outside any request (RECV, RDOWN). -/
def State.recPlaces (s : State) (r c a n : Nat) : List Loc := (spanFrom a n).map (s.locNow r c 0)

/-- A write as a context: a fault kind, or done. -/
def State.writeCtx (s : State) (r c : Nat) (a : Nat) (bs : List Byte) : Except (Nat × Nat) State :=
  let ls := (spanFrom a bs.length).map fun va => (va, s.locNow r c 0 va)
  match ls.findSome? fun p => match p.2 with | .bad k => some (k, p.1) | .page q _ => if q.we then none else some (2, p.1) | _ => none with
  | some f => .error f
  | none => .ok (s.writeLocs (maskedWrites (ls.map Prod.snd) bs 0))

/-- Bytes as a region of a context reads them; poisoned ones are zeros (R368). -/
def State.readAs (s : State) (e : Env) (r c a n : Nat) : List Byte :=
  (s.recPlaces r c a n).map fun l => let b := s.readByte e l; if b.poison then 0#8 else b.val

/-- A mover command of the model's own writing records its fault as a mover request does (R259). -/
def State.writeOr (s : State) (r k : Nat) (l : Lri) (c a : Nat) (bs : List Byte) : State :=
  match s.writeCtx r c a bs with
  | .ok s1 => s1
  | .error f => s.recordFault r f.1 f.2 (s.logOf r k) 0 (Hdr.moverSel l.cmd) (Hdr.tag l.cmd)

/-! ### RECV (R350, R351, R356, R357) -/

/-- Fields of a RECV or RDOWN in flight. -/
def Lri.coll (l : Lri) : Option (Nat × Nat × Nat × Nat × Nat) :=
  match MvOp.ofCmd l.cmd with
  | some (.coll bidx phase level _ left out) => some (bidx, phase, level, left, out)
  | _ => none

/-- R343: number of levels: ceil(log2 nranks). -/
def Bucket.levels (b : Bucket) : Nat := (List.range 13).countP fun j => 2 ^ j < b.nranks

/-- R343, R357: rank 0 at the highest level is the root. -/
def Bucket.isRoot (b : Bucket) (level : Nat) : Bool := b.myrank == 0 && level + 1 == b.levels

/-- R351, R357: the record a RECV writes: counts and pattern of the left input, and of the right one where included. -/
def nodeRecord (b : Bucket) (level : Nat) (incl : Bool) (lcount lpat rcount rpat : Nat) : List Byte :=
  let a := b.myrank
  recordBytes (lcount + if incl then rcount else 0) a (nodeEnd a level b.nranks) incl (b.isRoot level) (if incl then lpat ||| rpat else lpat)

/-- The address of a RECV's right record, in staging. -/
def Bucket.rightAt (b : Bucket) (level : Nat) : Nat := b.stageAt level + b.upRec level

/-- R351, R356, R357, R360: the record a RECV writes. With one rank it is the leaf's, rank 0 included. -/
def State.recvRecord (s : State) (r c : Nat) (b : Bucket) (level left : Nat) (incl : Bool) (e : Env) : List Byte :=
  if b.nranks = 1 then recordBytes (s.leafWeight c b) 0 1 false true 1
  else if b.byteColl then byteRecord b b.myrank (nodeEnd b.myrank level b.nranks) incl (b.isRoot level)
  else
    let x := bytesToNat (s.readAs e r c left 640)
    let y := bytesToNat (s.readAs e r c (b.rightAt level) 640)
    let lt := if level = 0 then (s.leafWeight c b, 2 ^ b.myrank) else (field x 0 24, field x 1024 4096)
    nodeRecord b level incl lt.1 lt.2 (field y 0 24) (field y 1024 4096)

/-- What a RECV reads and writes. -/
def State.recvPlaces (s : State) (r c : Nat) (b : Bucket) (level left out : Nat) : List Loc × List Loc :=
  let n := if b.nranks = 1 || b.byteColl then 0 else 640
  ((if level = 0 then [] else s.recPlaces r c left n) ++ s.recPlaces r c (b.rightAt level) n, s.recPlaces r c out 640)

/-- What an RDOWN reads and writes (R357). -/
def State.rdownPlaces (s : State) (r c : Nat) (b : Bucket) : List Loc × List Loc :=
  let at_ := b.result + b.downRec
  (s.recPlaces r c (at_ + 128) 512 ++ s.recPlaces r c (at_ + 8) 1, s.recPlaces r c (at_ + 8) 1)

/-- The bucket of a RECV or RDOWN with its places. -/
def State.decPlaces (s : State) (r : Nat) (l : Lri) : Option (Bucket × List Loc × List Loc) :=
  let c := ((s.rg r).owner).getD 0
  match l.coll with
  | none => none
  | some (bidx, phase, level, left, out) =>
    ((s.cx c).bucket bidx).map fun b => (b, if phase = 1 then s.recvPlaces r c b level left out else s.rdownPlaces r c b)

/-- R351, R357: the record of a RECV is written, or SELF_INCL of an RDOWN set from this rank's own pattern bit; the command ends. -/
def State.actDec (s : State) (r k : Nat) (l : Lri) (b : Bucket) (incl : Bool) (e : Env) : State :=
  let c := ((s.rg r).owner).getD 0
  match l.coll with
  | none => s
  | some (_, phase, level, left, out) =>
    if phase = 1 then (s.writeOr r k l c out (s.recvRecord r c b level left incl e)).finishMover r k l false
    else
      let at_ := b.result + b.downRec
      let pat := bytesToNat (s.readAs e r c (at_ + 128) 512)
      let flags := bytesToNat (s.readAs e r c (at_ + 8) 1)
      let v := setField (BitVec.ofNat 64 flags) 1 1 (if pat.testBit b.myrank then 1 else 0)
      (s.writeOr r k l c (at_ + 8) [BitVec.ofNat 8 v.toNat]).finishMover r k l false

/-- Accesses of a decided RECV or RDOWN wait under this home. -/
def decHome (r k : Nat) : Nat := 64 + 9 * r + k

/-- R49, R390, R391, R117, R266: a decided RECV or RDOWN acts once its accesses at the banks are served and no snapshot part holds it. -/
def State.tryDec (s : State) (r k id : Nat) : State :=
  match (s.cl r k).lri id with
  | none => s
  | some l =>
    match l.mv.dec, s.decPlaces r l with
    | some (incl, e, waited), some (b, rd, wr) =>
      if s.untimedLeft (decHome r k) id || (rd ++ wr).any (fun l => s.placeHeld l || s.recalHeld l) then s
      else if s.snapWaits wr then
        (s.modCl r k fun c => c.modLri id fun x => { x with mv := { x.mv with dec := some (incl, e, true) } }).waitSnap waited wr
      else
        let s1 := (((s.endWait waited wr).noteTorn wr).noteReads (some r) e rd).noteChip e rd
        ((s1.noteTargets false e wr).mvSlips r k l rd wr).actDec r k l b incl e
    | _, _ => s

/-- A RECV or RDOWN has decided: its accesses go to their banks. -/
def State.startDec (s : State) (r k : Nat) (l : Lri) (incl : Bool) (e : Env) : State :=
  let s1 := s.modCl r k fun c => c.modLri l.id fun x => { x with mv := { x.mv with dec := some (incl, e, false) } }
  let ls := match s.decPlaces r l with | some x => x.2.1 ++ x.2.2 | none => []
  (s1.queueUntimed (decHome r k) l.id ls).tryDec r k l.id

/-- R351, R353, R367: a RECV decides: its parity flips, an exclusion is counted, its record is written. -/
def State.decide (s : State) (r k : Nat) (l : Lri) (incl : Bool) (e : Env) : State :=
  let c := ((s.rg r).owner).getD 0
  match l.coll with
  | none => s
  | some (bidx, _, level, _, _) =>
    (((s.flipParity c false bidx 0 level).modCx c fun y => y.setGot bidx level 0 level []).bump (A.redExcluded c) (if incl then 0 else 1)).startDec
      r k l incl e

/-- A RECV in flight that has started: its bucket and level. -/
def State.recvOf (s : State) (r k id : Nat) : Option (Lri × Nat × Bucket × Nat) :=
  let c := ((s.rg r).owner).getD 0
  match (s.cl r k).lri id with
  | none => none
  | some l =>
    match l.coll with
    | some (bidx, 1, level, _, _) =>
      if l.mv.started && l.mv.dec.isNone then ((s.cx c).bucket bidx).map fun b => (l, bidx, b, level) else none
    | _ => none

/-- R350: every byte of the right input has arrived. -/
def State.rightComplete (s : State) (r bidx level : Nat) (b : Bucket) : Bool :=
  covers ((s.cx (((s.rg r).owner).getD 0)).gotAt bidx level 0 level) (b.upRanges (b.myrank + 2 ^ level))

/-- R350: D_j in ns; none: the node waits without limit, as byte collectives do (R360). -/
def Bucket.deadlineAt (b : Bucket) (level : Nat) : Option Nat :=
  if b.deadline = 0 ∨ b.byteColl then none else some (b.deadline * (level + 1))

/-- RECV_RIGHT_COMPLETE: the right input is complete `ns` after T1, no later than the deadline. -/
def State.recvRight (s : State) (r k id ns : Nat) (e : Env) : State :=
  match s.recvOf r k id with
  | none => s
  | some (l, bidx, b, level) =>
    if s.rightComplete r bidx level b && (match b.deadlineAt level with | some d => ns ≤ d | none => true) then s.decide r k l true e else s

/-- RECV_DEADLINE: `ns` after T1 the deadline has come and the right input was not complete by it. -/
def State.recvDeadline (s : State) (r k id ns : Nat) (e : Env) : State :=
  match s.recvOf r k id with
  | none => s
  | some (l, bidx, b, level) =>
    match b.deadlineAt level with
    | some d => if d ≤ ns && (!s.rightComplete r bidx level b || d < ns) then s.decide r k l false e else s
    | none => s

/-! ### RDOWN (R357, R362, R367) -/

/-- The whole result has arrived. -/
def State.resultComplete (s : State) (c bidx : Nat) (b : Bucket) : Bool :=
  covers ((s.cx c).gotAt bidx 16 1 (tz b.myrank)) (b.downRanges b.myrank)

/-- An RDOWN of a bucket that has started and not yet ended its wait, in any cluster of the context. -/
def State.rdownOf (s : State) (c bidx : Nat) : Option (Nat × Nat × Lri) :=
  (s.regionsOf c).findSome? fun r => (List.range 9).findSome? fun k =>
    ((s.cl r k).lris.find? fun l => l.mv.started && l.mv.dec.isNone && (match l.coll with | some (i, 3, _, _, _) => i == bidx | _ => false)).map
      fun l => (r, k, l)

/-- R357, R367: once the whole result is held, the parity flips and SELF_INCL is set. -/
def State.tryRdown (s : State) (c bidx : Nat) (b : Bucket) (e : Env) : State :=
  match s.rdownOf c bidx with
  | some (r, k, l) =>
    if s.resultComplete c bidx b then
      ((s.flipParity c false bidx 1 (tz b.myrank)).modCx c fun y => y.setGot bidx 16 1 (tz b.myrank) []).startDec r k l true e
    else s
  | none => s

/-! ### MOVER_COMMAND_START (R115) -/

/-- The next command of a mover starts, where fewer than 4 of its commands are under way. -/
def State.moverCommandStart (s : State) (r k m : Nat) (e : Env) : State :=
  match s.moverNext r k m with
  | none => s
  | some l =>
    match MvOp.ofCmd l.cmd with
    | none => s
    | some o =>
      let s1 := s.startMover r k m e l o
      let c := ((s.rg r).owner).getD 0
      match o with
      | .coll bidx phase _ _ _ _ =>
        (match (s.cx c).bucket bidx with
         | some b =>
           if phase = 1 ∧ b.nranks = 1 then s1.startDec r k l false e
           else if phase = 3 then s1.tryRdown c bidx b e
           else s1
         | none => s1)
      | _ => s1

/-! ### Collective packets at the target (R366) -/

/-- R366: refused: no context, no such entry, no such edge, another sender than the rank table's, or beyond the layout. -/
def State.collRefused (s : State) (x : Pkt) (up : Bool) (e : Env) : Option (Nat × Bucket) :=
  match s.ctxOfJob x.job with
  | none => none
  | some c =>
    match (s.cx c).bucket (field x.aux 0 8) with
    | none => none
    | some b =>
      let level := field x.aux 24 4
      let me := b.myrank
      let edge := if up then nodeExists me level b.nranks else me != 0 && level == tz me
      let sender := if up then me + 2 ^ level else me - 2 ^ tz me
      let size := if up then b.upSize (me + 2 ^ level) else b.downSize
      if b.tag == field x.aux 8 16 && edge && s.rankMod e c b sender == some x.src && x.addr + x.data.length ≤ size then some (c, b)
      else none

/-- R366, R353, R367: what a collective packet's parity says of it: late ones are dropped and completed. -/
def State.collLate (s : State) (x : Pkt) (up : Bool) (c : Nat) : Bool :=
  field x.aux 28 1 != Sparse.get 0 (s.cx c).prx (parityKey (field x.aux 0 8) (if up then 0 else 1) (field x.aux 24 4))

/-- R350, R362, R366: the data of a collective packet is written, noted as held, and answered; the last of a result ends an RDOWN. One
that the node has decided without meanwhile is late (R353). -/
def State.actColl (s : State) (x : Pkt) (e : Env) (up : Bool) (c : Nat) (b : Bucket) (ls : List Loc) : State :=
  if s.collLate x up c then (s.bump (A.redLate c) 1).complete x 0x12 0 [] 0
  else
    let bidx := field x.aux 0 8
    let level := field x.aux 24 4
    let key := if up then level else 16
    let dir := if up then 0 else 1
    let s1 := (s.writePkt x e ls).modCx c fun y => y.setGot bidx key dir level (addSpan x.addr (x.addr + x.data.length) (y.gotAt bidx key dir level))
    let s2 := s1.complete x 0x12 0 [] 0
    if up then s2 else s2.tryRdown c bidx b e

/-- R366, R323, R324: COLL_UP and COLL_DOWN at their target. -/
def State.collReq (s : State) (h : HeldPkt) (up : Bool) : State :=
  let x := h.pkt
  match s.collRefused x up h.env with
  | none => (s.bump A.redRefused 1).complete x 0x12 1 [] 0
  | some (c, b) =>
    if s.collLate x up c then (s.bump (A.redLate c) 1).complete x 0x12 0 [] 0
    else
      let base := if up then b.stageAt (field x.aux 24 4) else b.result
      s.admitPkt h c true (spanFrom (base + x.addr) x.data.length)
        (fun s k => (s.ingressFault k x.src c).complete x 0x12 2 [] 0) fun s ls => s.actColl x h.env up c b ls

/-! ### Packets and commands that waited (R49, R57, R390, R447, R467, R477) -/

/-- A packet is taken, or taken again. -/
def State.takePkt (s : State) (h : HeldPkt) : State :=
  match h.pkt.ptype with
  | 1 => s.rdReq h
  | 3 => s.wrReq h
  | 5 => s.atomReq h
  | 0x10 => s.collReq h true
  | 0x20 => s.kexHello h.pkt h.ok
  | 0x21 => s.kexReply h.pkt h.ok
  | _ => s.collReq h false

/-- An accepted packet whose accesses are served acts. -/
def State.actPkt (s : State) (h : HeldPkt) : State :=
  match h.locs with
  | none => s
  | some ls =>
    if s.untimedLeft ingressHome h.serial || ls.any s.recalHeld then s
    else
      let s1 := { s with heldPkts := s.heldPkts.filter fun y => y.serial != h.serial }
      match h.pkt.ptype with
      | 1 => s1.actRead h.pkt h.env ls
      | 3 => s1.actWrite h.pkt h.env ls
      | 5 => s1.actAtom h.pkt h.env ls
      | _ =>
        match s1.collRefused h.pkt (h.pkt.ptype == 0x10) h.env with
        | none => (s1.bump A.redRefused 1).complete h.pkt 0x12 1 [] 0
        | some (c, b) => s1.actColl h.pkt h.env (h.pkt.ptype == 0x10) c b ls

/-- Every decided RECV and RDOWN. -/
def State.decided (s : State) : List (Nat × Nat × Nat) :=
  s.clusters.flatMap fun p => (p.2.lris.filter fun l => l.mv.dec.isSome).map fun l => (p.1 / 9, p.1 % 9, l.id)

/-- What waited for accesses, credits, parts or an activation goes on, in the order in which it came: accepted packets, decided
commands, requests that write to another module, then packets that wait to be accepted. -/
def State.retryHeld (s : State) : State :=
  let s1 := s.heldPkts.foldl State.actPkt s
  let s2 := s1.decided.foldl (fun s p => s.tryDec p.1 p.2.1 p.2.2) s1
  let s3 := s2.sendDue noEnv
  let waits := s3.heldPkts.filter fun h => h.locs.isNone
  waits.foldl State.takePkt { s3 with heldPkts := s3.heldPkts.filter fun h => h.locs.isSome }

end Sys2Proof.Machine
end

