-- ==== Sys2Proof/Machine/Layout.lean ====
section
/-!
DEFINITION. Sys2Proof/Machine/Layout.lean: every register of control space (R510): which bits software stores or clears, how
it counts (R513 to R515, R519), who may write it (R426, R453, R481, R506), whose counter it is (R427, R519).
-/
namespace Sys2Proof.Machine

/-- Who may write a register (R426 and the rules that join its table). -/
inductive WAcc where
  /-- Nobody: RO. -/
  | ro
  /-- Queue, doorbell and evaluation registers. -/
  | seq
  /-- Per-context registers that the context itself writes. -/
  | ctx (c : Nat)
  /-- SYNC_FAB_ registers. -/
  | fab (c : Nat)
  | inv
  | poke
  | ekb
  | gov
  | hlt
  /-- SEC_ command registers, written and never read; `rot` is SEC_ROTATE, which a context may write for itself. -/
  | sec (rot : Bool)
  | ctr
  /-- CFG_ registers of R454. -/
  | cfg
  /-- Muolmorn and mailbox registers of R506. -/
  | mlm
  /-- HLT_BIST_REQ and HLT_RECOVER: also the operator. -/
  | bist
  /-- HLT_RESET_REQ, HLT_RETIRE, HLT_BIST_CTRL. -/
  | reset
  /-- Other W1C fields (log 50). -/
  | clear
  deriving DecidableEq, Repr

/-- How a register counts. -/
inductive RKind where
  | status
  | ctr
  | units
  | power
  deriving DecidableEq, Repr

/-- Whose block a register lies in. -/
inductive Home where
  | module
  | region (r : Nat)
  | cluster (r k : Nat)
  | ctx (c : Nat)
  deriving DecidableEq, Repr

/-- One register: stored bits, W1C bits, W1S bits, whether it is write-only, its kind, who writes it, where it lies. -/
structure RegDef where
  rw   : Nat
  w1c  : Nat
  w1s  : Nat
  wo   : Bool
  kind : RKind
  acc  : WAcc
  home : Home
  deriving DecidableEq, Repr

/-- Bits `hi` to `lo` as a mask. -/
def msk (hi lo : Nat) : Nat := 2 ^ (hi + 1) - 2 ^ lo

def rdOnly : Option RegDef := some ⟨0, 0, 0, false, .status, .ro, .module⟩
def rdWr (m : Nat) (a : WAcc) : Option RegDef := some ⟨m, 0, 0, false, .status, a, .module⟩
def wrOnly (a : WAcc) : Option RegDef := some ⟨0, 0, 0, true, .status, a, .module⟩
def w1c (m : Nat) (a : WAcc) : Option RegDef := some ⟨0, m, 0, false, .status, a, .module⟩
/-- A register that `d` describes, with W1S bits besides (R13). -/
def withW1s (m : Nat) (d : Option RegDef) : Option RegDef := d.map fun x => { x with w1s := m }
def counter : Option RegDef := some ⟨0, 0, 0, false, .ctr, .ctr, .module⟩
def counterRo : Option RegDef := some ⟨0, 0, 0, false, .ctr, .ro, .module⟩
def units : Option RegDef := some ⟨0, 0, 0, false, .units, .ctr, .module⟩

def RegDef.at (d : Option RegDef) (h : Home) : Option RegDef := d.map fun x => { x with home := h }

/-- Index of an offset among `n` registers `step` apart from `base`. -/
def idxOf (o base step n : Nat) : Option Nat :=
  if base ≤ o ∧ (o - base) % step = 0 ∧ (o - base) / step < n then some ((o - base) / step) else none

def isIdx (o base step n : Nat) : Bool := (idxOf o base step n).isSome

/-- R3, R27, R28, R454, R506. -/
def cfgReg (o : Nat) : Option RegDef :=
  if o = 0x0 ∨ o = 0x8 ∨ isIdx o 0x100 8 48 then rdOnly
  else if o = 0x400 ∨ o = 0x438 ∨ o = 0x448 then rdOnly
  else if o = 0x408 then withW1s (msk 0 0) (rdWr (msk 1 1) .cfg)
  else if o = 0x410 ∨ o = 0x428 then w1c (msk 1 1) .clear
  else if o = 0x418 then rdWr (msk 51 12) .cfg
  else if o = 0x420 then withW1s (msk 26 26) (rdWr (msk 25 0) .cfg)
  else if o = 0x430 then wrOnly .cfg
  else if o = 0x440 then withW1s (msk 1 0 + msk 3 3) (rdWr (msk 2 2) .cfg)
  else if o = 0x450 ∨ o = 0x458 ∨ o = 0x460 then counter
  else if o = 0x800 then withW1s (msk 13 13) (rdWr (msk 12 0) .mlm)
  else if o = 0x808 then w1c (msk 2 1) .mlm
  else if o = 0x810 then rdWr (msk 51 12) .mlm
  else if o = 0x818 then rdWr (msk 4 0) .mlm
  else if o = 0x820 then rdOnly
  else if o = 0x828 then rdWr (msk 31 0) .mlm
  else if o = 0x830 then rdWr (msk 51 3) .mlm
  else if o = 0x838 ∨ o = 0x840 then counter
  else if isIdx o 0x1000 8 512 then wrOnly .mlm
  else none

/-- R43 to R46, R487. -/
def pwrReg (o : Nat) : Option RegDef :=
  if o = 0x0 then rdWr (msk 10 0) .gov
  else if o = 0x8 then w1c (msk 9 9) .clear
  else if o = 0x10 ∨ o = 0x90 then counter
  else if isIdx o 0x40 8 4 ∨ o = 0x98 then rdOnly
  else if o = 0x80 then some ⟨0, 0, 0, false, .power, .ro, .module⟩
  else if o = 0x88 then some ⟨0, 0, 0, false, .power, .ctr, .module⟩
  else if o = 0xA0 then w1c (msk 1 0) .clear
  else none

/-- R430. -/
def secReg (o : Nat) : Option RegDef :=
  if o = 0x0 then rdOnly
  else if o = 0x8 then wrOnly (.sec true)
  else if o = 0x10 then wrOnly (.sec false)
  else if o = 0x18 then w1c (msk 1 1) .clear
  else if o = 0x20 then rdWr (msk 51 21) (.sec false)
  else if o = 0x28 then withW1s (msk 20 20) (rdWr (msk 19 0) (.sec false))
  else if o = 0x30 then w1c (msk 2 1) .clear
  else if isIdx o 0x40 8 9 then counter
  else if isIdx o 0x100 8 16 ∨ isIdx o 0x200 8 48 then rdOnly
  else none

/-- R396, R481. -/
def hltReg (o : Nat) : Option RegDef :=
  if o = 0x0 ∨ o = 0x40 ∨ o = 0x48 then rdOnly
  else if o = 0x8 then rdWr (msk 39 0) .hlt
  else if o = 0x10 then rdWr (msk 24 0) .hlt
  else if o = 0x18 ∨ o = 0x50 ∨ o = 0xA0 then counter
  else if o = 0x58 ∨ o = 0x70 then wrOnly .bist
  else if o = 0x60 ∨ o = 0x88 then wrOnly .reset
  else if o = 0x68 then w1c (msk 1 1) .clear
  else if o = 0x78 then w1c (msk 2 1) .clear
  else if o = 0x80 then rdWr (msk 8 0) .reset
  else if o = 0x90 then withW1s (msk 41 41) (w1c (msk 40 0) .clear)
  else if o = 0xA8 then counterRo
  else if isIdx o 0x1000 8 432 then w1c (msk 7 0 + msk 24 24) .clear
  else if isIdx o 0x2000 8 432 then w1c (msk 63 0) .clear
  else if isIdx o 0x3000 8 20 then rdOnly
  else none

/-- R278, R397, R506. -/
def memReg (o : Nat) : Option RegDef :=
  if o < 0x100 then
    if o % 0x10 = 0 then rdWr (msk 0 0 + msk 51 12) (.ctx (o / 0x10)) else if o % 0x10 = 8 then rdOnly else none
  else if o = 0x100 then wrOnly .inv
  else if o = 0x108 ∨ o = 0x118 then rdOnly
  else if o = 0x110 ∨ o = 0x120 then counter
  else if 0x200 ≤ o ∧ o < 0x400 then
    let c := (o - 0x200) / 0x20
    if o % 0x20 = 0 then rdWr (msk 51 4) (.ctx c)
    else if o % 0x20 = 8 then withW1s (msk 1 1) (rdWr (msk 0 0 + msk 14 2) (.ctx c))
    else if o % 0x20 = 0x10 then rdWr (msk 51 21) (.ctx c)
    else if o % 0x20 = 0x18 then rdOnly
    else none
  else if isIdx o 0x400 8 5 then counter
  else if o = 0x600 then rdWr (msk 1 0) .mlm
  else if isIdx o 0x608 8 2 then rdOnly
  else if isIdx o 0x618 8 5 then counter
  else none

/-- R305. -/
def syncReg (o : Nat) : Option RegDef :=
  if o < 0x200 then
    let c := o / 0x20
    if o % 0x20 = 0 then rdWr (msk 51 2) (.ctx c)
    else if o % 0x20 = 8 then rdWr (msk 12 0) (.fab c)
    else if o % 0x20 = 0x10 then rdWr (msk 4 0) (.fab c)
    else if o % 0x20 = 0x18 then rdOnly
    else none
  else none

/-- R243, R395. -/
def sfuReg (o : Nat) : Option RegDef :=
  if o < 0x100 then
    if o % 0x10 = 0 then rdWr (msk 51 4) (.ctx (o / 0x10)) else if o % 0x10 = 8 then rdOnly else none
  else if 0x200 ≤ o ∧ o < 0x300 then
    let c := (o - 0x200) / 0x10
    if o % 0x10 = 0 then rdWr (msk 63 0) (.ctx c) else if o % 0x10 = 8 then rdWr (msk 31 0) (.ctx c) else none
  else none

/-- R369. -/
def redReg (o : Nat) : Option RegDef :=
  if o < 0x800 then
    let c := o / 0x80
    let b := o % 0x80
    if b = 0 then rdWr (msk 51 12) (.ctx c)
    else if isIdx b 0x8 8 5 then rdOnly
    else if isIdx b 0x30 8 6 then RegDef.at counter (.ctx c)
    else none
  else if o = 0x800 then counter
  else none

/-- R336 to R338. -/
def ekbReg (o : Nat) : Option RegDef :=
  if o = 0x0 ∨ o = 0x100 then rdOnly
  else if o = 0x8 then wrOnly .ekb
  else if o = 0x10 then rdWr (msk 15 0) .ekb
  else if o = 0x18 then rdWr (msk 0 0) .ekb
  else if isIdx o 0x20 8 11 then counter
  else if o = 0x78 then w1c (msk 63 63) .clear
  else if isIdx o 0x80 8 16 then rdWr (msk 16 0) (.ctx ((o - 0x80) / 8))
  else if 0x1000 ≤ o ∧ o < 0x1400 then
    let b := o % 0x80
    if b = 0 then rdOnly
    else if b = 8 then rdWr (msk 0 0) .ekb
    else if b = 0x10 then rdOnly
    else if isIdx b 0x18 8 4 then counter
    else if b = 0x38 ∨ b = 0x40 then units
    else if b = 0x48 then counter
    else none
  else if isIdx o 0x8000 8 512 then rdWr 0x0F0F0F0F0F0F0F0F .ekb
  else none

/-- R279. -/
def hbmReg (o : Nat) : Option RegDef :=
  if o = 0x0 then rdOnly
  else if isIdx o 0x8 8 6 then counter
  else if o = 0x38 then w1c (msk 63 63) .clear
  else none

/-- R280. -/
def cxlReg (o : Nat) : Option RegDef :=
  if isIdx o 0x0 8 3 then rdOnly else if isIdx o 0x18 8 3 then counter else none

/-- R61, R277, R95. -/
def rtrReg (o : Nat) : Option RegDef :=
  if o = 0x0 ∨ o = 0x40 ∨ o = 0x200 ∨ o = 0x250 then rdOnly
  else if isIdx o 0x8 8 7 ∨ isIdx o 0x210 8 4 ∨ isIdx o 0x230 8 4 ∨ o = 0x300 then counter
  else if o = 0x48 then w1c (msk 63 63) .clear
  else if o = 0x308 then wrOnly .seq
  else none

/-- R304, R395. -/
def rsyncReg (o : Nat) : Option RegDef :=
  if isIdx o 0 8 512 then rdOnly
  else if 0x1000 ≤ o ∧ o < 0x2200 ∧ o % 8 = 0 then rdOnly
  else if o = 0x2400 then wrOnly .poke
  else if o = 0x2408 then counterRo
  else if isIdx o 0x2410 8 4 then counter
  else if o = 0x2430 ∨ o = 0x2438 ∨ o = 0x2440 then rdOnly
  else none

/-- R54, R88, R128, R129. -/
def seqReg (o : Nat) : Option RegDef :=
  if o < 0x80 then
    if o % 0x20 = 0 then rdWr (msk 51 6) .seq
    else if o % 0x20 = 8 then rdWr (msk 23 0) .seq
    else if o % 0x20 = 0x10 then rdOnly
    else if o % 0x20 = 0x18 then counter
    else none
  else if o = 0x80 then wrOnly .seq
  else if o = 0x88 then counter
  else if o = 0x90 then rdWr (msk 0 0 + msk 63 32) .seq
  else if o = 0x98 then w1c (msk 0 0) .seq
  else if isIdx o 0xA0 8 4 then rdWr (msk 51 6) .seq
  else if isIdx o 0xC0 8 4 then rdOnly
  else if o = 0x100 then counterRo
  else if o = 0x108 ∨ o = 0x110 then counter
  else if o = 0x118 then rdOnly
  else if isIdx o 0x120 8 9 then counter
  else if o = 0x168 then w1c (msk 63 63) .clear
  else if o = 0x170 ∨ o = 0x178 then rdOnly
  else none

/-- R87, R158 to R160, R180, R215, R242, R394: the other blocks of a cluster. -/
def engineReg (blk o : Nat) : Option RegDef :=
  match blk with
  | 1 => if isIdx o 0 8 4 then counter else none
  | 2 => if o = 0 ∨ o = 0x40 then rdOnly else if isIdx o 0x8 8 3 ∨ isIdx o 0x48 8 3 then counter else none
  | 3 => if isIdx o 0 8 2 then counter else none
  | 4 =>
    if isIdx o 0 8 2 then rdOnly
    else if o = 0x10 ∨ o = 0x18 ∨ o = 0x28 then counter
    else if o = 0x20 then units
    else if o = 0x300 then w1c (msk 5 0) .clear
    else none
  | 5 | 6 =>
    if o = 0 ∨ o = 0x18 ∨ o = 0x20 then counter
    else if o = 0x8 ∨ o = 0x10 then units
    else if o = 0x40 ∨ o = 0x48 then rdOnly
    else if o = 0x300 then w1c (msk 5 0) .clear
    else none
  | 7 | 8 =>
    if isIdx o 0 8 2 then rdOnly else if isIdx o 0x10 8 3 then units else if o = 0x28 then counter else none
  | _ => none

/-- A block of region `r` at offset `o` of the region. -/
def regionReg (r o : Nat) : Option RegDef :=
  if o < 0x1000 then RegDef.at (rtrReg o) (.region r)
  else if 0x4000 ≤ o ∧ o < 0x8000 then RegDef.at (rsyncReg (o - 0x4000)) (.region r)
  else if 0x10000 ≤ o ∧ o < 0xA0000 then
    let k := (o - 0x10000) / 0x10000
    let b := o % 0x10000
    RegDef.at (if b < 0x1000 then seqReg b else engineReg (b / 0x1000) (b % 0x1000)) (.cluster r k)
  else none

/-- R510: the register at an offset of the direct view; CXL registers at offsets from 0x1_0000_0000 (log 5). -/
def regAt (a : Nat) : Option RegDef :=
  if a % 8 ≠ 0 then none
  else if a < 0x10000 then cfgReg a
  else if a < 0x11000 then pwrReg (a - 0x10000)
  else if a < 0x12000 then secReg (a - 0x11000)
  else if a < 0x16000 then hltReg (a - 0x12000)
  else if a < 0x17000 then memReg (a - 0x16000)
  else if a < 0x18000 then syncReg (a - 0x17000)
  else if a < 0x19000 then sfuReg (a - 0x18000)
  else if a < 0x1A000 then redReg (a - 0x19000)
  else if 0x20000 ≤ a ∧ a < 0x30000 then ekbReg (a - 0x20000)
  else if 0x100000 ≤ a ∧ a < 0x114000 then hbmReg (a % 0x1000)
  else if 0x1000000 ≤ a ∧ a < 0x4000000 then regionReg ((a - 0x1000000) / 0x100000) (a % 0x100000)
  else if 0x100000000 ≤ a ∧ a < 0x100004000 then cxlReg (a % 0x1000)
  else none

/-! ### Sets of registers that resets and assignment clear -/

def isCounterAt (a : Nat) : Bool := match regAt a with | some d => d.kind == .ctr || d.kind == .units | none => false

/-- R517: a register that a region reset returns to its reset value: R128's, SYNC_EPOCH, and the grain registers of R394. -/
def resetByRegion (r a : Nat) : Bool :=
  let b := A.rtr r 0
  if b ≤ a && a < b + 0x100000 then
    let o := a - b
    if o = 0x4000 + 0x2408 then true
    else if 0x10000 ≤ o && o < 0xA0000 then
      let p := o % 0x10000
      p < 0x100 || p = 0x120 || (0x130 ≤ p && p < 0x180) || p = 0x5040 || p = 0x5048 || p = 0x6040 || p = 0x6048
    else false
  else false

/-- R403: every counter of a region's blocks. -/
def counterOfRegion (r a : Nat) : Bool :=
  let b := A.rtr r 0
  b ≤ a && a < b + 0x100000 && isCounterAt a

/-- Registers named _c of a context (R404). -/
def regsOfCtx (c : Nat) : List Nat :=
  [A.ctxRoot c, A.snapList c, A.snapCtl c, A.snapDest c, A.snapStatus c, A.flagMap c, A.fabParent c, A.fabChildren c
  ,A.barBroken c, A.chiselTable c, A.chiselReject c, A.grainSeed c, A.grainStep c, A.bucketTable c, A.tableStatus c
  ,A.bucketValid c 0, A.bucketValid c 1, A.bucketValid c 2, A.bucketValid c 3, A.redEsc c, A.redSat c, A.redNan c
  ,A.redExcluded c, A.redLate c, A.redFolds c, A.ctxJob c, A.keyStatus c]

/-- Drop registers to their reset value 0, with their remainders. -/
def State.dropRegs (s : State) (p : Nat → Bool) : State :=
  { s with regs := Sparse.erase p s.regs, hidden := Sparse.erase p s.hidden }

end Sys2Proof.Machine
end

