-- ==== Sys2Proof/Machine/Keys.lean ====
section
/-!
DEFINITION. Sys2Proof/Machine/Keys.lean: context keys and their rotation (R407 to R413), scrubs (R405, R406), invalidation of
translations (R258).
-/
namespace Sys2Proof.Machine

/-! ### Keys (R407, R410, R411) -/

def State.rngOk (s : State) : Bool := s.bit A.secStatus 2
def State.idOk (s : State) : Bool := s.bit A.secStatus 1
def State.activating (s : State) : Bool := s.bit A.secStatus 3

/-- A fresh key from the DRBG (R407). -/
def State.newKey (s : State) : Nat × State := (s.nextKey, { s with nextKey := s.nextKey + 1, drbg := (s.drbg + 1) % 1048576 })

/-- R411: SEC_KEY_STATUS_c shows STATE and the current generation. -/
def State.setKeyStatus (s : State) (c state gen : Nat) : State := s.setReg (A.keyStatus c) (BitVec.ofNat 64 (state + 4 * gen))

/-- R403, R411: a context without keys gets its first one, unless the DRBG serves no request: the assignment then waits (R407). -/
def State.fillKey (s : State) (c : Nat) : State :=
  if s.dataProt && s.rngOk && (s.cx c).cur.isNone then
    let (k, s1) := s.newKey
    (s1.modCx c fun x => { x with cur := some k, curGen := 0 }).setKeyStatus c 1 0
  else s

/-- R411: both slots erased. -/
def State.eraseKeys (s : State) (c : Nat) : State :=
  (s.modCx c fun x => { x with cur := none, curGen := 0, prev := none, sweep := [] }).setKeyStatus c 0 0

/-! ### The sweep (R412, R413) -/

/-- Indices of a table's entries that are present. -/
def State.presentEntries (s : State) (t n : Nat) : List (Nat × Nat) :=
  (List.range n).filterMap fun i => let e := s.entry (t + 8 * i); if bitAt e 0 then some (i, e) else none

/-- R412: every leaf of a context's tables, in ascending VA; entries 96 to 127 of the first level are never read (R253). -/
def State.leavesOf (s : State) (c : Nat) : List Page :=
  let root := s.regN (A.ctxRoot c)
  if !bitAt root 0 then []
  else
    (s.presentEntries (field root 12 40 * 4096) 96).flatMap fun x0 =>
      (s.presentEntries (field x0.2 12 40 * 4096) 512).flatMap fun x1 =>
        let va1 := x0.1 * 2 ^ 39 + x1.1 * 2 ^ 30
        if bitAt x1.2 1 then (match (s.walk c va1).1 with | .ok p => [p] | .error _ => [])
        else
          (s.presentEntries (field x1.2 12 40 * 4096) 512).filterMap fun x2 =>
            match (s.walk c (va1 + x2.1 * 2 ^ 21)).1 with | .ok p => some p | .error _ => none

/-- R412, R413: the sweep's requests: one 2 MiB page each, of leaves with PROT 1. -/
def State.sweepList (s : State) (c : Nat) : List Page :=
  ((s.leavesOf c).filter Page.prot).flatMap fun p =>
    (List.range (p.size / 0x200000)).map fun i => { p with va := p.va + i * 0x200000, out := p.out + i * 0x200000, size := 0x200000 }

/-- R412: one granule rewritten under the current slot where it is under the previous generation and not poisoned. -/
def State.sweepGran (s : State) (c g : Nat) : State :=
  let x := s.cx c
  let m := s.granAt g
  if m.poison || m.kgen == (x.curGen == 1) then s
  else
    match x.prev with
    | none => s
    | some k =>
      let s1 := { s with mem := s.mem.writeBytes g (s.granSeen g (some k)) }
      s1.setGran g ⟨false, x.curGen == 1, x.cur⟩

/-- R412: the leaf's KGEN is written with the current generation. -/
def State.setLeafGen (s : State) (p : Page) (gen : Nat) : State :=
  let b := (s.readPlain p.leaf 1).1
  let v := setField (BitVec.ofNat 64 (bytesToNat b)) 5 1 gen
  s.writeAll .plain (wrBytes p.leaf [BitVec.ofNat 8 v.toNat])

/-- SWEEP_PAGE_COMPLETE: the sweep's next page is rewritten, once its class 3 request may be accepted (R413, R55); the last one ends
the rotation (R411, R412). -/
def State.sweepPage (s : State) (c : Nat) : State :=
  match (s.cx c).sweep with
  | [] => s
  | p :: rest =>
    if !s.bgReady (Loc.partPages (.page p p.out)) then s else
    let s1 := if isHbm p.out then (List.range 65536).foldl (fun s i => s.sweepGran c (p.out + 32 * i)) s else s
    let last := !(rest.any fun q => q.leaf == p.leaf)
    let s2 := if last then (s1.setLeafGen p (s1.cx c).curGen).dropLeaves (c, false, p.va) else s1
    let s3 := (s2.bump A.sweepPages 1).modCx c fun x => { x with sweep := rest }
    if rest.isEmpty then (s3.modCx c fun x => { x with prev := none }).setKeyStatus c 1 (s3.cx c).curGen else s3

/-- R411: SEC_ROTATE takes effect on an ACTIVE context in data-protected mode; otherwise it is counted. -/
def State.rotate (s : State) (c : Nat) : State :=
  let x := s.cx c
  if !s.dataProt || s.fieldN (A.keyStatus c) 0 2 ≠ 1 then s.bump A.rotRefused 1
  else if !s.rngOk then s
  else
    let (k, s1) := s.newKey
    let s2 := (s1.setCx c { x with prev := x.cur, cur := some k, curGen := 1 - x.curGen, sweep := s.sweepList c }).setKeyStatus c 2 (1 - x.curGen)
    if (s.sweepList c).isEmpty then (s2.modCx c fun y => { y with prev := none }).setKeyStatus c 1 (1 - x.curGen) else s2

/-! ### Scrub (R405, R406) -/

/-- A range of memory zeroed with KGEN 0, no key and no poison. -/
def State.zeroMem (s : State) (a n : Nat) : State :=
  { s with mem := s.mem.zeroRange a n, gran := Sparse.erase (fun g => a ≤ g && g < a + n) s.gran }

/-- R405: the range lies in HBM or in a mapped CXL range. -/
def State.scrubOk (s : State) (base parts : Nat) : Bool :=
  let end_ := base + parts * 0x200000
  parts != 0 && !s.bit A.scrubStatus 0
    && ((isHbm base && end_ ≤ hbmEnd)
        || (isCxl base && cxlPort base == cxlPort (end_ - 1) && s.outOk base && s.outOk (end_ - 1)))

/-- R405: GO starts a scrub of PARTS parts from SEC_SCRUB_BASE, or is refused. -/
def State.scrubGo (s : State) (parts : Nat) : State :=
  let base := s.fieldN A.scrubBase 21 31 * 0x200000
  if s.scrubOk base parts then
    { s.setB A.scrubStatus 0 true with scrub := (List.range parts).map fun i => base + i * 0x200000 }
  else s.setB A.scrubStatus 2 true

/-- R405: Ralrad's own identity mapping of a part. -/
def identityPage (a : Nat) : Page := ⟨0, a, 0x200000, a, true, false, false, false, 3, 0⟩

/-- SCRUB_DONE: every part is zeroed, once its class 3 requests may be accepted (R55); BUSY falls and DONE is set. -/
def State.scrubDone (s : State) : State :=
  if s.bit A.scrubStatus 0 && s.scrub.all fun a => s.bgReady (Loc.partPages (.page (identityPage a) a)) then
    let s1 := s.scrub.foldl (fun s a => s.zeroMem a 0x200000) s
    ({ s1 with scrub := [] }.setB A.scrubStatus 0 false).setB A.scrubStatus 1 true
  else s

/-! ### Invalidation (R258) -/

/-- A waiting request translated through a covered leaf is translated again, in its place (log 51). -/
def Req.unwalk (x : Nat × Bool × Nat) (q : Req) : Req :=
  if q.pages.any (invCovers x) then { q with walked := false } else q

/-- Its walks are misses that arise now (R257). -/
def Region.unwalk (x : Nat × Bool × Nat) (g : Region) : Region :=
  { g with
    waiting := g.waiting.map (Req.unwalk x)
    misses := g.misses ++ (g.waiting.filter fun q => q.walked && q.pages.any (invCovers x)).map Req.id }

/-- R258: the covered leaves leave the caches and BUSY reads 1. -/
def State.invalidate (s : State) (c : Nat) (all : Bool) (page : Nat) : State :=
  if s.inv.isSome then s.bump A.invDrop 1
  else
    let x := (c, all, page)
    let s1 := (List.range 48).foldl (fun s r => s.modRg r (Region.unwalk x)) (s.dropLeaves x)
    { s1.setB A.invStatus 0 true with inv := some x }

/-- R258: an accepted request translated through a covered leaf is not complete yet. -/
def State.invPending (s : State) (x : Nat × Bool × Nat) : Bool :=
  (List.range 48).any (fun r => (s.rg r).accepted.any fun q => q.pages.any (invCovers x))
    || s.heldPkts.any fun h => (h.locs.getD []).any fun l => match l with | .page p _ => invCovers x p | _ => false

/-- R258: an invalidation completes once every accepted request it covers has. -/
def State.invDone (s : State) : State :=
  match s.inv with
  | some x => if s.invPending x then s else { s.setB A.invStatus 0 false with inv := none }
  | none => s

/-- The key a DRBG reseed leaves; a failed health test stops it (R407). -/
def State.drbgReseed (s : State) (healthy : Bool) : State :=
  if s.rngOk then (if healthy then { s with drbg := 0 } else (s.setB A.secStatus 2 false).send (.pldm 1 0)) else s

end Sys2Proof.Machine
end

