-- ==== Sys2Proof/Machine/Region.lean ====
section
/-!
DEFINITION. Sys2Proof/Machine/Region.lean: the shape of a region (R21 to R28, R177, R179), resets of regions and dies (R64,
R303, R475 to R478, R480, R517), loads (R237 to R239, R284, R339, R340, R371, R372), assignment and release (R403, R404).
-/
namespace Sys2Proof.Machine

/-! ### Shape (R21 to R28) -/

def State.working (s : State) (r : Nat) : List Nat := (List.range 9).filter fun k => !(s.cl r k).retired

/-- R28: CFG_REGION_SHAPE_n as R21 to R23 give it. -/
def shapeWord (working : List Nat) (capacity : Bool) : Nat :=
  let n := working.length
  let lost := (List.range 8).find? fun k => !working.contains k
  if n < 8 then (if !capacity && working.contains 8 then 512 else 0)
  else
    match lost with
    | some k => 8 + 16 + 32 + k * 64
    | none => if capacity then n + 16 else 8 + 16 + (if working.contains 8 then 512 else 0)

/-- R27: CFG_SHAPE's counts over the regions. -/
def State.sumShape (s : State) : State :=
  let cl := (List.range 48).map fun r => s.nClusters r
  let s1 := s.setFld A.shape 0 6 (cl.countP fun n => n != 0)
  s1.setFld A.shape 32 16 (sumNat cl)

/-- R23, R404: physical cluster 8, retired or not, is gated in reserve mode unless it stands in; its scratchpad is zeroed as it
powers up. -/
def State.gateSpare (s : State) (r : Nat) : State :=
  let c := s.cl r 8
  let gate := !s.active.capacity && !s.bit (A.regionShape r) 5
  let s1 := s.setCl r 8 { c with gated := gate }
  if c.gated && !gate then s1.zeroMem (spAddr r 8 0) 0x400000 else s1

/-- R25, R28: the region's shape is written anew; a retirement still pending stays shown. -/
def State.reshape (s : State) (r : Nat) : State :=
  let w := shapeWord (s.working r) s.active.capacity + (if (s.rg r).retirePend.isEmpty then 0 else 1024)
  ((s.setReg (A.regionShape r) (BitVec.ofNat 64 w)).gateSpare r).sumShape

/-- R177: working columns of a column map. -/
def colsLeft (map : Nat) : Nat := 64 - popCount 64 map

/-- R177, R179: a pending width takes effect: the map it was found with, and the columns that leaves. -/
def State.applyWidth (s : State) (r k map : Nat) : State :=
  (s.setReg (A.maColmap r k) (BitVec.ofNat 64 map)).setReg (A.maShape r k) (BitVec.ofNat 64 (colsLeft map))

/-- R25, R179: a pending retirement takes effect. -/
def State.applyRetire (s : State) (r k : Nat) : State :=
  (s.modCl r k fun c => { c with retired := true, uaccs := [] }).setFld (A.maShape r k) 8 8 0

/-- R25, R179: pending retirements and widths take effect. -/
def State.applyPending (s : State) (r : Nat) : State :=
  let g := s.rg r
  let s1 := g.widthPend.foldl (fun s p => s.applyWidth r p.1 p.2) s
  let s2 := g.retirePend.foldl (fun s k => s.applyRetire r k) s1
  (s2.modRg r fun g => { g with retirePend := [], widthPend := [] }).reshape r

/-- R468, R25, R179: Ralrad acts on a flag: a width change where 60 columns remain, otherwise a retirement. -/
def State.actOnFlag (s : State) (r k : Nat) : State :=
  let p := 9 * r + k
  let pend := match (s.rg r).widthPend.find? fun x => x.1 == k with | some x => x.2 | none => 0
  let bad := s.regN (A.maColmap r k) ||| s.regN (A.colFail p) ||| pend
  let left := colsLeft bad
  let kinds := s.fieldN (A.hltCluster p) 0 8
  let columnsOnly := kinds ≤ 1 && s.regN (A.colFail p) != 0 && !s.bit (A.hltCluster p) 24
  let s1 :=
    if columnsOnly && 60 ≤ left then
      let s0 := (s.setFld (A.maShape r k) 8 7 (min 64 left)).setB (A.maShape r k) 15 true
      s0.modRg r fun g => { g with widthPend := (g.widthPend.filter fun p => p.1 != k) ++ [(k, bad)] }
    else
      let s0 := if columnsOnly then
          ((s.setFld (A.maShape r k) 8 7 0).setB (A.maShape r k) 15 true).modRg r fun g => { g with widthPend := g.widthPend.filter fun p => p.1 != k }
        else s
      (s0.modRg r fun g => { g with retirePend := if g.retirePend.contains k then g.retirePend else g.retirePend ++ [k] }).setB (A.regionShape r) 10 true
  s1

/-! ### Resets (R64, R475 to R480, R517) -/

/-- R303: a region reset breaks every ID with arrivals pending at a die node, the module top or the fabric. -/
def State.breakIds (s : State) (c : Nat) : State :=
  let ids := s.bars.filterMap fun e =>
    match e.node with
    | .die _ x | .top x | .fabric x => if x = c then some e.f.bid else none
    | _ => none
  if ids.isEmpty then s
  else
    let m := ids.foldl (fun m i => m ||| 2 ^ i) (s.cx c).broken
    (s.modCx c fun x => { x with broken := m, unreset := if x.unreset.isEmpty then s.regionsOf c else x.unreset }).setReg
      (A.barBroken c) (BitVec.ofNat 64 m)

/-- R303: the marks are cleared once every region of the context has been reset. -/
def State.mendIds (s : State) (r c : Nat) : State :=
  let x := s.cx c
  if x.broken = 0 then s
  else
    let left := x.unreset.filter fun q => q != r
    if left.isEmpty then
      let s1 := (s.setCx c { x with broken := 0, unreset := [] }).setReg (A.barBroken c) 0
      { s1 with
        bars := s1.bars.filter fun e => !(bitAt x.broken e.f.bid && (match e.node with | .die _ y | .top y | .fabric y => y == c | _ => false))
        rels := s1.rels.filter fun e => !(bitAt x.broken e.f.bid && e.ctx == c && (match e.node with | .child _ _ => false | _ => true)) }
    else s.setCx c { x with unreset := left }

/-- A cluster as a region reset leaves it (R111, R130, R154, R203, R281). -/
def Cluster.reset (c : Cluster) : Cluster :=
  { Cluster.init with retired := c.retired, gated := c.gated, elapsed := c.elapsed, beganAt := c.beganAt, uaccs := c.uaccs, slices := { c.slices with running := none, ranStep := false } }

/-- R469: a slice that runs is ended: nothing is restored, and the cluster's scratchpad holds free bytes. -/
def State.abortSlices (s : State) (r : Nat) : State :=
  (List.range 9).foldl (fun s k =>
    if (s.cl r k).slices.running.isSome then (s.setB A.bistStatus 2 true).scramble (spAddr r k 0) 0x400000 else s) s

/-- R475, R480, R517: what a region's reset does. -/
def State.resetEffect (s : State) (r : Nat) : State :=
  let s0 := s.abortSlices r
  let s1 := match (s0.rg r).owner with | some c => (s0.breakIds c).mendIds r c | none => s0
  let s2 := (List.range 9).foldl (fun s k => s.modCl r k Cluster.reset) s1
  let s3 := s2.dropRegs (resetByRegion r)
  let s4 := s3.modRg r fun g => { g with
    cnt := [], unseen := [], cache := [], waiting := [], misses := [], chisel := [], chiselCfg := 0, loaded := false, resetSince := true }
  let s5 := { s4 with
    bars := s4.bars.filter fun e => match e.node with | .cluster q _ | .region q => q != r | _ => true
    rels := s4.rels.filter fun e => match e.node with | .cluster q _ | .region q => q != r | _ => true
    sent := s4.sent.filter fun x => x.region != r
    counted := Sparse.erase (fun a => A.doorbell r 0 / 0x100000 == a / 0x100000) s4.counted }
  s5.setFld (A.regionEpoch r) 0 31 ((s5.fieldN (A.regionEpoch r) 0 31 + 1) % 2 ^ 31)

/-- R64: a reset begins: nothing more is accepted, waiting requests are discarded, IN_RESET reads 1. -/
def State.beginReset (s : State) (r : Nat) : State :=
  (s.modRg r fun g => { g with inReset := true, closing := true, waiting := [], misses := [], loaded := false }).setB (A.regionEpoch r) 31 true

/-- R475: a reset of the region, or of its die, runs. -/
def State.resetting (s : State) (r : Nat) : Bool := (s.rg r).inReset || s.dieReset.contains (dieOf r)

/-- R475: a requested region reset, or its refusal. -/
def State.requestRegionReset (s : State) (r : Nat) : State :=
  if s.boot != .ready || 48 ≤ r || s.resetting r || s.activating then s.setB A.resetStatus 1 true
  else
    let s1 := (s.setB A.resetStatus 0 true).beginReset r
    s1.modRg r fun g => { g with job := if g.job == .none then .reset else g.job }

/-- R475, R477: a die reset begins. -/
def State.beginDieReset (s : State) (d : Nat) : State :=
  let rs := (List.range 12).map fun i => 12 * d + i
  let s1 := rs.foldl (fun s r => (s.beginReset r).modRg r fun g => { g with job := if g.job == .none then .reset else g.job }) s
  let s2 := { s1 with dieReset := s1.dieReset ++ [d] }
  (List.range 5).foldl (fun s i => s.setFld (A.hbmStatus (5 * d + i)) 0 2 0) s2

/-- R475: a requested die reset, or its refusal. -/
def State.requestDieReset (s : State) (d : Nat) : State :=
  if s.boot != .ready || 4 ≤ d || s.dieReset.contains d || s.activating then s.setB A.resetStatus 1 true
  else (s.setB A.resetStatus 0 true).beginDieReset d

/-- DIE_CORE_TIMEOUT: a die management core that has not answered for 100 ms (R475). -/
def State.dieCoreTimeout (s : State) (d ms : Nat) : State :=
  if s.boot == .ready && 100 ≤ ms && !s.dieReset.contains d && !s.activating then s.beginDieReset d else s

/-! ### Loads (R237 to R239, R284, R339, R340, R371, R372) -/

/-- R239: the image at an address of the context's space. -/
def State.loadImage (s : State) (e : Env) (c a : Nat) : Option ChiselProg :=
  match s.readCtx e c a 16 with
  | none => none
  | some h =>
    let l := bytesToNat ((h.drop 6).take 1)
    let t := bytesToNat ((h.drop 8).take 2)
    if 64 < l ∨ 256 < t then none
    else (s.readCtx e c a (roundUp (16 + 8 * l) 16 + 16 * t)).bind chiselParse

/-- R237: what fills slot `i`: empty, rejected, or a program with whether the configuration bound it. -/
def State.slotOf (s : State) (e : Env) (c i entry : Nat) : Option (Option (ChiselProg × Bool)) :=
  if entry ≠ 0 then
    if entry % 16 ≠ 0 ∨ 2 ^ 52 ≤ entry then some none
    else some ((s.loadImage e c entry).map fun p => (p, false))
  else if bitAt s.active.bind i then
    some (((s.active.images.find? fun x => x.1 == i).bind fun x => chiselParse x.2).map fun p => (p, true))
  else none

/-- R238, R239: a region's chisel store is loaded; rejected slots are shown. -/
def State.loadChisel (s : State) (e : Env) (r c : Nat) : State :=
  let a := s.fieldN (A.chiselTable c) 4 48 * 16
  let table : Option (List Nat) :=
    if a = 0 then some (List.replicate 32 0) else (s.readCtx e c a 256).map fun bs => (chunks 8 32 bs).map bytesToNat
  let slots := (List.range 32).map fun i =>
    match table with
    | some t => s.slotOf e c i (nth 0 t i)
    | none => some none
  let found := (numberFrom (fun i x => (i, x)) 0 slots).filterMap fun p =>
    match p.2 with | some (some (g, cfg)) => some (p.1, g, cfg) | _ => none
  let rej := sumNat (numberFrom (fun i (x : Option (Option (ChiselProg × Bool))) => if x == some none then 2 ^ i else 0) 0 slots)
  (s.modRg r fun g => { g with
    chisel := found.map fun x => (x.1, x.2.1)
    chiselCfg := sumNat ((found.filter fun x => x.2.2).map fun x => 2 ^ x.1) }).setReg (A.chiselReject c) (BitVec.ofNat 64 rej)

/-- R284: the fields of an entry whose SCOPE is not 0 are in range. -/
def mapEntryOk (e : Nat) : Bool :=
  field e 0 2 == 0 || (field e 2 2 != 3 && field e 13 6 < 48 && (field e 0 2 != 1 || field e 4 9 < 64))

/-- The physical counters an entry names among a context's `n` regions: scope, place, index. -/
def State.mapNames (s : State) (n e : Nat) : List (Nat × Nat × Nat) :=
  match field e 0 2 with
  | 1 => [(1, 0, field e 4 9)]
  | 2 => (List.range n).map fun lr => (2, lr, field e 4 9)
  | 3 =>
    if s.entryHere e then [(2, field e 13 6, field e 4 9)]
    else [(3, field e 13 6 + 64 * field e 19 12, field e 4 9)]
  | _ => []

/-- R284: two entries that name one counter agree on REALIGN. -/
def State.mapAgrees (s : State) (n : Nat) : List (Nat × Nat) → Bool
  | [] => true
  | e :: es =>
    (es.all fun f => field f.2 2 2 == field e.2 2 2 || !((s.mapNames n e.2).any (s.mapNames n f.2).contains)) && s.mapAgrees n es

/-- R284: the flag map is loaded, rejected whole, or absent. -/
def State.loadMap (s : State) (e : Env) (r c : Nat) : State :=
  let a := s.fieldN (A.flagMap c) 2 50 * 4
  let show_ (s : State) (loaded reject : Bool) (m : Sparse Nat) : State :=
    (s.modRg r fun g => { g with map := m, mapLoaded := loaded, mapReject := reject }).setReg (A.mapStatus r)
      (BitVec.ofNat 64 ((if loaded then 1 else 0) + (if reject then 2 else 0)))
  if a = 0 then show_ s false false []
  else
    match s.readCtx e c a 16384 with
    | none => show_ s false true []
    | some bs =>
      let es := (numberFrom (fun i (b : List Byte) => (i, bytesToNat b)) 0 (chunks 4 4096 bs)).filter fun e => e.1 != 0xFFF && field e.2 0 2 != 0
      if es.all (fun e => mapEntryOk e.2) && s.mapAgrees (s.regionsOf c).length es then
        show_ s true false (es.filter fun e => e.2 != 0)
      else show_ s false true []

/-- R339: one entry of the bucket table. -/
def bucketOf (bs : List Byte) : Bool × Bucket :=
  let v := bytesToNat bs
  let f (byte lo len : Nat) : Nat := field v (8 * byte + lo) len
  (f 2 6 1 == 1,
   { tag := f 0 0 16, coll := f 2 0 2, compress := f 2 2 1 == 1, avg := f 2 3 1 == 1, late := f 2 4 1 == 1, resBf := f 2 5 1 == 1
     cls := f 3 0 2, n := f 4 0 24, nranks := f 8 0 13, myrank := f 10 0 12, deadline := f 12 0 32, ranktab := f 16 0 52
     stage := f 24 0 52, result := f 32 0 52, weight := f 40 0 6 })

/-- R340: refused entries. -/
def bucketOk (tags : List Nat) (b : Bucket) : Bool :=
  (tags.countP fun t => t == b.tag) == 1 && b.cls != 0 && b.n != 0 && b.nranks != 0 && b.nranks ≤ 4096 && b.myrank < b.nranks
    && b.stage % 128 == 0 && b.result % 128 == 0
    && (b.coll != 1 || b.n % (32 * b.nranks) == 0) && (b.coll != 2 || b.n % (128 * b.nranks) == 0)

/-- R339, R340, R367: the bucket table is loaded; parity bits start at 0. -/
def State.loadBuckets (s : State) (e : Env) (c : Nat) : State :=
  let a := s.fieldN (A.bucketTable c) 12 40 * 4096
  let show_ (s : State) (loaded reject : Bool) (bs : List (Nat × Bucket)) : State :=
    let s1 := s.modCx c fun x => { x with buckets := bs, ptx := [], prx := [], rx := [] }
    let s2 := s1.setReg (A.tableStatus c) (BitVec.ofNat 64 ((if loaded then 1 else 0) + (if reject then 2 else 0)))
    (List.range 4).foldl (fun s i =>
      s.setReg (A.bucketValid c i) (BitVec.ofNat 64 (sumNat ((bs.filter fun b => b.1 / 64 == i).map fun b => 2 ^ (b.1 % 64))))) s2
  if a = 0 then show_ s false false []
  else
    match s.readCtx e c a 32768 with
    | none => show_ s false true []
    | some bs =>
      let es := (numberFrom (fun i (b : List Byte) => (i, bucketOf b)) 0 (chunks 128 256 bs)).filter fun e => e.2.1
      let tags := es.map fun e => e.2.2.tag
      show_ s true false ((es.filter fun e => bucketOk tags e.2.2).map fun e => (e.1, e.2.2))

/-- R371, R372: seed and step. -/
def State.loadGrain (s : State) (r c : Nat) : State :=
  (s.modRg r fun g => { g with seed := s.regN (A.grainSeed c) }).setReg (A.step r) (BitVec.ofNat 64 (s.fieldN (A.grainStep c) 0 32))

/-- R523, R266: the bytes that the loads of a context read: chisel table and images, flag map, bucket table. -/
def State.loadRanges (s : State) (e : Env) (c : Nat) : List (Nat × Nat) :=
  let ch := s.fieldN (A.chiselTable c) 4 48 * 16
  let fm := s.fieldN (A.flagMap c) 2 50 * 4
  let bt := s.fieldN (A.bucketTable c) 12 40 * 4096
  let image (a : Nat) : Nat × Nat :=
    match s.readCtx e c a 16 with
    | none => (a, 16)
    | some h =>
      let l := bytesToNat ((h.drop 6).take 1)
      let t := bytesToNat ((h.drop 8).take 2)
      (a, if 64 < l ∨ 256 < t then 16 else roundUp (16 + 8 * l) 16 + 16 * t)
  let images := match (if ch = 0 then none else s.readCtx e c ch 256) with
    | none => []
    | some bs => (((chunks 8 32 bs).map bytesToNat).filter fun a => a != 0 && a % 16 == 0 && a < 2 ^ 52).map image
  (if ch = 0 then [] else [(ch, 256)]) ++ images ++ (if fm = 0 then [] else [(fm, 16384)]) ++ (if bt = 0 then [] else [(bt, 32768)])

/-- R266: uncorrectable errors that the loads meet, and poison they find, are counted. -/
def State.noteLoads (s : State) (e : Env) (c : Nat) : State :=
  (s.loadRanges e c).foldl (fun s p => s.noteReads none e (s.ctxPlaces c p.1 p.2)) s

/-- R403 step 4, R476: the loads of a region for a context. -/
def State.loads (s : State) (e : Env) (r c : Nat) : State :=
  ((((s.noteLoads e c).loadChisel e r c).loadMap e r c).loadGrain r c).loadBuckets e c

/-! ### ASSIGN and RELEASE (R403, R404) -/

/-- R403: the refusals of ASSIGN. -/
def State.assignOk (s : State) (r : Nat) : Bool :=
  s.boot == .ready && r < 48 && (s.rg r).owner.isNone && s.bit (A.regionShape r) 4 && !s.bit A.assignStatus 0
    && (!s.dataProt || (s.idOk && s.rngOk))

/-- R403 steps 2 and 3: the region's counters are cleared and the context gets a key. -/
def State.assignPrepare (s : State) (r c : Nat) : State :=
  (s.dropRegs (counterOfRegion r)).fillKey c

/-- R403: ASSIGN of region `r` to context `c`. -/
def State.assign (s : State) (r c : Nat) : State :=
  if !s.assignOk r then s.setB A.assignStatus 1 true
  else
    let s1 := (s.setB A.assignStatus 0 true).modRg r fun g => { g with job := .assign c }
    if (s1.rg r).resetSince || s1.resetting r then s1.assignPrepare r c else s1.beginReset r

/-- R404: RELEASE of region `r`. -/
def State.release (s : State) (r : Nat) : State :=
  if s.boot != .ready || 48 ≤ r || (s.rg r).owner.isNone || s.bit A.assignStatus 0 then s.setB A.assignStatus 1 true
  else ((s.setB A.assignStatus 0 true).modRg r fun g => { g with job := .release }).beginReset r

/-- R404 step 3: scratchpads of the powered clusters and the region buffer are zeroed. -/
def State.zeroRegion (s : State) (r : Nat) : State :=
  (((List.range 9).filter fun k => !(s.cl r k).gated).foldl (fun s k => s.zeroMem (spAddr r k 0) 0x400000) s).zeroMem (rbAddr r 0) 0x1000000

/-- R404 step 5, R393: a context without regions loses its translations, keys and registers; its snapshot is aborted. -/
def State.clearCtx (s : State) (c : Nat) : State :=
  let st := s.fieldN (A.snapStatus c) 0 3
  let s1 := ((s.dropLeaves (c, true, 0)).eraseKeys c).dropRegs fun a => (regsOfCtx c).contains a
  let s2 := if st = 1 ∨ st = 2 then s1.setReg (A.snapStatus c) 5 else s1
  s2.setCx c Ctx.init

/-- R404 step 5: Ralrad writes MEM_XLATE_INV with ALL for a context without regions, as soon as no other invalidation runs (R258). -/
def State.beginClose (s : State) (r c : Nat) : State :=
  if s.inv.isSome then s.modRg r fun g => { g with job := .closing c false }
  else (s.invalidate c true 0).modRg r fun g => { g with job := .closing c true }

/-- R404 step 5: once that invalidation is complete, the release is. -/
def State.endClose (s : State) (r : Nat) : State :=
  match (s.rg r).job with
  | .closing c true => ((s.clearCtx c).modRg r fun g => { g with job := .none }).setB A.assignStatus 0 false
  | .closing c false => s.beginClose r c
  | _ => s

/-- INVALIDATION_COMPLETE: a release that waits for it goes on (R404). -/
def State.invComplete (s : State) : State :=
  let s1 := s.invDone
  if s.inv.isSome && s1.inv.isNone then (List.range 48).foldl State.endClose s1 else s1

/-- R404 steps 3 to 5. -/
def State.finishRelease (s : State) (r : Nat) : State :=
  let s1 := s.zeroRegion r
  match (s1.rg r).owner with
  | none => s1
  | some c =>
    let s2 := s1.modRg r fun g => { g with owner := none, job := .none, loaded := false, resetSince := false, map := [], mapLoaded := false, mapReject := false, seed := 0 }
    let s3 := s2.setReg (A.mapStatus r) 0
    if (s3.regionsOf c).isEmpty then s3.beginClose r c else s3.setB A.assignStatus 0 false

/-- What follows a region's reset (R403, R404, R445, R476). An ASSIGN that was accepted goes on to its end even where its own
reset applied a second retirement and the region is out of service after it (R22 speaks of accepting only: DESIGN CHOICE,
log 100). -/
def State.afterReset (s : State) (r : Nat) : State :=
  let s1 := ((s.modRg r fun g => { g with inReset := false, closing := false }).setB (A.regionEpoch r) 31 false).adoptShares r
  match (s1.rg r).job with
  | .assign c => (s1.applyPending r).assignPrepare r c
  | .release => (s1.applyPending r).finishRelease r
  | _ =>
    if (s1.rg r).owner.isSome then s1
    else (s1.applyPending r).modRg r fun g => { g with job := match g.job with | .closing c b => .closing c b | _ => .none }

/-- RESET_COMPLETE of region `n`: once every accepted request is complete. -/
def State.regionResetDone (s : State) (n : Nat) : State :=
  let g := s.rg n
  if g.inReset && g.accepted.isEmpty && !s.dieReset.contains (dieOf n) then
    let s1 := (s.resetEffect n).afterReset n
    if (List.range 48).any (fun r => (s1.rg r).inReset) then s1 else s1.setB A.resetStatus 0 false
  else s

/-- R64: the HBM controllers of a die still have accepted requests, of whatever die. -/
def State.stacksBusy (s : State) (d : Nat) : Bool := s.holders.any fun h => h.2.any fun i => 5 * d ≤ i && i < 5 * d + 5

/-- RESET_COMPLETE of die `d` with the stacks that retrained (R477, R478). -/
def State.dieResetDone (s : State) (d trained : Nat) : State :=
  let rs := (List.range 12).map fun i => 12 * d + i
  if s.dieReset.contains d && rs.all (fun r => (s.rg r).accepted.isEmpty) && !s.stacksBusy d then
    let s1 := { s with dieReset := s.dieReset.filter fun x => x != d }
    let s2 := (List.range 5).foldl (fun s i =>
      let k := 5 * d + i
      if bitAt trained i then s.setB (A.hbmStatus k) 0 true else s.send (.pldm 2 k)) s1
    let s3 := rs.foldl (fun s r => (s.resetEffect r).afterReset r) s2
    if s3.dieReset.isEmpty && !((List.range 48).any fun r => (s3.rg r).inReset) then s3.setB A.resetStatus 0 false else s3
  else s

/-- REGION_LOADS_COMPLETE: the loads of an ASSIGN, or those that follow a reset of an owned region (R403, R476). -/
def State.regionLoadsDone (s : State) (r : Nat) (e : Env) : State :=
  let g := s.rg r
  if g.inReset || s.dieReset.contains (dieOf r) then s
  else
    match g.job with
    | .assign c =>
      if s.dataProt && (s.cx c).cur.isNone then s
      else
        let s1 := (s.modRg r fun g => { g with owner := some c }).loads e r c
        (s1.modRg r fun g => { g with job := .none, loaded := true }).setB A.assignStatus 0 false
    | .reset =>
      match g.owner with
      | some c => (s.loads e r c).modRg r fun g => { g with job := .none, loaded := true }
      | none => s
    | _ => s

end Sys2Proof.Machine
end

