-- ==== Sys2Proof/Machine/Snap.lean ====
section
/-!
DEFINITION. Sys2Proof/Machine/Snap.lean: snapshots of contexts (R386 to R393): arming, part copies, the header and the manifest.
-/
namespace Sys2Proof.Machine

/-! ### Places of a context outside any request -/

/-- The place `n` bytes further on. -/
def Loc.plus (n : Nat) : Loc → Loc
  | .chip a => .chip (a + n)
  | .page p a => .page p (a + n)
  | .bad k => .bad k

/-- A place a context may write. -/
def Loc.writable : Loc → Bool
  | .chip _ => true
  | .page p _ => p.we
  | .bad _ => false

/-! ### Arming (R386, R387) -/

/-- R386: one entry: its VA and PARTS, none where a reserved field or alignment is wrong. -/
def snapEntry (bs : List Byte) : Option (Nat × Nat) :=
  let a := bytesToNat (bs.take 8)
  let n := bytesToNat ((bs.drop 8).take 8)
  if 2 ^ 52 ≤ a ∨ 2 ^ 20 ≤ n ∨ a % 0x200000 ≠ 0 ∨ n = 0 then none else some (a, n)

/-- Two ranges of bytes share one. -/
def rangesMeet (a n b m : Nat) : Bool := a < b + m && b < a + n

/-- R387: no two entries overlap. -/
def entriesApart : List (Nat × Nat) → Bool
  | [] => true
  | (a, n) :: xs => (xs.all fun y => !rangesMeet a (n * 0x200000) y.1 (y.2 * 0x200000)) && entriesApart xs

/-- R386: offset of part `i` in the destination (R393). -/
def partAt (i : Nat) : Nat := 0x600000 + 0x200000 * i

/-- R386, R387: the parts of a context's list, or none where the snapshot is refused. -/
def State.snapParts (s : State) (e : Env) (c : Nat) : Option (List Nat) :=
  let list := s.fieldN (A.snapList c) 4 48 * 16
  match s.readCtx e c list 16 with
  | none => none
  | some h =>
    let count := bytesToNat (h.take 8)
    if count = 0 ∨ 64 < count then none
    else
      match s.readCtx e c (list + 16) (16 * count) with
      | none => none
      | some bs =>
        let es := (chunks 16 64 bs).map snapEntry
        if es.any Option.isNone then none
        else
          let es := es.filterMap id
          let total := sumNat (es.map Prod.snd)
          let dest := s.fieldN (A.snapDest c) 21 31 * 0x200000
          if 524288 < total ∨ !entriesApart es ∨ es.any (fun x => rangesMeet x.1 (x.2 * 0x200000) dest (partAt total)) then none
          else some (es.flatMap fun x => (List.range x.2).map fun i => x.1 + 0x200000 * i)

/-- R266, R523: what reading the list of a context counts. -/
def State.noteList (s : State) (e : Env) (c : Nat) : State :=
  let list := s.fieldN (A.snapList c) 4 48 * 16
  let count := match s.readCtx e c list 16 with | some h => min 64 (bytesToNat (h.take 8)) | none => 0
  s.noteReads none e (s.ctxPlaces c list (16 + 16 * count))

/-- The copier's packets await their completions under region 48 + c. -/
def snapHome (c : Nat) : Nat := 48 + c

/-- R387: a snapshot of a context is armed, refused, or ignored while one runs. -/
def State.snapArm (s : State) (c : Nat) (e : Env) : State :=
  let st := s.fieldN (A.snapStatus c) 0 3
  if st = 1 ∨ st = 2 then s.bump A.snapRefused 1
  else
    let s1 := s.noteList e c
    match s.snapParts e c with
    | none => (s1.bump A.snapRefused 1).setReg (A.snapStatus c) 4
    | some ps =>
      let s2 := { s1 with sent := s1.sent.filter fun x => x.region != snapHome c }
      (s2.modCx c fun x => { x with snap := ⟨ps, [], [], [], 0, 0, 0⟩ }).setReg (A.snapStatus c) (BitVec.ofNat 64 (1 + ps.length * 2 ^ 23))

/-! ### The copier (R389, R392, R393) -/

/-- R393: the 4 KiB header. -/
def snapHeader (c modNum complete : Nat) (x : Snap) : List Byte :=
  natToBytes 4 0x50414E53 ++ natToBytes 2 1 ++ natToBytes 1 c ++ natToBytes 1 complete ++ natToBytes 4 x.step
    ++ natToBytes 4 x.parts.length ++ natToBytes 2 modNum ++ natToBytes 2 x.epoch ++ natToBytes 8 x.time ++ List.replicate 4068 0#8

/-- Bytes the module writes itself. -/
def cleanBytes (bs : List Byte) : List ByteRead := bs.map fun b => ⟨b, false, false⟩

/-- R312: bytes as a packet carries them: poisoned granules are zeros under the mask. -/
def packetMask (bs : List ByteRead) : Nat :=
  sumNat (numberFrom (fun i (g : List ByteRead) => if g.any ByteRead.poison then 2 ^ i else 0) 0 (chunks 32 (bs.length / 32 + 1) bs))

/-- R392: the copier writes bytes at an address of the destination: through the context's tables, or to the peer, its packets known by
`id`: 0, or a part's number plus one. A destination that faults takes nothing (log 52). -/
def State.snapWrite (s : State) (c id va : Nat) (bs : List ByteRead) : State :=
  if s.bit (A.snapCtl c) 2 then
    let m := s.fieldN (A.snapCtl c) 3 12
    (numberFrom (fun i (g : List ByteRead) => (i, g)) 0 (chunks 4096 (bs.length / 4096 + 1) bs)).foldl (fun s g =>
      let x := pktData (s.mkPkt c 3 m 3) (va + 4096 * g.1) (g.2.map fun b => if b.poison then 0#8 else b.val) (packetMask g.2)
      s.sendTracked (snapHome c) id false x) s
  else
    let l := s.ctxPlace c va
    if l.writable then
      s.writeLocs (numberFrom (fun i (b : ByteRead) => (l.plus i, (⟨(l.plus i).addr, b.val, 0xFF#8, b.poison⟩ : Wr))) 0 bs)
    else s

/-- R391: what the copier finds in a granule written since the cut: its contents and poison at the cut or now, free. -/
def State.copyGran (s : State) (c : Nat) (e : Env) (l : Loc) : List ByteRead × State :=
  let now := (List.range 32).map fun i => s.readByte e (l.plus i)
  match (s.cx c).snap.torn.find? fun t => t.1 == granOf l.addr with
  | none => (now, s)
  | some t =>
    let (n, s1) := s.free 2
    (if n = 0 then t.2.1.map fun b => ⟨b, t.2.2, false⟩ else now, s1)

/-- R389: an accepted request, of this module or arrived, still has to write the part. -/
def State.partWriters (s : State) (a : Nat) : Bool :=
  let here (l : Loc) : Bool := l.addr / 0x200000 == a / 0x200000
  (List.range 48).any (fun r => (s.rg r).accepted.any fun q => (s.reqPlaces r q).2.any here)
    || s.heldPkts.any fun h => h.pkt.ptype != 1 && (h.locs.getD []).any here

/-- Where the destination of a context's snapshot begins. -/
def State.snapBase (s : State) (c : Nat) : Nat := s.fieldN (A.snapDest c) 21 31 * 0x200000

/-- R392: one 2 MiB part, granule by granule. -/
def State.copyPart (s : State) (c i : Nat) (e : Env) (l : Loc) : State :=
  let s0 := s.noteReads none e ((List.range 65536).map fun g => l.plus (32 * g))
  let (bs, s1) := (List.range 65536).foldl (fun (acc : List (List ByteRead) × State) g =>
    let (b, s') := acc.2.copyGran c e (l.plus (32 * g))
    (b :: acc.1, s')) ([], s0)
  s1.snapWrite c (i + 1) (s.snapBase c + partAt i) bs.reverse.flatten

/-- R393: the header, with COMPLETE. -/
def State.snapHead (s : State) (c complete : Nat) : State :=
  s.snapWrite c 0 (s.snapBase c) (cleanBytes (snapHeader c s.modNum complete (s.cx c).snap))

/-- R392, R393: a part is done: it pends no more. -/
def State.snapPartDone (s : State) (c i : Nat) (skipped : Bool) : State :=
  let va := nth 0 (s.cx c).snap.parts i
  let s1 := s.snapWrite c 0 (s.snapBase c + 0x1000 + 8 * i) (cleanBytes (natToBytes 8 (va + if skipped then 1 else 0)))
  let s2 := s1.modCx c fun x => { x with snap := { x.snap with
    pend := x.snap.pend.filter fun y => y.1 != i, missing := if skipped then i :: x.snap.missing else x.snap.missing } }
  (s2.setFld (A.snapStatus c) 3 20 (s2.fieldN (A.snapStatus c) 3 20 + 1)).bump A.snapSkipped (if skipped then 1 else 0)

/-- The copier's packets that await their completions. -/
def State.snapAwaits (s : State) (c : Nat) : Bool := s.sent.any fun x => x.region == snapHome c && !x.done

/-- R392: the parts in flight to a peer. -/
def State.flying (s : State) (c : Nat) : List Nat :=
  dedupNat ((s.sent.filter fun x => x.region == snapHome c && x.req != 0).map fun x => x.req - 1)

/-- R327: packets of the copier that were not answered by their bound are given up. -/
def State.snapForget (s : State) (c : Nat) : State :=
  let n := s.sent.countP fun x => x.region == snapHome c && !x.done
  { s.bump A.remoteTimeouts n with sent := s.sent.map fun x => if x.region == snapHome c then { x with done := true } else x }

/-- R392: parts whose packets have all been answered are copied. -/
def State.snapLanded (s : State) (c : Nat) : State :=
  let landed := (s.flying c).filter fun i => (s.sent.filter fun x => x.region == snapHome c && x.req == i + 1).all Sent.done
  landed.foldl (fun s i => { s with sent := s.sent.filter fun x => !(x.region == snapHome c && x.req == i + 1) }.snapPartDone c i false) s

/-- R393: once nothing is left to copy or to be answered, the header is rewritten with COMPLETE 1 and the snapshot ends. -/
def State.snapFinish (s : State) (c : Nat) : State :=
  if !(s.cx c).snap.pend.isEmpty || s.snapAwaits c then s
  else
    let s1 := { s with sent := s.sent.filter fun x => x.region != snapHome c }
    (s1.snapHead c 1).setFld (A.snapStatus c) 0 3 3

/-- R389, R392, R55, R57: the class 3 request of a part may be accepted: no earlier write is under way, at most four parts fly. -/
def State.partReady (s : State) (c i : Nat) (a : Option Nat) : Bool :=
  (s.flying c).length < 4 && !(match a with | some a => s.partWriters a | none => false)
    && s.bgReady ((s.ctxPlace c (nth 0 (s.cx c).snap.parts i)).partPages
        ++ (if s.bit (A.snapCtl c) 2 then [] else (s.ctxPlace c (s.snapBase c + partAt i)).partPages))

/-- R392, R393: the copier takes up a part, the header first; one whose source faults is skipped; one for a peer is done when its
packets have been answered. -/
def State.snapTake (s : State) (c i : Nat) (e : Env) : State :=
  let s1 := if s.fieldN (A.snapStatus c) 3 20 = 0 && (s.flying c).isEmpty then s.snapHead c 0 else s
  match s1.ctxPlace c (nth 0 (s.cx c).snap.parts i) with
  | .bad _ => s1.snapPartDone c i true
  | l => if s.bit (A.snapCtl c) 2 then s1.copyPart c i e l else (s1.copyPart c i e l).snapPartDone c i false

/-- SNAP_PART_COPY: what a peer has answered is copied, with `e.status` not 0 also what it has not by its bound (R327, log 53); then
the copier takes up the next part of a context, or ends the snapshot. -/
def State.snapPartCopy (s : State) (c : Nat) (e : Env) : State :=
  if s.fieldN (A.snapStatus c) 0 3 ≠ 2 then s
  else
    let peer := s.bit (A.snapCtl c) 2
    let s1 := ((if peer && e.status ≠ 0 then s.snapForget c else s).snapLanded c)
    let s2 :=
      match (s1.cx c).snap.pend.find? fun x => !(s1.flying c).contains x.1 with
      | none => s1
      | some (i, a) =>
        if peer && !s1.farReady (s.fieldN (A.snapCtl c) 3 12) then s1.startKex (s.fieldN (A.snapCtl c) 3 12)
        else if s1.partReady c i a then s1.snapTake c i e else s1
    s2.snapFinish c

end Sys2Proof.Machine
end

