-- ==== Sys2Proof/Machine/Images.lean ====
section
/-!
DEFINITION. Sys2Proof/Machine/Images.lean: the configuration flash and what it holds (R432 to R440), the maquette (R444 to R446),
firmware activation (R447, R448), staging (R449, R450, R452) and the header (R433, R451).
-/
namespace Sys2Proof.Machine

/-! ### Flash (R432, R440) -/

def flashHeader (i : Nat) : Nat := 0x10000 * i
def flashSet (i : Nat) : Nat := 0x30000 + 0x10000 * i
def flashChisel (i : Nat) : Nat := 0x50000 + 0x40000 * i
def flashLog (i : Nat) : Nat := 0xD0000 + 0x10000 * i
def flashSlot (i : Nat) : Nat := 0x100000 + 0x1800000 * i

def State.flashN (s : State) (o n : Nat) : Nat := bytesToNat (s.flashBytes o n)

/-- Program bytes of erased cells. -/
def State.program (s : State) (o : Nat) (bs : List Byte) : State :=
  { s with flash := (numberFrom (fun i b => (o + i, b)) 0 bs).foldl (fun m p => Sparse.set 0xFF#8 m p.1 p.2) s.flash }

def State.blank (s : State) (sector : Nat) : State :=
  { s with flash := Sparse.erase (fun a => sector * 0x10000 ≤ a && a < sector * 0x10000 + 0x10000) s.flash }

/-- Entry `j` of write-log sector `i`: used unless it is erased. -/
def State.logUsed (s : State) (i j : Nat) : Bool := s.flashN (flashLog i + 16 * j) 16 != 2 ^ 128 - 1

/-- R440: the log sector in use: one begun and not full, else the first. -/
def State.logSector (s : State) : Nat :=
  ((List.range 3).find? fun i => s.logUsed i 0 && !s.logUsed i 4095).getD 0

/-- R440: a sector's erase count: its last committed entry in the log sector in use. -/
def State.eraseCount (s : State) (sector : Nat) : Nat :=
  let i := s.logSector
  (List.range 4096).foldl (fun n j =>
    let e := s.flashN (flashLog i + 16 * j) 16
    if e != 2 ^ 128 - 1 && field e 0 32 == sector && field e 96 32 == 0 then field e 32 32 else n) 0

/-- R440: one entry of the write log. -/
def logEntry (sector count powerOns : Nat) : List Byte :=
  natToBytes 4 sector ++ natToBytes 4 count ++ natToBytes 4 powerOns ++ natToBytes 4 0

/-- R440: append an entry; a full sector hands over to the next, which begins with every sector's latest count. -/
def State.logAppend (s : State) (sector count : Nat) : State :=
  let i := s.logSector
  let j := ((List.range 4096).find? fun j => !s.logUsed i j).getD 4095
  let s1 := s.program (flashLog i + 16 * j) (logEntry sector count s.powerOns)
  if j < 4095 then s1
  else
    let n := (i + 1) % 3
    let sec := flashLog n / 0x10000
    let counts := (List.range 1024).map fun k => s1.eraseCount k + if k = sec then 1 else 0
    let s2 := (s1.blank sec).bump A.flashErases 1
    s2.program (flashLog n) (numberFrom (fun k c => logEntry k c s.powerOns) 0 counts).flatten

/-- R440: a sector is erased and the erase recorded. -/
def State.eraseSector (s : State) (sector : Nat) : State :=
  let n := s.eraseCount sector + 1
  ((s.blank sector).bump A.flashErases 1).logAppend sector n

/-- R440: the entries of `n` erases fill the log sector in use, so that the next one is erased as well. -/
def State.logFills (s : State) (n : Nat) : Bool :=
  match (List.range 4096).find? fun j => !s.logUsed s.logSector j with
  | some j => 4096 ≤ j + n
  | none => n != 0

/-- R440: erasing these sectors erases one at its wear limit, the write log's next one among them. -/
def State.worn (s : State) (sectors : List Nat) : Bool :=
  (sectors.any fun k => 100000 ≤ s.eraseCount k)
    || (s.logFills sectors.length && 100000 ≤ s.eraseCount (flashLog ((s.logSector + 1) % 3) / 0x10000))

/-- Sectors that `n` bytes from a sector boundary cover. -/
def sectorsOf (o n : Nat) : List Nat := (List.range (ceilDiv n 0x10000)).map fun i => o / 0x10000 + i

/-- Sectors erased, then programmed from a sector boundary. -/
def State.writeArea (s : State) (o : Nat) (bs : List Byte) : State :=
  ((sectorsOf o bs.length).foldl State.eraseSector s).program o bs

/-! ### Header (R433) -/

/-- A header copy: SEQ, BOOT_SLOT, BOOT_SET, FLASH_MIB. -/
structure Header where
  seq  : Nat
  slot : Nat
  set  : Nat
  mib  : Nat
  deriving DecidableEq, Repr

/-- R433: header copy `i`, where valid. -/
def State.headerAt (s : State) (i : Nat) : Option Header :=
  let o := flashHeader i
  let bs := s.flashBytes o 96
  let f (a n : Nat) : Nat := bytesToNat ((bs.drop a).take n)
  if f 0 4 = 0x4846534C ∧ f 4 2 = 1 ∧ f 6 2 = 0 ∧ f 18 2 = 0 ∧ f 24 8 = 0 ∧ (bs.drop 32).take 64 = shake256 (bs.take 32) then
    some ⟨f 8 8, f 16 1 % 2, f 17 1 % 2, f 20 4⟩
  else none

/-- R433: the valid copy with the larger SEQ, and its place. -/
def State.header (s : State) : Option (Nat × Header) :=
  match s.headerAt 0, s.headerAt 1 with
  | some a, some b => if a.seq < b.seq then some (1, b) else some (0, a)
  | some a, none => some (0, a)
  | none, some b => some (1, b)
  | none, none => none

/-- R433: bytes of a header copy. -/
def headerBytes (h : Header) : List Byte :=
  let b := natToBytes 4 0x4846534C ++ natToBytes 2 1 ++ natToBytes 2 0 ++ natToBytes 8 h.seq ++ natToBytes 1 h.slot ++ natToBytes 1 h.set
    ++ natToBytes 2 0 ++ natToBytes 4 h.mib ++ natToBytes 8 0
  b ++ shake256 b

/-- CFG_HDR_STATUS.ERROR (R454). -/
def State.hdrError (s : State) (e : Nat) : State := s.setFld A.hdrStatus 4 4 e

/-- R451: a header copy is written into the sector of the copy with the smaller SEQ. -/
def State.writeHeader (s : State) (slot set : Nat) : State :=
  match s.header with
  | none => s.hdrError 2
  | some (i, h) =>
    let o := flashHeader (1 - i)
    if s.worn [o / 0x10000] then s.hdrError 10
    else ((s.writeArea o (headerBytes ⟨h.seq + 1, slot, set, h.mib⟩)).setFld A.hdrStatus 0 1 slot).setFld A.hdrStatus 1 1 set

/-! ### Firmware slots (R434, R435) -/

/-- R435: error of a slot's bytes, 0 when it verifies; `at_ o n` gives `n` bytes from offset `o`. -/
def slotError (at_ : Nat → Nat → List Byte) (limit : Nat) : Nat :=
  let f (o n : Nat) : Nat := bytesToNat (at_ o n)
  let len := f 0x10 4
  let root := at_ 0x20 57
  let signer := at_ 0x60 57
  let ok1 := f 0 4 == 0x5746534C && f 4 2 == 1 && f 6 2 == 0 && f 0x14 12 == 0 && f 0x59 7 == 0 && f 0x99 7 == 0
    && f 0x112 14 == 0 && f 0x192 3694 == 0 && len ≤ 0x17FF000 && 0x1000 + len ≤ limit
  let name : List Byte := natToBytes 10 0x59454B2D57462D4E534C
  if !ok1 then 3
  else if shake256 root ≠ natToBytes 64 Sys2Proof.Config.rootDigest.toNat then 4
  else if !Sys2Proof.Config.ed448Verify root (shake256 (name ++ signer)) (at_ 0xA0 114) then 3
  else if !Sys2Proof.Config.ed448Verify signer (shake256 (at_ 0 0x20 ++ at_ 0x1000 len)) (at_ 0x120 114) then 3
  else 0

/-- R435: whether firmware slot `i` of the flash verifies: its error. -/
def State.slotCheck (s : State) (i : Nat) : Nat := slotError (fun o n => s.flashBytes (flashSlot i + o) n) 0x1800000

/-- R435: the image digest of a slot. -/
def State.imageDigest (s : State) (i : Nat) : List Byte :=
  let o := flashSlot i
  shake256 (s.flashBytes o 0x20 ++ s.flashBytes (o + 0x1000) (s.flashN (o + 0x10) 4))

/-! ### Configuration sets (R436 to R438) -/

/-- R438, R239: the image of a bound slot in a chisel area; none where a check fails. -/
def areaImage (area : Nat → Nat → List Byte) (limit slot : Nat) : Option (List Byte) :=
  let e := bytesToNat (area (8 * slot) 8)
  let o := field e 0 24
  let n := field e 24 16
  if o % 16 ≠ 0 ∨ o < 0x100 ∨ 4624 < n ∨ field e 40 24 ≠ 0 ∨ limit < o + n then none
  else
    let img := area o n
    match chiselParse img with
    | some _ => some img
    | none => none

/-- R437: a configuration set with its chisel area, or the error that rejects it. -/
def parseSet (bs : List Byte) (area : Nat → Nat → List Byte) (limit : Nat) : Except Nat CfgSet :=
  let f (o n : Nat) : Nat := bytesToNat ((bs.drop o).take n)
  let shares := (List.range 4).map fun i => f (0x18 + i) 1
  let ports := f 0x13 1
  let ok := f 0 4 == 0x5343534C && f 4 2 == 1 && f 6 2 == 0 && f 0xC 4 == 0xC0 && f 0x15 3 == 0 && f 0x29 7 == 0 && f 0x34 12 == 0
    && f 0x42 62 == 0 && f 0x10 1 ≤ 1 && f 0x11 1 ≤ 1 && field ports 6 2 == 0 && bitAt ports 4 && field (f 0x14 1) 3 5 == 0
    && field (f 0x14 1) 1 2 != 3 && sumNat shares ≤ 64 && 600 ≤ f 0x1C 2 && f 0x1C 2 ≤ 1600 && 10 ≤ f 0x1E 2 && f 0x1E 2 ≤ 10000
    && f 0x28 1 ≤ 1 && 100 ≤ f 0x40 2 && (bs.drop 0x80).take 64 == shake256 (bs.take 0x80)
  if !ok then .error 5
  else
    let bind := f 0x30 4
    let images := (setBits 32 bind).map fun i => (i, areaImage area limit i)
    if images.any fun x => x.2.isNone then .error 6
    else .ok
      { tag := f 8 4, dataProt := f 0x10 1 == 1, capacity := f 0x11 1 == 1, ekbEn := f 0x12 1, cxlEn := field ports 0 4, mlmEn := field ports 4 2
        span := field (f 0x14 1) 0 1, gran := field (f 0x14 1) 1 2, shares, cap := f 0x1C 2, grace := f 0x1E 2, gains := f 0x20 5
        thresh := f 0x25 1, holdoff := f 0x26 2, hltEn := f 0x28 1 == 1, bind, wdog := f 0x40 2, digest := (bs.drop 0x80).take 64
        images := images.filterMap fun x => x.2.map fun b => (x.1, b) }

/-- Configuration set `i` of the flash. -/
def State.setAt (s : State) (i : Nat) : Except Nat CfgSet :=
  parseSet (s.flashBytes (flashSet i) 0xC0) (fun o n => s.flashBytes (flashChisel i + o) n) 0x40000

/-! ### Places that are refused (R446, R447, R452) -/

def State.refuseCfg (s : State) : State := s.bump A.cfgRefused 1

/-- ACTIVE_SET and RUNNING_SLOT (R454). -/
def State.activeSet (s : State) : Nat := s.fieldN A.bootStatus 13 1
def State.runningSlot (s : State) : Nat := s.fieldN A.bootStatus 12 1

def State.maqState (s : State) : Nat := s.fieldN A.maqStatus 0 3

/-- R446: LOADING or SWAPPING. -/
def State.maqBusy (s : State) : Bool := s.maqState == 1 || s.maqState == 4

def State.staging (s : State) : Bool := s.bit A.stageStatus 0

/-- Whether Ralrad runs in full: no meaning of a request to it is taken before READY, after a halt, or in recovery (R441, R442,
R479). -/
def State.up (s : State) : Bool := s.boot == .ready

/-- The registers live: neither reset nor trip holds them. -/
def State.alive (s : State) : Bool :=
  match s.boot with | .off | .porst | .held | .tripped => false | _ => true

/-- R442: after errors 5 to 8 Ralrad still answers the staging mailbox and CFG_BOOT_SEL. -/
def State.halfUp (s : State) : Bool := s.boot == .ready || (s.boot == .halted && 5 ≤ s.fieldN A.bootStatus 8 4)

/-! ### Maquette (R444 to R446) -/

/-- R444, R446, R447, R452: LOAD. -/
def State.maqLoad (s : State) : State :=
  if !s.up then s
  else if s.activating || s.maqBusy || (s.staging && s.bit A.stageCtrl 25) then s.refuseCfg
  else { s.setReg A.maqStatus 1 with maq := none }

/-- MAQ_LOAD_DONE: the set that is not active is read, checked, and held. -/
def State.maqLoadDone (s : State) : State :=
  if s.maqState ≠ 1 then s
  else
    match s.setAt (1 - s.activeSet) with
    | .ok x => { s.setReg A.maqStatus 2 with maq := some x }
    | .error e => s.setReg A.maqStatus (BitVec.ofNat 64 (3 + 16 * e))

/-- R445, R446, R447: SWAP with NOW. -/
def State.maqSwap (s : State) (now : Bool) : State :=
  if !s.up then s
  else if s.activating || s.maqState != 2 then s.refuseCfg
  else (s.setB A.maqCtrl 2 now).setFld A.maqStatus 0 3 4

/-- R444, R446, R447: DISCARD. -/
def State.maqDiscard (s : State) : State :=
  if !s.up then s
  else if s.activating || s.maqBusy then s.refuseCfg
  else if s.maqState = 2 ∨ s.maqState = 3 then { s.setReg A.maqStatus 0 with maq := none }
  else s

/-- SWAP_BEAT: with NOW 1 or no region owned, the swap; with NOW 0, the next realigning release that passes the module top
takes it along (R445). -/
def State.swapBeat (s : State) : State :=
  if !s.swapping then s
  else if s.bit A.maqCtrl 2 || !s.anyOwned then s.swapNow
  else
    match s.rels.find? fun x => x.f.realign && (match x.node with | .top _ => true | _ => false) with
    | some x => s.passRelease x
    | none => s

/-! ### Firmware activation (R447, R448) -/

def State.setActivating (s : State) (b : Bool) : State := (s.setB A.secStatus 3 b).setB A.fwStatus 0 b

/-- R447, R446, R452: ACTIVATE; a second one while an activation runs changes nothing (log 54). -/
def State.fwActivate (s : State) (persist : Bool) : State :=
  let s0 := s.setB A.fwCtrl 1 persist
  if !s.up then s
  else if s.activating then s0
  else if s.staging then (s0.refuseCfg).setFld A.fwStatus 4 4 9
  else if s.maqBusy then s0.refuseCfg
  else
    let e := s.slotCheck (1 - s.runningSlot)
    if e ≠ 0 then s0.setFld A.fwStatus 4 4 e
    else { s0.setActivating true with firm := { s.firm with persist, prior := false } }

/-- R472, R474: the n-heartbeat histories start afresh. -/
def State.dropHistories (s : State) : State := (List.range 16).foldl (fun s c => s.modCx c fun x => { x with hist := [] }) s

/-- FW_COMMIT: the running image commits its record, and SPDM transcripts begun before are stale (R424); the new one becomes RUNNING_SLOT, the prior one stays it. -/
def State.fwCommit (s : State) : State :=
  if !s.activating then s
  else
    let s0 := { s with spdm := { s.spdm with stale := s.spdm.version } }
    let s1 := (s0.setActivating false).commitRecord.dropHistories
    if s.firm.prior then s1
    else
      let n := 1 - s.runningSlot
      let s2 := s1.setFld A.bootStatus 12 1 n
      if s.firm.persist then s2.writeHeader n (s2.fieldN A.hdrStatus 1 1) else s2

/-- FW_ACTIVATE_TIMEOUT: the prior slot runs again (R448). -/
def State.fwTimeout (s : State) : State :=
  if s.activating && !s.firm.prior then { s.setB A.fwStatus 1 true with firm := { s.firm with prior := true } } else s

/-! ### Staging (R449, R450) -/

/-- R449, R450: bytes of a staged image; none where they cannot be read: poison, an uncorrectable error, or a stack that serves no request (R478). -/
def State.stageBytes (s : State) (e : Env) (a n : Nat) : Option (List Byte) :=
  if isHbm a && isHbm (a + n - 1) then
    let (bs, bad) := s.readPlain a n
    if bad || (List.range (ceilDiv n 32)).any (fun i => e.bad.contains (granOf a + 32 * i) || !s.stackUp (granOf a + 32 * i)) then none else some bs
  else if isMlm a && isMlm (a + n - 1) then
    if s.outOk a && s.outOk (a + n - 1) && !e.bad.any (fun g => a ≤ g + 31 && g < a + n) then some ((List.range n).map fun i => winByte e.win (a + i)) else none
  else none

/-- The flash offset and sectors that a staging writes: firmware to the slot that does not run, a set to the one not active. -/
def State.stageAreas (s : State) (target len : Nat) : List Nat :=
  if target = 0 then sectorsOf (flashSlot (1 - s.runningSlot)) len
  else sectorsOf (flashSet (1 - s.activeSet)) 0xC0 ++ sectorsOf (flashChisel (1 - s.activeSet)) (len - 0x1000)

/-- R449, R450: the error of a staging, 0 when it may run; a set being loaded or swapped turns away a staging of a configuration
(R446, log 86). -/
def State.stageError (s : State) (e : Env) (len target : Nat) : Nat :=
  let src := s.fieldN A.stageSrc 12 40 * 4096
  let inside := (isHbm src && isHbm (src + len - 1)) || (isMlm src && isMlm (src + len - 1))
  let sized := if target = 0 then 0 < len && len ≤ 0x1800000 else 0x1000 ≤ len && len ≤ 0x41000
  if s.staging || (s.maqBusy && target == 1) || s.activating then 9
  else if !sized || !inside then 11
  else
    match s.stageBytes e src len with
    | none => 12
    | some bs =>
      let at_ (o n : Nat) : List Byte := (bs.drop o).take n
      let c := if target = 0 then slotError at_ len
        else match parseSet (at_ 0 0xC0) (fun o n => at_ (0x1000 + o) n) (len - 0x1000) with | .ok _ => 0 | .error x => x
      if c ≠ 0 then c else if s.worn (s.stageAreas target len) then 10 else 0

/-- R449, R450: GO. -/
def State.stageGo (s : State) (len target : Nat) (e : Env) : State :=
  if !s.halfUp then s
  else
    let err := s.stageError e len target
    let s0 := if s.staging then s else (s.setFld A.stageCtrl 0 25 len).setFld A.stageCtrl 25 1 target
    if err ≠ 0 then (s0.setFld A.stageStatus 4 4 err).refuseCfg
    else
      match s.stageBytes e (s.fieldN A.stageSrc 12 40 * 4096) len with
      | none => s0
      | some bs =>
        let where_ := if target = 0 then 1 - s.runningSlot else 2 + (1 - s.activeSet)
        { s0.setB A.stageStatus 0 true with firm := { s.firm with stage := some (where_, bs) } }

/-- What a staging writes, sector by sector: (flash offset, bytes). -/
def stageWrites (where_ : Nat) (bs : List Byte) : List (Nat × List Byte) :=
  if where_ < 2 then [(flashSlot where_, bs)]
  else [(flashSet (where_ - 2), bs.take 0xC0), (flashChisel (where_ - 2), bs.drop 0x1000)]

/-- STAGE_DONE: the target is written; BUSY falls and DONE is set. -/
def State.stageDone (s : State) : State :=
  match s.firm.stage with
  | none => s
  | some (w, bs) =>
    let s1 := (stageWrites w bs).foldl (fun s x => s.writeArea x.1 x.2) s
    { (s1.setB A.stageStatus 0 false).setB A.stageStatus 1 true with firm := { s1.firm with stage := none } }

/-- R450: a staging that a reset cuts short may have begun to erase its target (log 55). -/
def State.stageCut (s : State) : State :=
  match s.firm.stage with
  | none => s
  | some (w, bs) =>
    let (n, s1) := s.free 2
    let s2 := if n = 0 then s1 else ((stageWrites w bs).take 1).foldl (fun s x => s.eraseSector (x.1 / 0x10000)) s1
    { s2 with firm := { s2.firm with stage := none } }

/-! ### Header selection (R451, R447, R452) -/

/-- CFG_BOOT_SEL with GO 1. -/
def State.bootSel (s : State) (slot set : Nat) : State :=
  if !s.halfUp then s
  else if s.activating then s.refuseCfg
  else if s.staging then s.refuseCfg.hdrError 9
  else if s.slotCheck slot ≠ 0 then s.hdrError 3
  else
    match s.setAt set with
    | .error _ => s.hdrError 5
    | .ok _ => s.writeHeader slot set

end Sys2Proof.Machine
end

