-- ==== Sys2Proof/Machine/Mail.lean ====
section
/-!
DEFINITION. Sys2Proof/Machine/Mail.lean: the mailbox between Ralrad and the companion (R502 to R505).
-/
namespace Sys2Proof.Machine

/-! ### Outgoing ring (R504, R505) -/

def State.mboxHead (s : State) : Nat := s.fieldN A.mboxHead 0 32
def State.mboxTailN (s : State) : Nat := s.fieldN A.mboxTail 0 32
def State.mboxEn (s : State) : Bool := s.bit A.mboxOutCfg 4

/-- Slots of the ring: 2^SLOTS_LOG2. -/
def State.mboxSlots (s : State) : Nat := 2 ^ s.fieldN A.mboxOutCfg 0 4

/-- Messages not consumed for a given TAIL. -/
def State.mboxUsed (s : State) (tail : Nat) : Nat := (s.mboxHead + 2 ^ 32 - tail % 2 ^ 32) % 2 ^ 32

def State.mboxFullNow (s : State) : Bool := s.mboxSlots ≤ s.mboxUsed s.mboxTailN

/-- R504: where slot HEAD mod 2^SLOTS_LOG2 lies. -/
def State.mboxSlotAt (s : State) : Nat := s.fieldN A.mboxOutBase 12 40 * 4096 + 2048 * (s.mboxHead % s.mboxSlots)

/-- The slot may be written: it lies in the companion window, whose port is up. -/
def State.mboxReaches (s : State) : Bool := isMlm s.mboxSlotAt && s.outOk s.mboxSlotAt

/-- Ralrad writes bytes to the companion's memory (R497), class 1. -/
def State.tellCompanion (s : State) (a : Nat) (bs : List Byte) : State :=
  if isMlm a && s.outOk a then s.sendMlm (s.mlmPort a) (wrPacket 3 (s.mlmAddr a) 1 s.dataProt bs 0) else s

/-- R502: a message with its header. -/
def mboxMessage (ty seq : Nat) (body : List Byte) : List Byte :=
  natToBytes 2 ty ++ natToBytes 2 body.length ++ natToBytes 4 seq ++ natToBytes 8 0 ++ body

/-- R502, R504: one message into the ring: the slot, HEAD, the notify word. -/
def State.mboxPut (s : State) (ty : Nat) (body : List Byte) : State :=
  let s1 := s.tellCompanion s.mboxSlotAt (mboxMessage ty s.mboxSeq body)
  let h := (s.mboxHead + 1) % 2 ^ 32
  let s2 := { s1 with mboxSeq := (s1.mboxSeq + 1) % 2 ^ 32 }.setReg A.mboxHead (BitVec.ofNat 64 h)
  let n := s2.fieldN A.mboxNotify 3 49 * 8
  if n = 0 then s2 else s2.tellCompanion n (natToBytes 8 h)

/-- R505: a heartbeat that falls due. -/
def State.mboxHeartbeat (s : State) (body : List Byte) : State :=
  if !s.mboxEn || s.mboxFullNow then s.bump A.mboxHbDrop 1
  else if s.mboxReaches then s.mboxPut 0 body
  else s

/-- R504, R505: a message other than a heartbeat: written, or held until a slot frees. -/
def State.mboxSend (s : State) (body : List Byte) : State :=
  if s.mboxEn && s.mboxFullNow then { s.bump A.mboxFull 1 with heldMsgs := s.heldMsgs ++ [body] }
  else if s.mboxEn && s.mboxReaches && s.heldMsgs.isEmpty then s.mboxPut 1 body
  else { s with heldMsgs := s.heldMsgs ++ [body] }

/-- R505: held messages go out while slots are free. -/
def State.mboxDrain : Nat → State → State
  | 0, s => s
  | n + 1, s =>
    match s.heldMsgs with
    | [] => s
    | m :: ms => if s.mboxEn && !s.mboxFullNow && s.mboxReaches then State.mboxDrain n ({ s with heldMsgs := ms }.mboxPut 1 m) else s

/-- R504: a write of CFG_MBOX_OUT_TAIL, ignored where it would show more messages than slots. -/
def State.mboxTail (s : State) (tail : Nat) : State :=
  let t := tail % 2 ^ 32
  if s.mboxSlots < s.mboxUsed t then s
  else let s1 := s.setReg A.mboxTail (BitVec.ofNat 64 t); State.mboxDrain s1.heldMsgs.length s1

/-! ### Inbox (R503) -/

/-- The first `n` bytes of the inbox. -/
def State.inboxBytes (s : State) (n : Nat) : List Byte := (List.range n).map fun i => Sparse.get 0#8 s.inbox i

/-- R503: GO with LEN. -/
def State.mboxInGo (s : State) (len : Nat) : State :=
  if !s.up then s
  else
    let s0 := s.setFld A.mboxInCtrl 0 13 len
    let ty := bytesToNat (s.inboxBytes 2)
    let body := bytesToNat ((s.inboxBytes 4).drop 2)
    if s.bit A.mboxInStatus 0 || len < 16 || 4096 < len || ty != 1 || body + 16 != len then s0.setB A.mboxInStatus 2 true
    else { s0.setB A.mboxInStatus 0 true with taking := some (s.inboxBytes len) }

/-- MBOX_IN_TAKEN: Ralrad has taken the message. -/
def State.mboxInTaken (s : State) : State :=
  match s.taking with
  | none => s
  | some _ => { (s.setB A.mboxInStatus 0 false).setB A.mboxInStatus 1 true with taking := none, spdm := { s.spdm with mail := true } }

end Sys2Proof.Machine
end

