-- ==== Sys2Proof/Machine/Health.lean ====
section
/-!
DEFINITION. Sys2Proof/Machine/Health.lean: pace and the governor (R38 to R45), telemetry (R463, R487), the patina monitor (R460,
R461), the health monitor (R383, R384), heartbeat and watchdog (R471 to R474), scrubs (R265, R457), recalibration (R458),
self-test slices (R464 to R469), analogue checks (R470), device events (R270), the 1 ms sample (R428, R518).
-/
namespace Sys2Proof.Machine

/-! ### Pace (R38, R45) -/

/-- A cluster in service (R22, R23). -/
def State.inService (s : State) (r k : Nat) : Bool := s.bit (A.regionShape r) 4 && !(s.cl r k).gated && !(s.cl r k).retired

/-- Clusters of a die in service, as (region, cluster). -/
def State.dieClusters (s : State) (d : Nat) : List (Nat × Nat) :=
  (List.range 12).flatMap fun i => ((List.range 9).filter fun k => s.inService (12 * d + i) k).map fun k => (12 * d + i, k)

/-- Guarded paces measured so far in a die; a cluster not measured yet has none (log 58). -/
def State.diePaces (s : State) (d : Nat) : List Nat :=
  ((s.dieClusters d).map fun p => s.regN (A.pace p.1 p.2)).filter fun x => x != 0

def minOf : List Nat → Option Nat
  | [] => none
  | x :: xs => match minOf xs with | none => some x | some y => some (min x y)

/-- R45: PWR_DIE_PACE_d. -/
def State.showDie (s : State) (d : Nat) : State :=
  let ps := s.diePaces d
  s.setReg (A.diePace d) (BitVec.ofNat 64 ((minOf ps).getD 0 % 65536 + (ps.foldl max 0 % 65536) * 65536 + (nth 0 s.rails d % 4096) * 2 ^ 32))

/-- PACE_MEASUREMENT: a window of 1,024 beats gives a pace in Mbeat/s; the guard is subtracted (R38). -/
def State.paceMeasured (s : State) (r k pace : Nat) : State :=
  if s.up && s.inService r k then
    let guard := s.fieldN (A.hltCluster (9 * r + k)) 16 8
    (s.setReg (A.pace r k) (BitVec.ofNat 64 (min (pace - guard) 65535))).showDie (dieOf r)
  else s

/-! ### The governor (R39 to R44) -/

/-- R42: one step down, counted. -/
def State.admLower (s : State) : State := if s.admDown < 24 then { s.bump A.admSteps 1 with admDown := s.admDown + 1 } else s

/-- R44: STATE, ADM_CLASS and ADM_LEVEL. -/
def State.showGov (s : State) : State :=
  let n := s.admDown
  let state := if n ≠ 0 then 3 else if s.rails.any fun v => v < 720 then 1 else if s.rails.any fun v => 720 < v then 2 else 0
  let cls := if n = 0 then 0 else 3 - (n - 1) / 8
  let level := if n = 0 then 0 else 7 - (n - 1) % 8
  s.setFld A.govStatus 0 9 (state + cls * 8 + level * 64)

/-- R39: setpoints of the dies that meet a condition move. -/
def State.moveRails (s : State) (which : Nat → Bool) (f : Nat → Nat) : State :=
  { s with rails := numberFrom (fun d v => if which d then f v else v) 0 s.rails }

/-- R41: FLOOR_LOST above 105 °C or with the input outside 54 to 63 V. -/
def State.floorCheck (s : State) (x : Readings) : State :=
  if x.temps.any (fun t => 105 < t) || x.vin < 54000 || 63000 < x.vin then s.setB A.govStatus 9 true else s

/-- R39: the governor's one action of an interval. -/
def State.governorAct (s : State) (power : Nat) : State :=
  let cap := s.fieldN A.govCtrl 0 11
  let pace (d : Nat) : Option Nat := minOf (s.diePaces d)
  let low (d : Nat) : Bool := match pace d with | some p => p < 1120 | none => false
  let high (d : Nat) : Bool := match pace d with | some p => 1120 < p | none => false
  let rail (d : Nat) : Nat := nth 0 s.rails d
  let dies := List.range 4
  let under := power * 100 < 95 * cap
  if dies.any fun d => low d && rail d == 800 then s.admLower
  else if power ≤ cap ∧ dies.any (fun d => low d && rail d < 800) then
    s.moveRails (fun d => low d && rail d < 800) fun v => min 800 (v + 5)
  else if cap < power ∧ dies.any (fun d => high d && 640 < rail d) then
    s.moveRails (fun d => high d && 640 < rail d) fun v => max 640 (v - 5)
  else if cap < power ∧ dies.all (fun d => !high d || rail d == 640) then s.admLower
  else if under ∧ s.admDown ≠ 0 then { s with admDown := s.admDown - 1 }
  else if under ∧ dies.any (fun d => rail d < 720) then s.moveRails (fun d => rail d < 720) fun v => min 720 (v + 5)
  else s

/-- R487: PEAK_W. -/
def State.notePeak (s : State) (w : Nat) : State := s.setReg A.pwrPeak (BitVec.ofNat 64 (max (s.regN A.pwrPeak) (min w 4095)))

/-- GOVERNOR_INTERVAL. -/
def State.governor (s : State) (x : Readings) : State :=
  if !s.up then s
  else
    let s1 := ((s.floorCheck x).governorAct x.power).showGov
    (List.range 4).foldl State.showDie (s1.notePeak x.peak)

/-! ### Telemetry (R463, R487) -/

/-- R463: what sensors 1 to 15 read for the board management controller; R428 rounds power in data-protected mode. -/
def State.sensorsNow (s : State) (x : Readings) : List Int :=
  let w := min x.power 4095
  [((if s.dataProt then (w + 2) / 5 * 5 else w : Nat) : Int), (min x.vin 65535 : Nat)] ++ (List.range 5).map (fun i => (x.temps[i]?).getD 0)
    ++ (List.range 4).map (fun d => (s.fieldN (A.diePace d) 0 16 : Int))
    ++ [(s.fieldN A.risk 0 8 : Int), (s.fieldN A.shape 32 16 : Int), (s.fieldN A.hltHeartbeat 32 3 : Int), (s.regN A.recoveries : Int)]

/-- TELEMETRY_UPDATE: the sensors and the power registers are updated. -/
def State.telemetry (s0 : State) (x : Readings) : State :=
  let s : State := { s0 with sensors := s0.sensorsNow x }
  if !s0.up then s0
  else
    let j := sumNat (numberFrom (fun i t => toBits 8 t * 2 ^ (8 * i)) 0 (x.temps.take 5))
    let s1 := s.setReg A.pwrIn (BitVec.ofNat 64 (min x.power 4095 + min x.vin 65535 * 2 ^ 12 + min x.iin 65535 * 2 ^ 28))
    let s2 := s1.setReg A.pwrTemp (BitVec.ofNat 64 (j + toBits 8 x.hbm * 2 ^ 40))
    (s2.bump A.energy x.energy).notePeak x.peak

/-! ### Self-test flags (R461, R468) -/

/-- A flag set in HLT_CLUSTER_p: a PLDM event, and with AUTO_RETIRE Ralrad acts at once (R463, R468). -/
def State.flagSet (s : State) (r k : Nat) : State :=
  let s1 := s.send (.pldm 4 (9 * r + k))
  if s1.bit A.bistCtrl 0 then s1.actOnFlag r k else s1

/-- PATINA_MONITOR: the guard never falls; at the limit the cluster is flagged (R460, R461). -/
def State.patina (s : State) (r k guard : Nat) : State :=
  if s.up && s.inService r k then
    let p := 9 * r + k
    let g := max (s.fieldN (A.hltCluster p) 16 8) (min guard 255)
    let s1 := s.setFld (A.hltCluster p) 16 8 g
    if s1.fieldN A.bistCtrl 1 8 ≤ g && !s1.bit (A.hltCluster p) 24 then (s1.setB (A.hltCluster p) 24 true).flagSet r k else s1
  else s

/-- R468, R481: HLT_RETIRE with GO: Ralrad acts where a flag of the cluster is set. -/
def State.retireReq (s : State) (r k : Nat) : State :=
  let p := 9 * r + k
  let flagged := s.fieldN (A.hltCluster p) 0 8 != 0 || s.bit (A.hltCluster p) 24 || s.regN (A.colFail p) != 0
  if s.up && r < 48 && k < 9 && flagged && !(s.cl r k).retired then s.actOnFlag r k else s

/-! ### The health monitor (R383, R384) -/

def scoreOf (x num den : Nat) : Nat := min 255 (x * num / den)

/-- R383: the tallies `n` ticks back; all 0 before the first tick, so that every event within the time counts. -/
def Health.back (h : Health) (n : Nat) : Tally := (h.hist[n - 1]?).getD Tally.zero

/-- R383: the hottest junction in PWR_TEMP. -/
def State.hottest (s : State) : Int :=
  ((List.range 5).map fun i => signed 8 (s.fieldN A.pwrTemp (8 * i) 8)).foldl max (-128)

/-- R383: the lowest MIN_PACE over dies that report one. -/
def State.lowestPace (s : State) : Option Nat := minOf (((List.range 4).map fun d => s.fieldN (A.diePace d) 0 16).filter fun x => x != 0)

/-- R383: five scores. -/
def State.scores (s : State) : List Nat :=
  let h := s.health
  let g (i : Nat) : Nat := s.fieldN A.riskGain (8 * i) 8
  let t := h.tally
  let s1 := h.back 100
  let s60 := h.back 6000
  let margin := (match s.lowestPace with | some p => (max 0 (40 - ((p : Int) - 1100))).toNat | none => 0)
    + 4 * (max 0 (10 - (105 - s.hottest))).toNat
  let guards := (List.range 48).flatMap fun r => ((List.range 9).filter fun k => s.inService r k).map fun k => s.fieldN (A.hltCluster (9 * r + k)) 16 8
  [scoreOf (16 * (t.ce - s1.ce) + (t.odecc - s1.odecc)) (g 0) 256, scoreOf (64 * (t.ue - s60.ue)) (g 1) 16,
   scoreOf ((t.retry - s1.retry) + 32768 * (t.downs - s60.downs)) (g 2) 16384, scoreOf margin (g 3) 16, scoreOf (guards.foldl max 0) (g 4) 16]

/-- R384: a trigger arms every AUTO context. -/
def State.trigger (s : State) (e : Env) : State :=
  let s1 := ((List.range 16).filter fun c => s.bit (A.snapCtl c) 0).foldl (fun s c => s.snapArm c e) s
  { (s1.bump A.snapTriggers 1).send (.pldm 3 (s.fieldN A.risk 0 8)) with health := { s1.health with armed := false, since := some 0 } }

/-- HEALTH_MONITOR_TICK: scores, risk, trigger, rearming. -/
def State.healthTick (s : State) (e : Env) : State :=
  if !s.up || s.activating then s
  else
    let sc := s.scores
    let risk := min 255 (sumNat sc)
    let h := s.health
    let since := h.since.map fun n => n + 1
    let s1 : State := { s with health := { h with hist := (h.tally :: h.hist).take 6001, since } }.setReg A.risk
      (BitVec.ofNat 64 (risk + sumNat (numberFrom (fun i x => x * 2 ^ (8 * (i + 1))) 0 sc)))
    let thresh := s1.fieldN A.snapCtrl 0 8
    let ready : Bool := match since with | some n => 100 * s1.fieldN A.snapCtrl 8 16 ≤ n | none => true
    if thresh ≤ risk ∧ s1.bit A.snapCtrl 24 ∧ h.armed ∧ ready then s1.trigger e
    else if !h.armed && risk + 16 < thresh then { s1 with health := { s1.health with armed := true } }
    else s1

/-! ### Heartbeat and watchdog (R471 to R474) -/

/-- R129: STATE of a queue. A training queue reads 3 from the switch to its return, while its evaluation stream runs to its
stop as well; an evaluation queue without one reads 0 once stopped (DESIGN CHOICE, log 32). -/
def Queue.stateCode (q : Queue) : Nat :=
  match q.st with
  | .idle => 0
  | .starting | .issuing | .ending => 1
  | .waiting => 2
  | .held => 3
  | .fetching => if q.train then 3 else 1
  | .stopped => if q.train then 3 else 0

/-- Clusters of a context. -/
def State.clustersOf (s : State) (c : Nat) : List (Nat × Nat) :=
  (s.regionsOf c).flatMap fun r => (List.range 9).map fun k => (r, k)

/-- R472: a context's sample: the sum of retired commands, and whether some queue is in STATE 1, 2 or 3. -/
def State.progress (s : State) (c : Nat) : Nat × Bool :=
  let cs := s.clustersOf c
  (sumNat (cs.map fun p => sumNat ((List.range 4).map fun q => s.regN (A.qRetired p.1 p.2 q))),
   cs.any fun p => (s.cl p.1 p.2).queues.any fun q => q.stateCode != 0)

/-- R472: stalled now, with samples newest first. -/
def stalledBy (n : Nat) (hist : List (Nat × Bool)) : Bool :=
  match hist[0]?, hist[n]? with
  | some a, some b => (hist.take (n + 1)).all (fun x => x.2) && a.1 == b.1
  | _, _ => false

/-- R471: the record of a heartbeat. -/
def beatRecord (seq state error stalled risk : Nat) : List Byte :=
  natToBytes 4 seq ++ natToBytes 1 state ++ natToBytes 1 error ++ natToBytes 2 stalled ++ natToBytes 1 risk ++ natToBytes 7 0

/-- R471: one heartbeat leaves by the mailbox and to the board management controller. -/
def State.sendBeat (s : State) (state stalled : Nat) : State :=
  let seq := s.wdog.sent % 2 ^ 32
  let rec_ := beatRecord seq state (s.fieldN A.bootStatus 8 4) stalled (s.fieldN A.risk 0 8)
  let changed := s.fieldN A.hltHeartbeat 32 3 != state
  let s1 := ({ s with wdog := { s.wdog with sent := s.wdog.sent + 1 } }.setReg A.hltHeartbeat (BitVec.ofNat 64 (seq + state * 2 ^ 32))).setFld
    A.wdogStalled 0 16 stalled
  let s2 := (if changed then s1.send (.pldm 5 state) else s1).send (.pldm 6 (bytesToNat rec_))
  s2.mboxHeartbeat rec_

/-- R472: every context is sampled; the stalled ones as a mask. -/
def State.sampleProgress (s : State) : State × Nat :=
  let n := ceilDiv s.active.wdog 100
  let s1 := (List.range 16).foldl (fun s c => s.modCx c fun x => { x with hist := ((s.progress c) :: x.hist).take (n + 1) }) s
  (s1, sumNat ((List.range 16).map fun c => if stalledBy n (s1.cx c).hist then 2 ^ c else 0))

/-- R473: the watchdog fires. -/
def State.watchdogFire (s : State) (stalled : Nat) : State :=
  ({ (s.bump A.wdogFires 1).setB A.wdogStalled 16 true with wdog := { s.wdog with fired := 1 } }).sendBeat 2 stalled

/-- HEARTBEAT: R471 to R474; none while an activation runs or once it has stopped; a halted module reports NOT_READY. -/
def State.heartbeat (s : State) : State :=
  if s.boot == .halted && s.halfUp then s.sendBeat 1 0
  else if !s.up || s.activating || s.wdog.stopped then s
  else
    let (s1, st) := s.sampleProgress
    let w := s1.wdog
    if w.fired = 0 then (if st = 0 then s1.sendBeat 0 0 else s1.watchdogFire st)
    else if 3 ≤ w.fired then { s1 with wdog := { w with stopped := true } }
    else if st = 0 then { s1 with wdog := { w with fired := 0 } }.sendBeat 0 0
    else { s1 with wdog := { w with fired := w.fired + 1 } }.sendBeat 2 st

/-- R474, R447: ACTIVATE, announced by a heartbeat where it goes ahead, unless the heartbeat has stopped (R473). -/
def State.activate (s : State) (persist : Bool) : State :=
  let s1 := s.fwActivate persist
  if !s.activating && s1.activating && !s.wdog.stopped then (s.sendBeat 3 0).fwActivate persist else s1

/-! ### Scrubs and recalibration (R265, R457, R458) -/

/-- Key of a bank's scrub pointer: banks 0 to 31 of a cluster's scratchpad, 32 to 47 the region buffer's. -/
def scrubKey (r k bank : Nat) : Nat := (10 * r + (if bank < 32 then k else 9)) * 64 + bank

/-- R457: passes that the region buffer of region 0 has completed. -/
def State.rbPasses (s : State) : Nat :=
  (minOf ((List.range 16).map fun b => Sparse.get 0 s.scrubLine (scrubKey 0 0 (32 + b)) / 8192)).getD 0

/-- Accesses of the scrub wait under this home; nothing waits for them. -/
def scrubHome : Nat := 49

/-- R145, R249, R457: the line at which the scrub of a bank stands, in ascending order, as a local address. -/
def State.scrubLineAt (s : State) (r k bank : Nat) : Nat :=
  let n := Sparse.get 0 s.scrubLine (scrubKey r k bank)
  if bank < 32 then spAddr r k ((n % 1024 * 32 + bank) * 128) else rbAddr r ((n % 8192 * 16 + (bank - 32)) * 128)

/-- SRAM_SCRUB_READ: the next line of a bank is read, by an untimed access; its errors are counted where it lies (R251, R457). -/
def State.sramScrub (s : State) (r k bank : Nat) (e : Env) : State :=
  let c := s.cl r k
  let ok := s.up && !s.resetting r && (32 ≤ bank || (!c.gated && !c.retired && c.slices.running.isNone))
  if !ok then s
  else
    let l := Loc.chip (s.scrubLineAt r k bank)
    let s1 := (s.queueUntimed scrubHome bank [l]).noteChip e [l]
    let key := scrubKey r k bank
    let s2 := { s1 with scrubLine := Sparse.set 0 s1.scrubLine key (Sparse.get 0 s1.scrubLine key + 1) }
    s2.bump A.scrubPasses (s2.rbPasses - s1.rbPasses)

/-- Granules of one stack: 48 GiB. -/
def stackGranules : Nat := 1610612736

/-- R261, R265: the granule that the patrol of a stack visits next, in ascending order within the stack. -/
def State.patrolAt (s : State) (stack : Nat) : Nat :=
  stackAddr (s.fieldN A.interleave 0 1) (s.fieldN A.interleave 1 2) stack (32 * Sparse.get 0 s.patrol stack)

/-- R265: what the patrol finds at a granule: an error corrected, or one that cannot be. -/
def State.patrolFind (s : State) (stack a : Nat) (e : Env) : State :=
  let s1 := if e.ce.contains a then (s.bump (A.hbmCe stack) 1).tallyCe 1 else s
  if e.bad.contains a then
    (((s1.setGran a { s1.granAt a with poison := true }).bump (A.hbmUe stack) 1).setReg (A.hbmErrAddr stack) (BitVec.ofNat 64 (a + 2 ^ 63))).tallyUe 1
  else s1

/-- PATROL_SCRUB: the patrol visits the next granule of a stack (R265); `e.status` tells the on-die corrections the stack has
reported since (log 57). -/
def State.patrolScrub (s : State) (stack : Nat) (e : Env) : State :=
  if !s.up || 20 ≤ stack || !s.bit (A.hbmStatus stack) 0 then s
  else
    let s1 := s.patrolFind stack (s.patrolAt stack) e
    let s2 : State := { s1.bump (A.hbmOdecc stack) e.status with
      health := { s1.health with tally := { s1.health.tally with odecc := s1.health.tally.odecc + e.status } } }
    let n := Sparse.get 0 s2.patrol stack + 1
    if n = stackGranules then { s2.bumpW 32 (A.hbmPasses stack) 1 with patrol := Sparse.set 0 s2.patrol stack 0 }
    else { s2 with patrol := Sparse.set 0 s2.patrol stack n }

/-- MEM_HBM_RFM_s (R279). -/
def hbmRfm (k : Nat) : Nat := A.hbm k 0x28

/-- R458: recalibrations under way end. -/
def State.endRecal (s : State) : State := (List.range 20).foldl (fun s k => if s.bit (A.hbmStatus k) 1 then s.setB (A.hbmStatus k) 1 false else s) s

/-- HBM_RECALIBRATION: the next stack in order recalibrates: it serves no request and RECAL reads 1 until the next 1 ms boundary, or the
next recalibration (R458 gives it at most 1 µs; DESIGN CHOICE, log 105). `e.status` tells the refresh management commands it has issued
since (log 57). -/
def State.recalibrate (s : State) (e : Env) : State :=
  if !s.up then s
  else
    let k := s.recal % 20
    let s1 := (s.endRecal.bump (hbmRfm k) e.status)
    { (if s1.bit (A.hbmStatus k) 0 then s1.setB (A.hbmStatus k) 1 true else s1) with recal := (k + 1) % 20 }

/-! ### Analogue checks (R470) -/

/-- ANALOGUE_CHECK: sensors that disagree, one bit per die; disagreements of the input sense and the references in 0.1 %. -/
def State.analogueCheck (s : State) (temps vin vref : Nat) : State :=
  if !s.up then s
  else s.orReg A.abist ((temps % 32) * 2 ^ 34 + (if 10 < vref then 2 ^ 39 else 0) + (if 10 < vin then 2 ^ 40 else 0))

/-- HLT_ABIST_STATUS.RERUN: loopback again on ports that are down: bits of E0 to E7, M0 to M1, C0 to C3 that fail. -/
def State.abistRerun (s : State) (loopE loopM loopC : Nat) : State :=
  if !s.up then s
  else
    let e := sumNat ((List.range 8).map fun p => if bitAt loopE p && !s.portUp p then 2 ^ p else 0)
    let m := sumNat ((List.range 2).map fun p => if bitAt loopM p && s.fieldN (A.mlmStatus p) 0 2 == 0 then 2 ^ (8 + p) else 0)
    let c := sumNat ((List.range 4).map fun p => if bitAt loopC p && !s.bit (A.cxlStatus p) 0 then 2 ^ (10 + p) else 0)
    s.orReg A.abist (e + m + c)

/-! ### Device events and the sample (R270, R428, R518) -/

/-- CXL_EVENT_RECORD: Ralrad reads a device's records: so many of corrected kind, so many media errors. -/
def State.cxlEvents (s : State) (port corrected media : Nat) : State :=
  if s.up && s.bit (A.cxlStatus port) 5 then ((s.bump (A.cxlEvents port) (corrected + media)).tallyCe corrected).tallyUe media else s

/-- R37, R54: SEQ_BEAT of a cluster. -/
def Cluster.seqBeat (c : Cluster) : Nat := min c.beat (2 ^ 48 - 1)

/-- R13, R15: W1S bits that the module clears now: those whose action does not run. The spec does not say when the module
clears one; the model does so at the first 1 ms boundary at which the action is over (DESIGN CHOICE, log 99). -/
def State.w1sOver (s : State) : List (Nat × Nat) :=
  ((List.range 16).filterMap fun c =>
      let st := s.fieldN (A.snapStatus c) 0 3
      if st = 1 ∨ st = 2 then none else some (A.snapCtl c, 1))
    ++ (if s.bit A.scrubStatus 0 then [] else [(A.scrubCtrl, 20)])
    ++ (if s.activating then [] else [(A.fwCtrl, 0)])
    ++ (if s.staging then [] else [(A.stageCtrl, 26)])
    ++ (if s.maqState = 1 then [] else [(A.maqCtrl, 0)]) ++ (if s.maqState = 4 then [] else [(A.maqCtrl, 1)]) ++ [(A.maqCtrl, 3)]
    ++ (if s.taking.isSome then [] else [(A.mboxInCtrl, 13)]) ++ [(A.abist, 41)]

def State.clearW1s (s : State) : State := s.w1sOver.foldl (fun s p => s.setB p.1 p.2 false) s

/-- COUNTER_SAMPLE: every counter as it stands, with SEQ_BEAT of every cluster; 1 ms of the plinth time base has passed. -/
def State.counterSample (s : State) : State :=
  let live := Sparse.erase (fun a => !isCounterAt a) s.regs
  let beats := s.clusters.map fun p => (A.seqBeat (p.1 / 9) (p.1 % 9), BitVec.ofNat 64 p.2.seqBeat)
  { s.clearW1s.endRecal with sampled := beats.foldl (fun m p => Sparse.set 0 m p.1 p.2) live, timeNs := s.timeNs + 1000000 }

/-! ### Self-test slices (R464 to R469) -/

/-- HLT_BIST_REQ with GO: one pending slice for each kind on each cluster named, or a refusal (R466). -/
def State.bistReq (s : State) (r clusters kinds save : Nat) : State :=
  let ks := setBits 9 clusters
  if !s.up then s
  else if 48 ≤ r || !s.bit (A.regionShape r) 4 || (ks.any fun k => (s.cl r k).retired) || kinds % 256 == 0 || 7 < save || s.activating then
    s.setB A.bistStatus 1 true
  else
    ks.foldl (fun s k => s.modCl r k fun c =>
      let new := (setBits 8 kinds).map fun x => (x, save)
      { c with slices := { c.slices with pend := (c.slices.pend.filter fun p => !bitAt kinds p.1) ++ new } }) s

/-- HLT_BIST_REQ with CANCEL. -/
def State.bistCancel (s : State) (r : Nat) : State :=
  if s.up && r < 48 then (List.range 9).foldl (fun s k => s.modCl r k fun c => { c with slices := { c.slices with pend := [] } }) s else s

/-- R466: lowest kind first. -/
def Slices.lowest : List (Nat × Nat) → Option (Nat × Nat)
  | [] => none
  | p :: ps => match Slices.lowest ps with | none => some p | some q => some (if p.1 ≤ q.1 then p else q)

/-- R466: when a pending slice runs: at once in a region not owned or a gated spare, else at a step point once everything is
done, one slice per step point. -/
def State.sliceMayRun (s : State) (r k : Nat) : Bool :=
  let c := s.cl r k
  let ts := c.queues.filter Queue.training
  s.up && c.slices.running.isNone && !s.resetting r
    && ((s.rg r).owner.isNone || c.gated
        || (c.lris.isEmpty && (ts.all fun q => q.st == .held && q.origin < c.beat) && (ts.isEmpty || !c.slices.ranStep)))

/-- R467: no accepted request still touches the cluster's scratchpad or the save area. -/
def State.sliceQuiet (s : State) (r k save : Nat) : Bool :=
  let hit (l : Loc) : Bool := match l with
    | .chip a =>
      let o := (a - physWin) % 0x4000000
      (a - physWin) / 0x4000000 == r && (o / 0x400000 == k || (0x3000000 ≤ o && (o - 0x3000000) / 0x200000 == save))
    | _ => false
  !((List.range 48).any fun q => (s.rg q).accepted.any fun x => let pl := s.reqPlaces q x; (pl.1 ++ pl.2 ++ s.maskPlaces q x).any hit)
    && !(s.heldPkts.any fun h => (h.locs.getD []).any hit)

/-- BIST_SLICE: a slice starts: the save area is overwritten (R467). -/
def State.bistSlice (s : State) (r k : Nat) : State :=
  match Slices.lowest (s.cl r k).slices.pend with
  | none => s
  | some (kind, save) =>
    if s.sliceMayRun r k && s.sliceQuiet r k save then
      (s.modCl r k fun c => { c with slices := { c.slices with pend := c.slices.pend.filter fun p => p.1 != kind, running := some (kind, save) } }).scramble
        (rbAddr r (0x200000 * save)) 0x200000
    else s

/-- SLICE_COMPLETE: the cluster is restored; the kind ran, and failed or not, with the columns found failing (R464, R468). -/
def State.sliceComplete (s : State) (r k : Nat) (failed : Bool) (columns : Nat) : State :=
  match (s.cl r k).slices.running with
  | none => s
  | some (kind, _) =>
    let p := 9 * r + k
    let cols := if kind = 0 then columns % 2 ^ 64 else 0
    let s1 := s.modCl r k fun c => { c with slices := { c.slices with running := none, ranStep := true } }
    let s2 := s1.orReg (A.hltCluster p) (2 ^ (8 + kind))
    if failed || cols != 0 then ((s2.orReg (A.hltCluster p) (2 ^ kind)).orReg (A.colFail p) cols).flagSet r k else s2

end Sys2Proof.Machine
end

