-- ==== Sys2Proof/Machine/Fabric.lean ====
section
/-!
DEFINITION. Sys2Proof/Machine/Fabric.lean: membership of the fabric (R315, R316, R335, R322), default routing (R318), and the
Eokoby, Muolmorn and CXL links: flits, replays, training, loss (R268, R306 to R311, R493, R496).
-/
namespace Sys2Proof.Machine

/-! ### Default routing (R318) -/

/-- Ports whose peer record holds module `m` as a member. -/
def State.peerPorts (s : State) (m : Nat) : List Nat :=
  (List.range 8).filter fun e => s.bit (A.portStatus e) 2 && s.fieldN (A.portStatus e) 3 12 == m

/-- R318: egress of module `m`: a port that leads to it (any of several: free), else E(b). -/
def State.defaultPort (s : State) (pick m : Nat) : Nat :=
  match s.peerPorts m with
  | [] => s.fieldN A.bpos 0 3
  | e :: es => nth e (e :: es) (pick % (es.length + 1))

/-- R318, R338: every entry is written. -/
def State.defaultRoutes (s : State) : State :=
  let (pick, s1) := s.free 40320
  let s2 := (List.range 512).foldl (fun s w =>
    s.setReg (A.route w) (BitVec.ofNat 64 (sumNat ((List.range 8).map fun j => (8 + s.defaultPort pick (8 * w + j)) * 2 ^ (8 * j))))) s1
  { s2 with routeDue := false }

/-- DEFAULT_ROUTING_UPDATE: a peer record has changed (R318). -/
def State.routingUpdate (s : State) : State :=
  if s.up && !s.activating && s.routeDue && s.isMember then
    if s.bit A.routeCtrl 0 then { s with routeDue := false } else s.defaultRoutes
  else s

/-! ### Membership (R315, R316, R335) -/

/-- Packets that wait at the ingress to be accepted are dropped, each counted (R315, R333; log 103). -/
def State.dropHeld (s : State) (counter : Nat) : State :=
  { s.bump counter (s.heldPkts.countP fun h => h.locs.isNone) with heldPkts := s.heldPkts.filter fun h => h.locs.isSome }

/-- Sessions with peer modules and their exchanges end; every parity bit returns to 0, and what had arrived with the
old ones is held no more (R416, R417, R367, R350). -/
def State.newEpochEffects (s : State) : State :=
  let s1 := { s.dropHeld A.epochOld with sessions := s.sessions.filter fun x => 65536 ≤ x.peer, kexs := [] }
  (List.range 16).foldl (fun s c => s.modCx c fun x => { x with ptx := [], prx := [], rx := [] }) s1

/-- R316, R335: an epoch is adopted; NEWER_SEEN clears where the epoch is at least as new as the one seen. -/
def State.adoptEpoch (s : State) (epoch : Nat) : State :=
  let seen := s.fieldN A.member 32 16
  let s1 := s.setFld A.member 16 16 epoch
  let s2 := if s.bit A.member 48 && !newerEpoch seen epoch then s1.setFld A.member 32 17 0 else s1
  s2.newEpochEffects

/-- R316: the module becomes a member under a number. -/
def State.becomeMember (s : State) (modNum epoch : Nat) : State :=
  let s1 := (s.setFld A.member 0 12 modNum).setFld A.member 12 2 1
  let s2 := s1.adoptEpoch epoch
  if s2.bit A.routeCtrl 0 then s2 else s2.defaultRoutes

/-- R316: EKB_JOIN with GO 1. -/
def State.ekbJoin (s : State) (modNum epoch : Nat) : State :=
  match s.fieldN A.member 12 2 with
  | 0 => s.becomeMember modNum epoch
  | 1 => if modNum = s.modNum ∧ newerEpoch epoch s.fabEpoch then s.adoptEpoch epoch else s.bump A.joinRefused 1
  | _ => if s.anyOwned then s.bump A.joinRefused 1 else s.becomeMember modNum epoch

/-- GRACE_EXPIRY: a newer epoch not adopted in time; Ralrad reports it to the companion (R335). -/
def State.graceExpiry (s : State) : State :=
  if s.up && s.isMember && s.bit A.member 48 then
    ((s.setFld A.member 12 2 2).dropHeld A.notMember).send (.pldm 7 (s.modNum))
  else s

/-- R322: EKB_CTX_JOB_c; the write of a second valid holder of a job ID is rejected: it stores nothing, and leaves VALID 0. -/
def State.ctxJobWrite (s : State) (c job : Nat) (valid : Bool) : State :=
  let held := (List.range 16).any fun d => d != c && s.bit (A.ctxJob d) 16 && s.fieldN (A.ctxJob d) 0 16 == job % 65536
  if valid && held then s.setB (A.ctxJob c) 16 false
  else s.setReg (A.ctxJob c) (BitVec.ofNat 64 (job % 65536 + (if valid then 65536 else 0)))

/-! ### Links -/

/-- A link, E0 to E7 then M0 and M1, is up. -/
def State.linkUp (s : State) (p : Nat) : Bool := if p < 8 then s.portUp p else s.fieldN (A.mlmStatus (p - 8)) 0 2 != 0

/-- R308, R496: an Eokoby port goes down, is counted, and retrains. -/
def State.ekbDown (s : State) (p : Nat) : State :=
  let s1 := ((s.setFld (A.portStatus p) 0 2 0).bump (A.linkDowns p) 1).setLink p { Link.init with lost := true }
  { s1 with health := { s1.health with tally := { s1.health.tally with downs := s1.health.tally.downs + 1 } } }

/-- R495, R496: a Muolmorn port goes down with its session. -/
def State.mlmDown (s : State) (m : Nat) : State :=
  let s1 := ((s.setReg (A.mlmStatus m) 0).bump (A.mlmDowns m) 1).setLink (8 + m) { Link.init with lost := true }
  { s1.dropSession (65536 + m) with heldMlm := s1.heldMlm.filter fun p => p.port != m }

def State.linkDown (s : State) (p : Nat) : State := if p < 8 then s.ekbDown p else s.mlmDown (p - 8)

/-- R268: a CXL port that goes down stays down until module recovery. -/
def State.cxlDown (s : State) (p : Nat) : State :=
  if s.bit (A.cxlStatus p) 0 then s.setReg (A.cxlStatus p) 0 else s

/-- LINK_GOES_DOWN: an Eokoby (0), CXL (1) or Muolmorn (2) port loses its link. -/
def State.linkGoesDown (s : State) (kind p : Nat) : State :=
  if !s.alive then s
  else if kind = 0 then (if s.portUp p then s.ekbDown p else s)
  else if kind = 1 then s.cxlDown p
  else if s.linkUp (8 + p) then s.mlmDown p else s

/-- R309: the peer record as the last link control flit gave it. -/
def peerWord (width : Nat) (l : LinkCtl) : Nat :=
  width + (if l.member then 4 else 0) + (l.modNum % 4096) * 8 + (l.bpos % 8) * 0x8000 + (l.port % 8) * 0x40000

/-- R309, R318: a peer record is refreshed; a change calls for new default routes. -/
def State.setPeer (s : State) (p width : Nat) (l : LinkCtl) : State :=
  let w := peerWord width l
  let old := s.regN (A.portStatus p)
  { s.setReg (A.portStatus p) (BitVec.ofNat 64 w) with routeDue := s.routeDue || w / 4 != old / 4 }

/-! ### Flits (R307 to R310) -/

/-- A port whose link layer runs: an Eokoby port from READY, a Muolmorn port while it is up. -/
def State.portRuns (s : State) (p : Nat) : Bool := s.linkUp p && (s.up || 8 ≤ p)

/-- R308: FEC counts of a flit's codewords. -/
def State.countFec (s : State) (p : Nat) (f : Flit) : State :=
  if p < 8 then (s.bump (A.fecCorr p) f.fecCor).bump (A.fecUncorr p) f.fecBad else s

/-- R308: the receiver names the SEQ it expects in a retry request. -/
def State.requestRetry (s : State) (p : Nat) : State := s.send (.flit p 2 (s.link p).rxSeq)

/-- R308: the expected flit fails: first, or again in a replay; in the 16th consecutive replay the port goes down. -/
def State.flitFails (s : State) (p : Nat) : State :=
  let l := s.link p
  if !l.discard then (s.setLink p { l with discard := true, fails := 0 }).requestRetry p
  else if 15 ≤ l.fails then s.linkDown p
  else (s.setLink p { l with fails := l.fails + 1 }).requestRetry p

/-- R307, R308: the expected flit arrives intact; its ACK shows how far the peer has got. -/
def State.flitTaken (s : State) (p : Nat) (f : Flit) : State :=
  let l := s.link p
  let past := (flitAck f + 4096 - l.reqSeq % 4096) % 4096 < 2048
  let l1 := { l with rxSeq := (l.rxSeq + 1) % 4096, discard := false, fails := 0, reqs := if past then 0 else l.reqs }
  let s1 := s.setLink p (if flitType f = 0 then l1.takeBody f else l1)
  if p < 8 && flitType f = 0 then s1.bumpUnits (A.rxBytes p) 242 else s1

/-- FLIT_RECEIVE: a flit that fails, and every later one until the replay, is discarded (R308). -/
def State.flitReceive (s : State) (p : Nat) (f : Flit) : State :=
  if !s.portRuns p then s
  else
    let s1 := s.countFec p f
    let l := s1.link p
    if !flitIntact f || f.fecBad ≠ 0 then
      if l.discard && flitSeq f ≠ l.rxSeq then s1 else s1.flitFails p
    else if flitSeq f = l.rxSeq then s1.flitTaken p f
    else if l.discard then s1
    else s1.flitFails p

/-- FLIT_REPLAY: a retry request names `seq`; the kept flits from that one on are sent again; a request after 16 consecutive
replays from one flit takes the port down (R308). -/
def State.flitReplay (s : State) (p seq : Nat) : State :=
  if !s.portRuns p then s
  else
    let l := s.link p
    let again := l.reqs ≠ 0 && l.reqSeq == seq % 4096
    if again && 16 ≤ l.reqs then s.linkDown p
    else
      let n := (l.since seq).length
      let s1 := (s.setLink p { l with reqSeq := seq % 4096, reqs := if again then l.reqs + 1 else 1 }).send (.replay p (l.since seq))
      if p < 8 then
        let s2 := s1.bump (A.retry p) n
        { s2 with health := { s2.health with tally := { s2.health.tally with retry := s2.health.tally.retry + n } } }
      else s1.bump (A.mlmRetry (p - 8)) n

/-- LINK_CONTROL_FLIT: the peer's flit refreshes its record and returns credits, and the module sends its own (R309, R310); on a
Muolmorn port credits alone (R493). -/
def State.linkControl (s : State) (p : Nat) (l : LinkCtl) : State :=
  if s.portRuns p then
    ((if p < 8 then s.setPeer p (s.fieldN (A.portStatus p) 0 2) l else s).takeCredits p l.credits).sendControl p
  else s

/-! ### Training (R306, R308, R309, R311, R493, R496) -/

/-- PORT_TRAINING_COMPLETE: an enabled port that is down comes up with 8 or 4 lanes, measures its round trip and records its
peer. -/
def State.portTrained (s : State) (p lanes rtt : Nat) (l : LinkCtl) : State :=
  let width := if lanes = 8 then 2 else if lanes = 4 then 1 else 0
  if s.up && bitAt s.active.ekbEn p && !s.portUp p && !(s.link p).dead && width ≠ 0 then
    (((s.setReg (A.rtt p) (BitVec.ofNat 64 (min rtt 65535))).setLink p Link.init).setPeer p width l).sendControl p
  else s

/-- PORT_RETRAIN_TIMEOUT: a port that went down and is not up after 50 ms (R308). -/
def State.retrainTimeout (s : State) (p : Nat) : State :=
  if s.up && !s.portUp p && (s.link p).lost then s.setLink p { s.link p with lost := false, dead := true } else s

/-- MLM_PORT_RETRAIN: an enabled Muolmorn port that is down trains with 16 or 8 lanes, or tries again later (R493, R496); M0 also
while Ralrad runs halted (R442). -/
def State.mlmRetrain (s : State) (m lanes : Nat) : State :=
  let width := if lanes = 16 then 2 else if lanes = 8 then 1 else 0
  if ((s.up && bitAt s.active.mlmEn m) || (s.halfUp && m == 0)) && !s.linkUp (8 + m) then
    ((s.setReg (A.mlmStatus m) (BitVec.ofNat 64 width)).setLink (8 + m) Link.init).sendControl (8 + m)
  else s

end Sys2Proof.Machine
end

