-- ==== Sys2Proof/Machine/Power.lean ====
section
/-!
DEFINITION. Sys2Proof/Machine/Power.lean: power-on reset, input limits and thermal trip (R483 to R486, R492), boot (R441, R442,
R401, R420, R260, R267 to R271, R465, R470), module recovery (R443, R479, R480).
-/
namespace Sys2Proof.Machine

/-! ### Power-on reset (R480, R484, R485, R492) -/

/-- CXL memory after a power-on reset: as the board powers the devices, kept or not (R480): free. -/
def State.cxlAfterPower (s : State) : State × Bool := let (n, s1) := s.free 2; (s1, n = 0)

/-- R480: everything is reset but the flash; a staging cut short may have begun its erase (R450). THERMTRIP_N and the strap as
last read stay. -/
def State.powerReset (s : State) (b : Boot) : State :=
  let (s1, keep) := s.stageCut.cxlAfterPower
  { State.reset with
    pending := s1.pending, flash := s1.flash, powerOns := s1.powerOns, outbox := s1.outbox, freeCtr := s1.freeCtr
    nextKey := s1.nextKey, boot := b
    mem := if keep then Sparse.erase (fun a => !isCxl a) s1.mem else []
    gran := if keep then Sparse.erase (fun a => !isCxl a) s1.gran else []
    pins := { State.reset.pins with porst := s1.pins.porst, thermtrip := s1.pins.thermtrip, bpos := s1.pins.bpos } }

/-- PORST_N_ASSERT; without VIN only the pin falls (R4). -/
def State.porstAssert (s : State) : State :=
  let s1 := if s.boot == .off then s else s.powerReset .porst
  { s1 with pins := { s1.pins with porst := false } }

/-- A power-on reset that the module takes itself. -/
def State.selfReset (s : State) : State := if s.pins.porst then s.powerReset .held else s.powerReset .porst

/-- R4, R480: VIN is removed: nothing acts, and the flash alone holds its contents; THERMTRIP_N is let go (R492). -/
def State.vinLost (s : State) : State :=
  let s1 := s.powerReset .off
  { s1 with pins := { s1.pins with thermtrip := true, converters := false } }

/-- VIN_UNDERVOLTAGE: the input at `mv` for `us` µs (R484); at 0 it is gone (R4). -/
def State.vinUnder (s : State) (mv us : Nat) : State :=
  if 54000 ≤ mv then s
  else if mv = 0 then s.vinLost
  else if s.boot == .off then s
  else if mv < 50000 ∨ 10000 < us then (if s.boot == .tripped then s else s.selfReset)
  else if s.alive then (s.setB A.govStatus 9 true).setB A.vinStatus 0 true
  else s

/-- VIN_OVERVOLTAGE (R484). -/
def State.vinOver (s : State) (mv us : Nat) : State :=
  if mv ≤ 63000 ∨ s.boot == .tripped ∨ s.boot == .off then s
  else if 66000 < mv ∨ 100000 < us then
    let s1 := s.selfReset
    { s1 with pins := { s1.pins with converters := false } }
  else if s.alive then (s.setB A.govStatus 9 true).setB A.vinStatus 1 true
  else s

/-- THERMAL_TRIP: any junction at 115 °C or more, or any DRAM at 105 °C or more, for 100 µs (R492). -/
def State.thermalTrip (s : State) (junction hbm : Int) (us : Nat) : State :=
  if (115 ≤ junction || 105 ≤ hbm) && 100 ≤ us && s.boot != .tripped && s.boot != .off then
    let s1 := s.powerReset .tripped
    { s1 with pins := { s1.pins with thermtrip := false, converters := false } }
  else s

/-! ### Steps of boot (R441) -/

/-- R442: boot stops. -/
def State.bootHalt (s : State) (err : Nat) : State :=
  { (s.setFld A.bootStatus 0 4 6).setFld A.bootStatus 8 4 err with boot := .halted }

/-- R420, R407: the identity key is rebuilt, the DRBG starts. -/
def State.rebuildIdentity (s : State) (ok : Bool) : State :=
  { (s.setB A.secStatus 1 ok).setB A.secStatus 2 true with identity := if ok then some 0 else none, drbg := 0 }

/-- R436, R401, R261: the power-on fields of a set. -/
def State.applyPowerOn (s : State) (x : CfgSet) : State :=
  ({ s with active := x }.setB A.secStatus 0 x.dataProt).setReg A.interleave (BitVec.ofNat 64 (x.span + 2 * x.gran))

/-- R260, R481: which stacks trained, and the lanes repaired. -/
def State.trainStacks (s : State) (e : BootEnv) : State :=
  (List.range 20).foldl (fun s k => (s.setB (A.hbmStatus k) 0 (bitAt e.trained k)).setReg (A.hbmLanes k) (BitVec.ofNat 64 (nth 0 e.lanes k % 256))) s

def testOf (e : BootEnv) (p : Nat) : SelfTest := match e.tests.find? fun t => t.1 == p with | some t => t.2 | none => ⟨0, false, 0⟩

/-- R465: one cluster's self-test: columns bypassed, spare rows, retirement. -/
def State.selfTestOne (s : State) (e : BootEnv) (p : Nat) : State :=
  let r := p / 9
  let k := p % 9
  let t := testOf e p
  let map := s.regN (A.maColmap r k) ||| (t.columns % 2 ^ 64)
  let s1 := (s.setReg (A.maColmap r k) (BitVec.ofNat 64 map)).setFld (A.hltCluster p) 25 8 t.rows
  if t.other || colsLeft map < 60 then s1.modCl r k fun c => { c with retired := true } else s1

/-- R465: every cluster is tested; every scratchpad and region buffer reads 0 after it. -/
def State.selfTest (s : State) (e : BootEnv) : State :=
  let s1 := (List.range 432).foldl (fun s p => s.selfTestOne e p) s
  { s1 with mem := Sparse.erase isChip s1.mem }

/-- R306, R309, R31: an enabled Eokoby port that has trained records its peer. -/
def State.bootEkb (s : State) (e : BootEnv) (p : Nat) : State :=
  let w := nth 0 e.ekbUp p
  if bitAt s.active.ekbEn p && (w = 1 || w = 2) then
    (((s.setReg (A.portStatus p) (BitVec.ofNat 64 w)).setReg (A.rtt p) (BitVec.ofNat 64 (min (nth 0 e.ekbRtt p) 65535))).setPeer p w
      (nth ⟨false, 0, 0, 0, []⟩ e.ekbPeers p)).sendControl p
  else s

/-- R493, R31: an enabled Muolmorn port that has trained. -/
def State.bootMlm (s : State) (e : BootEnv) (m : Nat) : State :=
  let w := nth 0 e.mlmUp m
  if bitAt s.active.mlmEn m && (w = 1 || w = 2) then (s.setReg (A.mlmStatus m) (BitVec.ofNat 64 w)).sendControl (8 + m) else s

/-- R267 to R271, R31: an enabled CXL port that has trained is enumerated and its latency measured; in data-protected mode it
needs IDE, with fresh keys. -/
def State.bootCxl (s : State) (e : BootEnv) (p : Nat) : State :=
  let w := nth 0 e.cxlUp p
  let ide := s.active.dataProt
  if bitAt s.active.cxlEn p && (w % 4 = 1 || w % 4 = 2) && (!ide || bitAt e.cxlIde p) then
    let cap := min (nth 0 e.cxlCap p) 16384
    let s1 := s.setReg (A.cxlStatus p) (BitVec.ofNat 64 (1 + (w % 4) * 2 + (w / 4 % 2) * 8 + (if ide then 16 else 0) + (if cap = 0 then 0 else 32)))
    let s2 := (s1.setReg (A.cxlCap p) (BitVec.ofNat 64 cap)).setReg (A.cxlNs p) (BitVec.ofNat 64 (min (ceilDiv (nth 0 e.cxlNs p - 500) 10 * 10) 65535))
    if ide then { s2 with nextKey := s2.nextKey + 1, drbg := (s2.drbg + 1) % 1048576 } else s2
  else s

/-- R470: loopback results. -/
def State.bootPorts (s : State) (e : BootEnv) : State :=
  let s1 := s.setReg A.abist (BitVec.ofNat 64 (e.loop % 2 ^ 34))
  let s2 := (List.range 8).foldl (fun s p => s.bootEkb e p) s1
  let s3 := (List.range 2).foldl (fun s m => s.bootMlm e m) s2
  (List.range 4).foldl (fun s p => s.bootCxl e p) s3

/-- Steps 2 to 6 of R441 for a slot and a set; R442's halts; a slot that fails gives way to the other, and where both fail the
error is that of the slot selected. -/
def State.bootSteps (s : State) (slot set : Nat) (e : BootEnv) : State :=
  let e0 := s.slotCheck slot
  if e0 ≠ 0 ∧ s.slotCheck (1 - slot) ≠ 0 then s.bootHalt e0
  else
    let s1 := ((s.setFld A.bootStatus 12 1 (if e0 = 0 then slot else 1 - slot)).setFld A.bootStatus 13 1 set).setB A.fwStatus 1 (e0 ≠ 0)
    let s2 := s1.rebuildIdentity e.idOk
    match s2.setAt set with
    | .error x => s2.bootHalt x
    | .ok x =>
      let s3 := s2.applyPowerOn x
      if x.dataProt && !e.idOk then s3.bootHalt 8
      else
        let s4 := ((s3.trainStacks e).selfTest e).bootPorts e
        if e.trained % 2 ^ 20 ≠ 2 ^ 20 - 1 then s4.bootHalt 7 else { s4.setFld A.bootStatus 0 4 4 with boot := .booting }

/-- The boot sequence from the release of the internal reset (R441): the strap as read, the flash, the header. -/
def State.bootFromPower (s : State) (e : BootEnv) : State :=
  let s1 := { s with powerOns := s.powerOns + 1, pins := { s.pins with converters := true } }.setReg A.bpos (BitVec.ofNat 64 s.pins.bpos)
  if !e.flashOk then s1.bootHalt 1
  else
    match s1.header with
    | none => s1.bootHalt 2
    | some (_, h) => ((s1.setFld A.hdrStatus 0 1 h.slot).setFld A.hdrStatus 1 1 h.set).bootSteps h.slot h.set e

/-- R485, R492: the internal reset may be released. -/
def State.mayRelease (s : State) (railsGood : Bool) (hottest : Int) : Bool := railsGood && (s.pins.thermtrip || hottest ≤ 95)

/-- PORST_N_RELEASE, with VIN present where the rails are good: the strap is read, boundary scan drives no pin any more (R508); boot runs unless the module still holds its own reset. -/
def State.porstRelease (s : State) (railsGood : Bool) (hottest : Int) (e : BootEnv) : State :=
  if (s.boot == .porst || s.boot == .off) && !s.pins.porst then
    let s1 := { s with pins := { s.pins with porst := true, bpos := e.bpos % 8 }, dbg := { s.dbg with driven := false } }
    if s1.mayRelease railsGood hottest then s1.bootFromPower e else { s1 with boot := if s.boot == .off then .off else .held }
  else s

/-- INTERNAL_RESET_RELEASE: the rails are good, VIN having come back where it was gone (R4), and PORST_N is high. -/
def State.internalRelease (s : State) (railsGood : Bool) (hottest : Int) (e : BootEnv) : State :=
  if (s.boot == .held || (s.boot == .off && s.pins.porst)) && s.mayRelease railsGood hottest then s.bootFromPower e else s

/-! ### READY (R441 step 7) -/

/-- R27: CFG_SHAPE's fields of the set. -/
def State.showShape (s : State) : State :=
  (((s.setFld A.shape 6 2 (if s.active.capacity then 1 else 0)).setFld A.shape 8 8 s.active.ekbEn).setFld A.shape 16 4 s.active.cxlEn).setFld
    A.shape 20 2 s.active.mlmEn

/-- R177, R441: MA_SHAPE.WIDTH of a cluster; one with fewer than 60 working columns keeps 0. -/
def State.showWidth (s : State) (r k : Nat) : State :=
  let w := colsLeft (s.regN (A.maColmap r k))
  if w < 60 then s else s.setFld (A.maShape r k) 0 7 w

/-- Step 7: swap fields, shape registers, the first measurement record, the heartbeat, READY. -/
def State.becomeReady (s : State) (bootMs : Nat) : State :=
  let s1 := s.applySwapFields.showShape
  let s2 := (List.range 48).foldl State.reshape s1
  let s3 := (List.range 432).foldl (fun s p => s.showWidth (p / 9) (p % 9)) s2
  let s4 := ((s3.setFld A.bootStatus 16 12 (min bootMs 4095)).setFld A.bootStatus 0 5 (5 + 16)).commitRecord
  { s4 with boot := .ready, wdog := ⟨0, 0, false⟩, mboxSeq := 0, pins := { s4.pins with ready := true } }

/-- BOOT_READY. -/
def State.bootReady (s : State) (e : BootEnv) : State := if s.boot == .booting then s.becomeReady e.bootMs else s

/-! ### Module recovery (R443, R479, R480, R486) -/

/-- Recovery begins, or begins anew: admission stops, contexts are killed, the heartbeat and SPDM stop, READY falls. -/
def State.beginRecovery (s : State) : State :=
  let s1 := s.setFld A.bootStatus 0 5 0
  { s1 with boot := .recovering, wdog := { s1.wdog with stopped := true }, pins := { s1.pins with ready := false } }

/-- R486, R442: a recovery trigger takes effect once boot has begun. -/
def State.mayRecover (s : State) : Bool := s.alive

/-- RECOV_N_EDGE: ignored while PORST_N is low, and when not held for 1 ms. -/
def State.recovEdge (s : State) (us : Nat) : State := if s.pins.porst && 1000 ≤ us && s.mayRecover then s.beginRecovery else s

/-- R481: HLT_RECOVER takes the key. -/
def State.hltRecover (s : State) (key : Nat) (go : Bool) : State := if go && key == 0x5243 && s.mayRecover then s.beginRecovery else s

/-- Registers that module recovery keeps: HLT_RECOVERIES, EKB_BPOS, RUNNING_SLOT and ACTIVE_SET, the header in use, resets of
each region, one more, and the columns in each MA_COLMAP with those of a pending width change (R177, R179). -/
def State.keepRegs (s : State) : List (Nat × Nat) :=
  [(A.recoveries, s.regN A.recoveries), (A.bpos, s.regN A.bpos), (A.bootStatus, s.fieldN A.bootStatus 12 2 * 4096)
  ,(A.hdrStatus, s.fieldN A.hdrStatus 0 2)]
    ++ (List.range 48).map (fun r => (A.regionEpoch r, (s.fieldN (A.regionEpoch r) 0 31 + 1) % 2 ^ 31))
    ++ (List.range 432).map fun p =>
      (A.maColmap (p / 9) (p % 9), match (s.rg (p / 9)).widthPend.find? fun x => x.1 == p % 9 with
        | some x => x.2
        | none => s.regN (A.maColmap (p / 9) (p % 9)))

/-- Clusters that stay retired, with those whose retirement was pending (R25). -/
def State.retiredNow (s : State) : Sparse Cluster :=
  ((List.range 432).filter fun p => (s.cl (p / 9) (p % 9)).retired || (s.rg (p / 9)).retirePend.contains (p % 9)).map fun p =>
    (p, { Cluster.init with retired := true })

/-- R480: HBM contents stay unless the interleave changes (R261); CXL memory stays; scratchpads and region buffers do not. -/
def keepsByte (hbm : Bool) (a : Nat) : Bool := (hbm && isHbm a) || isCxl a

/-- The module reset of recovery: everything but the power-on domain. -/
def State.moduleReset (s : State) (hbm : Bool) : State :=
  let aborted := s.clusters.any fun c => c.2.slices.running.isSome
  let s1 := s.stageCut
  let s2 : State := { State.reset with
    pending := s1.pending, flash := s1.flash, powerOns := s1.powerOns, outbox := s1.outbox, freeCtr := s1.freeCtr
    nextKey := s1.nextKey, timeNs := s1.timeNs, dbg := s1.dbg, i3c := s1.i3c, pins := s1.pins
    boot := .recovering, clusters := s.retiredNow
    mem := Sparse.erase (fun a => !keepsByte hbm a) s1.mem, gran := Sparse.erase (fun a => !keepsByte hbm a) s1.gran
    spdm := { State.reset.spdm with record := s1.spdm.record }, wdog := { State.reset.wdog with stopped := true } }
  let s3 := s.keepRegs.foldl (fun s p => s.setReg p.1 (BitVec.ofNat 64 p.2)) s2
  if aborted then s3.setB A.bistStatus 2 true else s3

/-- Whether the set to be applied keeps the interleave in force. -/
def State.sameInterleave (s : State) : Bool :=
  match s.setAt s.activeSet with
  | .ok x => x.span + 2 * x.gran == s.regN A.interleave
  | .error _ => true

/-- RECOVERY_COMPLETE: once every accepted request is complete, the module reset and the boot steps on RUNNING_SLOT and
ACTIVE_SET; with READY, HLT_RECOVERIES counts. -/
def State.recoveryComplete (s : State) (e : BootEnv) : State :=
  if s.boot == .recovering && (List.range 48).all (fun r => (s.rg r).accepted.isEmpty) then
    let s0 := s.moduleReset s.sameInterleave
    let s1 := if e.flashOk then s0.bootSteps s.runningSlot s.activeSet e else s0.bootHalt 1
    if s1.boot == .booting then (s1.bumpW 32 A.recoveries 1).becomeReady e.bootMs else s1
  else s

end Sys2Proof.Machine
end

