-- ==== Sys2Proof/Machine/Csr.lean ====
section
/-!
DEFINITION. Sys2Proof/Machine/Csr.lean: control space (R13 to R15, R425 to R428, R453, R481, R506, R510 to R518, R521): what a
register shows, who may read and write it, and what a write does (R43, R91 to R95, R293, R336, R497, R504).
-/
namespace Sys2Proof.Machine

/-! ### Registers computed when read -/

/-- Value of register `o` of a region's router or sync block that shows a record of the state, if it does. -/
def State.shownRegion (s : State) (r o : Nat) : Option Nat :=
  let g := s.rg r
  let ctr (c : Ctr) : Nat := c.count + c.matched * 2 ^ 24
  if o = 0 then
    some (match g.owner with
      | some c => c + 16 + ((s.regionsOf c).countP fun q => q < r) * 32
      | none => 0)
  else if o = 0x250 then some (sumNat ((List.range 4).map fun c => if g.waiting.any fun q => q.arrive.isSome && q.cls == c then 2 ^ c else 0))
  else if 0x4000 ≤ o ∧ o < 0x5000 then some (ctr (g.ctr ((o - 0x4000) / 8)))
  else if 0x5000 ≤ o ∧ o < 0x6200 then some (ctr ((s.cl r ((o - 0x5000) / 0x200)).ctr ((o - 0x5000) % 0x200 / 8)))
  else if o = 0x6438 then
    some (sumNat ((List.range 64).map fun b => if s.bars.any fun e => e.node == .region r && e.f.bid == b then 2 ^ b else 0))
  else none

/-- R129: SEQ_Q_STATUS_q. EVAL reads 1 from the switch on, while the evaluation stream is still being fetched, until the
queue stops (DESIGN CHOICE, log 32). -/
def Queue.status (q : Queue) : Nat :=
  q.stateCode + (if q.len.isNone && q.st != .idle && q.st != .stopped then 4 else 0) + (q.pos % 2 ^ 24) * 256
    + min 512 (q.buf.countP fun p => q.pos ≤ p.1) * 2 ^ 32

/-- As `shownRegion`, for offset `b` of a cluster. -/
def State.shownCluster (s : State) (r k b : Nat) : Option Nat :=
  let c := s.cl r k
  let g := s.rg r
  if b < 0x80 ∧ b % 0x20 = 0x10 then some (c.queue (b / 0x20)).status
  else if b = 0x100 then some c.seqBeat
  else if b = 0x178 then some (min c.lris.length 15)
  else if b = 0x2000 then some (c.lris.countP fun l => l.unit == .mv0)
  else if b = 0x2040 then some (c.lris.countP fun l => l.unit == .mv1)
  else if b = 0x7000 ∨ b = 0x8000 then some (sumNat (g.chisel.map fun p => 2 ^ p.1))
  else if b = 0x7008 ∨ b = 0x8008 then some g.chiselCfg
  else none

/-- Slices pending and running (R466, R481). -/
def State.slicesPending (s : State) : Nat := sumNat (s.clusters.map fun c => c.2.slices.pend.length)
def State.sliceRuns (s : State) : Bool := s.clusters.any fun c => c.2.slices.running.isSome

/-- A register's exact value now. -/
def State.shown (s : State) (a : Nat) : Nat :=
  let stored := s.regN a
  if 0x1000000 ≤ a ∧ a < 0x4000000 then
    let r := (a - 0x1000000) / 0x100000
    let o := a % 0x100000
    if o < 0x10000 then (s.shownRegion r o).getD stored
    else (s.shownCluster r ((o - 0x10000) / 0x10000) (o % 0x10000)).getD stored
  else if A.mem 0 ≤ a ∧ a < A.mem 0x100 ∧ a % 0x10 = 8 then sumNat ((s.regionsOf ((a - A.mem 0) / 0x10)).map fun r => 2 ^ r)
  else if a = A.bistStatus then stored / 2 % 4 * 2 + (if s.sliceRuns then 1 else 0) + s.slicesPending * 8
  else stored

/-! ### Who may read (R425 to R428, R453, R481, R506) -/

/-- Registers that R426 lets no party but Ralrad read. -/
def WAcc.writeOnly : WAcc → Bool
  | .inv | .poke | .sec _ => true
  | _ => false

/-- A context whose own a plinth register is, by its name. -/
def namedCtx (a : Nat) : Option Nat := (List.range 16).find? fun c => (A.ctxRegions c :: regsOfCtx c).contains a

def RegDef.isCounter (d : RegDef) : Bool := d.kind == .ctr || d.kind == .units

/-- R427: the context a counter belongs to at the access; none: module-wide. -/
def State.counterCtx (s : State) (d : RegDef) : Option Nat :=
  match d.home with
  | .region r | .cluster r _ => (s.rg r).owner
  | .ctx c => some c
  | .module => none

/-- R426, R427: what a context view reaches: its own regions' blocks, its own registers, the plinth's, and the counters of a region that
has no owner, which are module-wide (log 60). -/
def State.ctxReaches (s : State) (c a : Nat) (d : RegDef) : Bool :=
  match d.home with
  | .region r | .cluster r _ => (s.rg r).owner == some c || (d.isCounter && (s.rg r).owner.isNone)
  | .ctx x => x == c
  | .module => match namedCtx a with | some x => x == c | none => true

/-- R426, R481. -/
def State.mayRead (s : State) (p : Party) (a : Nat) (d : RegDef) : Bool :=
  match p with
  | .ralrad => true
  | .companion | .operator => !d.acc.writeOnly
  | .ctx c => !d.acc.writeOnly && d.acc != .bist && d.acc != .reset && s.ctxReaches c a d

/-- R428: a counter's field rounded down to a multiple of 1,024. -/
def quantised (v : Nat) : Nat := v / 1024 * 1024

/-- R428, R487: a power register as a party other than Ralrad reads it in data-protected mode. -/
def State.powerRead (s : State) (a : Nat) : Nat :=
  let w := min 4095 ((s.fieldN A.pwrIn 0 12 + 2) / 5 * 5)
  if a = A.pwrIn then s.regN a / 4096 * 4096 + w else w

/-- R428: the value a permitted reader gets. -/
def State.valueFor (s : State) (p : Party) (a : Nat) (d : RegDef) : Nat :=
  if d.wo then 0
  else if !s.dataProt || p == .ralrad then s.shown a
  else if d.isCounter then
    let q := quantised (Sparse.get 0 s.sampled a).toNat
    match p, s.counterCtx d with
    | .ctx c, some x => if x = c then s.shown a else 0
    | _, _ => q
  else if d.kind == .power then s.powerRead a
  else s.shown a

/-! ### The SFU table window (R521) -/

/-- Segments of a table: 0 where there is no such table (R219, R225, R228). -/
def sfuSegments (func compat deriv : Nat) : Nat :=
  let native := nth 0 [257, 257, 417, 417, 32, 64, 64, 769, 321, 257, 609, 609, 769, 769, 386, 386] func
  if compat = 0 ∧ deriv = 0 then native
  else if compat = 1 ∧ deriv = 0 then (if [0, 2, 6, 7, 8, 0xB].contains func then native else 0)
  else if compat = 0 ∧ deriv = 1 then (if func = 9 then 321 else if func < 2 ∨ 7 ≤ func then native else 0)
  else 0

def isSfuWindow (a : Nat) : Bool := 0x4000000 ≤ a && a < 0x4100000

/-- Eight bytes of the window. -/
def sfuWindow (a : Nat) : Nat :=
  let i := (a - 0x4000000) / 16
  let t := i / 1024
  let g := i % 1024
  if g < sfuSegments (t / 4) (t / 2 % 2) (t % 2) then field (Sys2Proof.Config.sfuCoeff (t / 4) (t / 2 % 2) (t % 2) g).toNat (if a % 16 = 0 then 0 else 64) 64
  else 0

/-! ### When control space answers (R441, R442, R479) -/

/-- A register that a halted module still takes writes of (R442). -/
def haltedTakes (a : Nat) : Bool := a == A.stageSrc || a == A.stageCtrl || a == A.stageStatus || a == A.bootSel || a == A.hltRecover

/-- R441, R442, R479: whether an access reaches the registers. -/
def State.csrOpen (s : State) (p : Party) (a : Nat) (wr : Bool) : Bool :=
  match s.boot with
  | .ready | .booting => true
  | .recovering => !wr || a == A.hltRecover
  | .halted =>
    if s.fieldN A.bootStatus 8 4 ≤ 4 then p == .operator && (!wr || a == A.hltRecover) else !wr || haltedTakes a
  | _ => false

/-- R425: an offset in a party's own view; the CXL registers by name (log 5). -/
def inView (p : Party) (a : Nat) : Bool :=
  (match p with | .ctx _ => a < 0x8000000 | _ => a < 0x80000000) || (0x100000000 ≤ a && a < 0x100004000)

def State.deny (s : State) : State := s.bump A.denied 1

/-- R511: a register in the block of a power-gated spare. -/
def State.inGated (s : State) (d : RegDef) : Bool := match d.home with | .cluster r k => s.isGated r k | _ => false

/-- A read of a register by a party: its value, and SEC_DENIED where it is refused (R426, R512). -/
def State.csrRead (s : State) (p : Party) (a : Nat) : Nat × State :=
  if !s.csrOpen p a false then (0, s)
  else if a % 8 ≠ 0 then (0, s.deny)
  else if !inView p a then (0, s)
  else if isSfuWindow a then (sfuWindow a, s)
  else
    match regAt a with
    | none => (0, s)
    | some d => if s.inGated d then (0, s) else if s.mayRead p a d then (s.valueFor p a d, s) else (0, s.deny)

/-! ### Who may write -/

/-- R426: the context view's rows. -/
def State.ctxMayWrite (s : State) (c a : Nat) (d : RegDef) (w : Nat) : Bool :=
  let own : Bool := match d.home with | .region r | .cluster r _ => (s.rg r).owner == some c | .ctx x => x == c | .module => false
  match d.acc with
  | .ro => s.mayRead (.ctx c) a d
  | .seq | .poke | .ctr | .clear => own
  | .ctx x => x == c
  | .inv => true
  | .sec rot => rot && w % 16 == c
  | _ => false

/-- R426, R453, R481, R506. -/
def State.mayWrite (s : State) (p : Party) (a : Nat) (d : RegDef) (w : Nat) : Bool :=
  match p with
  | .ralrad | .companion => true
  | .operator =>
    match d.acc with
    | .gov | .bist | .ro => true
    | .ctr => !s.dataProt && (s.counterCtx d).isNone
    | _ => !s.dataProt
  | .ctx c => s.ctxMayWrite c a d w

/-! ### Doorbells (R91 to R95, R284, R441) -/

/-- R92: why a doorbell is dropped. -/
def State.ringDropped (s : State) (r k m : Nat) : Bool :=
  let g := s.rg r
  m == 0 || !s.up || g.owner.isNone || !g.loaded || g.mapReject
    || ((setBits 4 m).any fun q => (s.queue r k q).st != .idle || s.fieldN (A.qLen r k q) 0 24 == 0)

/-- R91, R92: a queue is started with the base and length as captured. -/
def State.startQueue (s : State) (r k q : Nat) : State :=
  let x := s.queue r k q
  s.setQ r k q { Queue.init with
    st := .starting, train := true, base := s.fieldN (A.qBase r k q) 6 46 * 64, len := some (s.fieldN (A.qLen r k q) 0 24), gen := x.gen + 1 }

/-- R92, R95, R511: a write to SEQ_DOORBELL of a physical cluster. -/
def State.doorbell (s : State) (r k m : Nat) : State :=
  if (s.cl r k).retired || s.isGated r k then s.bump (A.absentRing r) 1
  else if s.ringDropped r k m then s.bump (A.ringDrop r k) 1
  else ((setBits 4 m).foldl (fun s q => s.startQueue r k q) s).modCl r k fun c => { c with starts := c.starts ++ [m] }

/-- R95: a write to SEQ_LDOORBELL. -/
def State.ldoorbell (s : State) (r l m : Nat) : State :=
  let k := s.physOf r l
  if k < 9 then s.doorbell r k m else s.bump (A.absentRing r) 1

/-! ### What a write does -/

/-- What a write's action draws from outside: a staged image's bytes, and loopback results where it says. -/
structure WriteEnv where
  env  : Env
  loop : Option Nat
  deriving DecidableEq, Repr

def WriteEnv.none : WriteEnv := ⟨noEnv, Option.none⟩

/-- R14: bits of a register that the module has set in the current beat of the cluster they lie in. -/
def State.justSet (s : State) (a : Nat) (d : RegDef) : Nat :=
  match d.home with
  | .cluster r k => (s.cl r k).setNow.foldl (fun m p => if p.1 = a then m ||| p.2 else m) 0
  | _ => 0

/-- R13, R14: RW bits are stored, W1C bits written 1 are cleared unless the module set them in the same beat, all others stay. -/
def State.storeFields (s : State) (a : Nat) (d : RegDef) (w : Nat) : State :=
  let old := s.regN a
  let kept := old &&& ((2 ^ 64 - 1) ^^^ d.rw)
  let clear := w &&& d.w1c &&& ((2 ^ 64 - 1) ^^^ s.justSet a d)
  s.setReg a (BitVec.ofNat 64 ((kept ||| (w &&& d.rw)) &&& ((2 ^ 64 - 1) ^^^ clear)))

/-- R513, R515, R487: a write of 0 clears a counter or a peak, but for the events of the same beat. -/
def State.clearOnZero (s : State) (a : Nat) (d : RegDef) (w : Nat) : State :=
  let width := if a = A.pwrPeak then 12 else if A.hbm 0 0 ≤ a ∧ a < A.hbm 20 0 ∧ a % 0x1000 = 0x30 then 32 else 48
  if w % 2 ^ width = 0 then s.clearCounter (d.kind == .units) a else s

/-- R43. -/
def clampCap (v : Nat) : Nat := if 1600 < v then 1600 else if v < 600 then 600 else v

/-- R336. -/
def clampGrace (v : Nat) : Nat := if 10000 < v then 10000 else if v < 10 then 10 else v

/-- R506: SLOTS_LOG2 takes 4 to 10; other values read 4. -/
def slotsField (v : Nat) : Nat := if 4 ≤ v ∧ v ≤ 10 then v else 4

/-- R470: loopback results of a rerun; none given: free. -/
def State.rerunLoop (s : State) (x : WriteEnv) : State :=
  match x.loop with
  | some n => s.abistRerun (field n 0 8) (field n 8 2) (field n 10 4)
  | none => let (n, s1) := s.free 16384; s1.abistRerun (field n 0 8) (field n 8 2) (field n 10 4)

/-- R497: MEM_MLM_WIN. -/
def State.mlmWinWrite (s : State) (mode : Nat) : State :=
  if mode = 3 then s
  else if s.anyOwned || (mode != 0 && !s.bit A.shape 21) then s.refuseCfg
  else s.setReg A.mlmWin (BitVec.ofNat 64 mode)

/-- R503: eight bytes of the inbox. -/
def State.inboxWrite (s : State) (o w : Nat) : State :=
  { s with inbox := (numberFrom (fun i b => (o + i, b)) 0 (natToBytes 8 w)).foldl (fun m p => Sparse.set 0#8 m p.1 p.2) s.inbox }

/-- CFG_ registers (R454, R506). -/
def State.writeCfg (s : State) (a : Nat) (d : RegDef) (w : Nat) (x : WriteEnv) : State :=
  let b (i : Nat) : Bool := bitAt w i
  if a = A.fwCtrl then (if b 0 then s.activate (b 1) else s.storeFields a d w)
  else if a = A.stageCtrl then (if b 26 then s.stageGo (field w 0 25) (field w 25 1) x.env else s.storeFields a d w)
  else if a = A.bootSel then (if b 2 then s.bootSel (field w 0 1) (field w 1 1) else s)
  else if a = A.maqCtrl then
    let s1 := s.storeFields a d w
    let s2 := if b 0 then s1.maqLoad else s1
    let s3 := if b 1 then s2.maqSwap (b 2) else s2
    if b 3 then s3.maqDiscard else s3
  else if a = A.mboxInCtrl then (if b 13 then s.mboxInGo (field w 0 13) else s.storeFields a d w)
  else if a = A.mboxOutCfg then
    let s1 := s.setReg a (BitVec.ofNat 64 (slotsField (field w 0 4) + (if b 4 then 16 else 0)))
    State.mboxDrain s1.heldMsgs.length s1
  else if a = A.mboxTail then s.mboxTail (field w 0 32)
  else if A.cfg 0x1000 ≤ a ∧ a < A.cfg 0x2000 then s.inboxWrite (a - A.cfg 0x1000) w
  else s.storeFields a d w

/-- SEC_ registers (R403 to R405, R411, R430). -/
def State.writeSec (s : State) (a : Nat) (d : RegDef) (w : Nat) : State :=
  if a = A.secRotate then (if bitAt w 4 then s.rotate (field w 0 4) else s)
  else if a = A.regionAssign then
    match field w 10 2 with
    | 1 => s.assign (field w 0 6) (field w 6 4)
    | 2 => s.release (field w 0 6)
    | _ => s
  else if a = A.scrubCtrl then
    let s1 := s.storeFields a d w
    if bitAt w 20 then s1.scrubGo (field w 0 20) else s1
  else s.storeFields a d w

/-- HLT_ registers (R396, R466, R468, R470, R475, R481). -/
def State.writeHlt (s : State) (a : Nat) (d : RegDef) (w : Nat) (x : WriteEnv) : State :=
  if a = A.hltRecover then s.hltRecover (field w 0 16) (bitAt w 16)
  else if a = A.resetReq then
    if !bitAt w 7 then s
    else if bitAt w 0 then s.requestDieReset (field w 1 6) else s.requestRegionReset (field w 1 6)
  else if a = A.bistReq then
    let s1 := if bitAt w 27 then s.bistCancel (field w 0 6) else s
    if bitAt w 26 then s1.bistReq (field w 0 6) (field w 6 9) (field w 15 8) (field w 23 3) else s1
  else if a = A.hltRetire then (if bitAt w 10 then s.retireReq (field w 0 6) (field w 6 4) else s)
  else if a = A.abist then
    let s1 := s.storeFields a d w
    if bitAt w 41 then s1.rerunLoop x else s1
  else s.storeFields a d w

/-- Plinth memory, Eokoby, power and region registers with an action of their own; others store their fields. -/
def State.writeRest (s : State) (p : Party) (a : Nat) (d : RegDef) (w : Nat) (x : WriteEnv) : State :=
  if a = A.govCtrl then s.setReg a (BitVec.ofNat 64 (clampCap (field w 0 11)))
  else if a = A.grace then s.setReg a (BitVec.ofNat 64 (clampGrace (field w 0 16)))
  else if a = A.join then (if bitAt w 32 then s.ekbJoin (field w 0 12) (field w 16 16) else s)
  else if a = A.xlateInv then
    s.invalidate (match p with | .ctx c => c | _ => field w 0 4) (bitAt w 4) (field w 21 31 * 0x200000)
  else if a = A.mlmWin then s.mlmWinWrite (field w 0 2)
  else
    match d.acc, d.home with
    | .ctx c, _ =>
      if a = A.ctxJob c then s.ctxJobWrite c (field w 0 16) (bitAt w 16)
      else if a = A.snapCtl c then
        let s1 := s.storeFields a d w
        if bitAt w 1 then s1.snapArm c x.env else s1
      else s.storeFields a d w
    | .poke, .region r => if field w 16 24 = 0 then s else s.incNode r (field w 0 9) (field w 16 24) 24
    | .seq, .region r => s.ldoorbell r (field w 4 4) (field w 0 4)
    | .seq, .cluster r k => if a = A.doorbell r k then s.doorbell r k (field w 0 4) else s.storeFields a d w
    | _, _ => s.storeFields a d w

/-- R447: registers whose writes are refused during an activation. -/
def refusedActivating (a : Nat) : Bool :=
  a == A.regionAssign || a == A.secRotate || a == A.scrubCtrl || a == A.stageCtrl || a == A.maqCtrl || a == A.bootSel

/-- What a write asks for, W1S bits apart. -/
def State.writeAction (s : State) (p : Party) (a : Nat) (d : RegDef) (w : Nat) (x : WriteEnv) : State :=
  if d.isCounter || d.kind == .power then s.clearOnZero a d w
  else if a < A.pwr 0 then s.writeCfg a d w x
  else if A.sec 0 ≤ a ∧ a < A.hlt 0 then s.writeSec a d w
  else if A.hlt 0 ≤ a ∧ a < A.mem 0 then s.writeHlt a d w x
  else s.writeRest p a d w x

/-- The effect of a permitted write: a W1S bit written 1 is set, and the action it asks for is taken (R13, R15); one refused during an
activation is counted, a staging with error 9 (R447, R450). -/
def State.writeEffect (s : State) (p : Party) (a : Nat) (d : RegDef) (w : Nat) (x : WriteEnv) : State :=
  if d.acc == .ro then s
  else if s.activating && refusedActivating a then
    (if a = A.stageCtrl ∧ bitAt w 26 then s.setFld A.stageStatus 4 4 9 else s).refuseCfg
  else
    let t := s.writeAction p a d w x
    if w &&& d.w1s = 0 then t else t.orReg a (w &&& d.w1s)

/-- A write of eight bytes to an offset of a party's view (R425, R426, R511, R512). -/
def State.csrWrite (s : State) (p : Party) (a w : Nat) (x : WriteEnv) : State :=
  if !s.csrOpen p a true then s
  else if a % 8 ≠ 0 || isSfuWindow a then s.deny
  else if !inView p a then s
  else
    match regAt a with
    | none => s
    | some d =>
      match d.home, s.inGated d with
      | .cluster r k, true => if a = A.doorbell r k then s.doorbell r k (field w 0 4) else s
      | _, _ => if s.mayWrite p a d w then s.writeEffect p a d w x else s.deny

/-- R508: an access is refused under R426 or R512. -/
def State.csrDenied (s : State) (p : Party) (a : Nat) (wr : Bool) (w : Nat) : Bool :=
  s.csrOpen p a wr
    && (a % 8 != 0 || (wr && isSfuWindow a)
        || (inView p a && !isSfuWindow a
            && (match regAt a with
              | some d => !s.inGated d && !(if wr then s.mayWrite p a d w else s.mayRead p a d)
              | none => false)))

end Sys2Proof.Machine
end

