-- ==== Sys2Proof/Machine/Companion.lean ====
section
/-!
DEFINITION. Sys2Proof/Machine/Companion.lean: requests of the companion over Muolmorn: the link's checks (R415, R419, R494), memory
targets and control space (R500, R501), the session's key exchange (R495).
-/
namespace Sys2Proof.Machine

/-! ### Answers -/

/-- R494: a packet of the module to the companion, answering a request. -/
def State.answerMlm (s : State) (m : Nat) (x : Pkt) (ptype status : Nat) (data : List Byte) (mask : Nat) : State :=
  let y := { pktData (wrPacket ptype x.addr x.cls (s.dataProt && ptype < 0x20) [] x.aux) x.addr data mask with status, tag := x.tag }
  s.sendMlm m y

/-- R500: a request outside the targets. -/
def State.mlmFault (s : State) (m : Nat) (x : Pkt) (ptype : Nat) : State := (s.bump A.mlmInFaults 1).answerMlm m x ptype 2 [] 0

/-- The completion type of a request. -/
def cplOf (ptype : Nat) : Nat := ptype + 1

/-! ### Memory (R500) -/

/-- `n` bytes lie in HBM, or in one mapped range of the CXL tier. -/
def State.mlmMem (s : State) (a n : Nat) : Bool :=
  let z := a + n - 1
  (isHbm a && isHbm z) || (isCxl a && isCxl z && cxlPort a == cxlPort z && s.outOk a && s.outOk z)

/-- R500: a memory request that names class 0 is admitted as class 1. -/
def memClass (cls : Nat) : Nat := if cls = 0 then 1 else cls

/-- The places of `n` bytes of memory as the companion names them, by their granules. -/
def plainPlaces (a n : Nat) : List Loc := (List.range (ceilDiv (a % 32 + n) 32)).map fun i => .page (identityPage (granOf a + 32 * i)) (granOf a + 32 * i)

/-- R42, R57, R458, R477: a memory request waits at its port while its class or a resource on its path has no credit, or its stack
serves none. -/
def State.mlmWaits (s : State) (x : Pkt) (n : Nat) : Bool :=
  let ls := plainPlaces x.addr n
  let path := dedupNat (ls.flatMap s.plinthPath)
  s.classStopped (memClass x.cls) || ls.any (fun l => s.placeHeld l || s.recalHeld l) || s.pathDown path || !s.pathOk (memClass x.cls) path

/-- The bytes a packet covers, one place each. -/
def plainBytes (a n : Nat) : List Loc := (List.range n).map fun i => .page (identityPage (granOf (a + i))) (a + i)

/-- R500, R266: granules as stored; poisoned ones are zeros under the mask. -/
def State.mlmRead (s0 : State) (m : Nat) (x : Pkt) (e : Env) : State :=
  let s := s0.noteReads none e (plainPlaces x.addr x.len)
  let bad (a : Nat) : Bool := (s.granAt a).poison
  let bs := (s.readPlain x.addr x.len).1
  let out := numberFrom (fun i b => if bad (x.addr + i) then 0#8 else b) 0 bs
  let mask := sumNat ((List.range (ceilDiv x.len 32)).map fun g =>
    if (List.range 32).any (fun i => 32 * g + i < x.len && bad (x.addr + 32 * g + i)) then 2 ^ g else 0)
  s.answerMlm m x 2 0 out mask

/-- Bytes of a packet as writes. -/
def pktWrites (x : Pkt) : List Wr := numberFrom (fun i b => (⟨x.addr + i, b, 0xFF#8, bitAt (x.pmask.getD 0) (i / 32)⟩ : Wr)) 0 x.data

/-- R500: a write stores its bytes with KGEN 0 and no key. -/
def State.mlmWrite (s : State) (m : Nat) (x : Pkt) (e : Env) : State :=
  ((s.noteTargets false e (plainBytes x.addr x.data.length)).writeAll .plain (pktWrites x)).answerMlm m x 4 0 [] 0

/-- R329, R330: atomics on memory as stored; poisoned targets are skipped and counted. -/
def State.mlmAtomic (s0 : State) (m : Nat) (x : Pkt) (e : Env) : State :=
  let s := s0.noteTargets true e (plainBytes x.addr x.data.length)
  let w := if bitAt x.aux 4 then 8 else 4
  let n := x.data.length / w
  let poisoned (s : State) (a : Nat) : Bool := (s.granAt a).poison
  let skips := (dedupNat (((List.range (w * n)).filter fun i => poisoned s (x.addr + i)).map fun i => granOf (x.addr + i))).length
    + popCount 128 (x.pmask.getD 0)
  let s1 := (List.range n).foldl (fun s i =>
    let a := x.addr + w * i
    let v := bytesToNat ((x.data.drop (w * i)).take w)
    if bitAt (x.pmask.getD 0) (w * i / 32) || poisoned s a || poisoned s (a + w - 1) || 6 ≤ field x.aux 0 3 then s
    else
      let old := bytesToNat (s.readPlain a w).1
      s.writeAll .plain (wrBytes a (natToBytes w (atomOp (field x.aux 0 3) (bitAt x.aux 3) (8 * w) old v)))) s
  (s1.bump A.atomPoison skips).answerMlm m x 6 0 [] 0

/-! ### Control space (R425, R500, R512) -/

/-- R425, R398: the party and offset that a control-space address names. -/
def viewOf (o : Nat) : Party × Nat := if o < 0x80000000 then (.companion, o) else (.ctx ((o - 0x80000000) / 0x8000000 % 16), o % 0x8000000)

def inCsr (a n : Nat) : Bool := csrBase ≤ a && a + n ≤ csrEnd

/-- R512: a read of eight aligned bytes; any other reads 0. -/
def State.mlmCsrRead (s : State) (m : Nat) (x : Pkt) : State :=
  let (p, o) := viewOf (x.addr - csrBase)
  if x.len ≠ 8 ∨ o % 8 ≠ 0 then s.deny.answerMlm m x 2 0 (List.replicate x.len 0#8) 0
  else
    let (v, s1) := s.csrRead p o
    s1.answerMlm m x 2 0 (natToBytes 8 v) 0

/-- R512: a write of eight aligned bytes; any other writes nothing. -/
def State.mlmCsrWrite (s : State) (m : Nat) (x : Pkt) (e : Env) : State :=
  let (p, o) := viewOf (x.addr - csrBase)
  if x.data.length ≠ 8 ∨ o % 8 ≠ 0 then s.deny.answerMlm m x 4 0 [] 0
  else (s.csrWrite p o (bytesToNat x.data) ⟨e, none⟩).answerMlm m x 4 0 [] 0

/-! ### The session (R495) -/

/-- R495: a KEX_HELLO with the companion's share while no session is up: the module answers and the session is up. -/
def State.mlmKex (s : State) (m : Nat) (x : Pkt) : State :=
  if x.data.length ≠ 56 || (s.session (65536 + m)).isSome || !s.rngOk then s
  else
    let priv := s.nextKey
    let reply := kexData priv (s.identity.getD 0) s.certChain x.data
    let label := 2 * (s.nextKey + 1)
    let s1 := { s with nextKey := s.nextKey + 2, drbg := (s.drbg + 1) % 1048576 }
    let s2 := s1.openSession (65536 + m) (Sys2Proof.Config.x448Key priv x.data (label + 1)) (Sys2Proof.Config.x448Key priv x.data label)
    let s3 := s2.answerMlm m { x with addr := 0, aux := 0 } 0x21 0 reply 0
    s3.setB (A.mlmStatus m) 2 true

/-! ### Requests in order (R501) -/

/-- A request waits at its port. -/
def State.holdMlm (s : State) (m : Nat) (x : Pkt) (e : Env) : State := { s with heldMlm := s.heldMlm ++ [⟨m, x, e⟩] }

/-- A request admitted at its port takes effect, or waits. -/
def State.mlmServe (s : State) (m : Nat) (x : Pkt) (e : Env) : State :=
  let n := if x.ptype = 1 then x.len else x.data.length
  if x.ptype = 0x20 then (if s.activating then s.holdMlm m x e else s.mlmKex m x)
  else if inCsr x.addr n then
    match x.ptype with
    | 1 => s.mlmCsrRead m x
    | 3 => s.mlmCsrWrite m x e
    | _ => s.deny.answerMlm m x 6 0 [] 0
  else if !s.mlmMem x.addr n then s.mlmFault m x (cplOf x.ptype)
  else if s.mlmWaits x n then s.holdMlm m x e
  else
    match x.ptype with
    | 1 => s.mlmRead m x e
    | 3 => s.mlmWrite m x e
    | _ => s.mlmAtomic m x e

/-- R501: a request behind one that waits on its port waits too. -/
def State.mlmQueue (s : State) (m : Nat) (x : Pkt) (e : Env) : State :=
  if s.heldMlm.any fun p => p.port == m then s.holdMlm m x e else s.mlmServe m x e

/-- Waiting requests of the ports are taken again, in order. -/
def State.mlmDrain (s : State) : State := s.heldMlm.foldl (fun s p => s.mlmQueue p.port p.pkt p.env) { s with heldMlm := [] }

/-- Waiting requests of every port and of the ingress are taken again. -/
def State.retryPorts (s : State) : State := s.retryHeld.mlmDrain

/-- Nothing waits for accesses, credits or an activation. -/
def State.portsIdle (s : State) : Bool :=
  s.heldPkts.isEmpty && s.heldMlm.isEmpty && s.decided.isEmpty && s.regions.all fun g => g.2.accepted.all Req.sent

/-- A step that serves accesses or returns credits, and what then goes on (R49, R57). -/
def State.thenRetry (s : State) (f : State → State) : State := if s.portsIdle then f s else (f s).retryPorts

/-- R441, R442, R479, R492: a Muolmorn port that takes requests. -/
def State.mlmOpen (s : State) (m : Nat) : Bool :=
  s.linkUp (8 + m) && (match s.boot with | .ready | .booting | .halted => true | _ => false)

/-- R419, R494, R415, R416: a request's checks on a Muolmorn port; then its turn. -/
def State.mlmRequest (s0 : State) (m ptype : Nat) (x : Pkt) (e : Env) : State :=
  let s := s0.drainPkt [8 + m] x
  if !s.mlmOpen m || x.ptype ≠ ptype || x.reserved ≠ 0 then s
  else if !s.dataProt then (if x.enc then s else s.mlmQueue m x e)
  else
    match s.session (65536 + m) with
    | none => s
    | some y =>
      if !x.enc then s
      else if !x.tagOk then s.bump A.gcmFail 1
      else if !y.accepts x.ctr then s.bump A.replayDrop 1
      else if x.ctr + 1 = 2 ^ 48 then (s.mlmQueue m x e).dropSession y.peer |>.setB (A.mlmStatus m) 2 false
      else (s.setSession (y.take x.ctr)).mlmQueue m x e

/-! ### Key exchange (R495) -/

/-- MLM_KEX_HELLO: the companion's share; during an activation it waits (R447). -/
def State.mlmKexHello (s0 : State) (m : Nat) (x : Pkt) : State :=
  let s := s0.drainPkt [8 + m] x
  if !s.mlmOpen m || !s.dataProt || x.ptype ≠ 0x20 || x.enc || x.reserved ≠ 0 then s
  else s.mlmServe m x noEnv

end Sys2Proof.Machine
end

