-- ==== Sys2Proof/Machine/Debug.lean ====
section
/-!
DEFINITION. Sys2Proof/Machine/Debug.lean: the debug port (R508) and the I3C target with MCTP and PLDM (R507).
-/
namespace Sys2Proof.Machine

/-! ### Debug port (R508) -/

def State.setIr (s : State) (code : Nat) : State := { s with dbg := { s.dbg with ir := code, driven := false } }

/-- CSRACC: an access as the operator; its result is in the next capture. -/
def State.csracc (s : State) (offset : Nat) (write go : Bool) (data : Reg64) : State :=
  let a := offset % 2 ^ 40 / 8 * 8
  let s0 := s.setIr 0x10
  if !go then { s0 with dbg := { s0.dbg with csrDone := false, csrDeny := false } }
  else
    let deny := s0.csrDenied .operator a write data.toNat
    if write then
      let s1 := s0.csrWrite .operator a data.toNat WriteEnv.none
      { s1 with dbg := { s1.dbg with csrData := if deny then 0 else data, csrDone := true, csrDeny := deny } }
    else
      let (v, s1) := s0.csrRead .operator a
      { s1 with dbg := { s1.dbg with csrData := BitVec.ofNat 64 v, csrDone := true, csrDeny := deny } }

/-- R263: the 16 metadata bits of an HBM granule as stored. -/
def State.metaBits (s : State) (g : Nat) : Nat :=
  let m := s.granAt g
  let gen := m.kgen
  (Sys2Proof.Config.checkBits (bytesToNat (s.granSeen g none)) gen m.poison).toNat + (if gen then 1024 else 0) + (if m.poison then 2048 else 0)

/-- R244, R508: the memory that MEMACC reads: HBM, the mapped CXL tier, the physical region windows. -/
def State.memaccOk (s : State) (g : Nat) : Bool := isHbm g || (isCxl g && s.outOk g) || isChip g

/-- R428: a physical window of an owned region in data-protected mode. -/
def State.windowHidden (s : State) (g : Nat) : Bool := s.dataProt && isChip g && (s.rg ((g - physWin) / 0x4000000)).owner.isSome

/-- MEMACC: a granule as stored with its metadata (free where only HBM has them); one whose stack serves no request is not done
yet. -/
def State.memacc (s : State) (addr : Nat) (go : Bool) : State :=
  let g := addr % 2 ^ 52 / 32 * 32
  let s0 := s.setIr 0x11
  let show_ (s : State) (d : List Byte) (m : Nat) (done deny : Bool) : State :=
    { s with dbg := { s.dbg with memData := d, memMeta := m, memDone := done, memDeny := deny } }
  if !go || !s.alive then show_ s0 [] 0 false false
  else if !s.memaccOk g then show_ s0.deny (List.replicate 32 0#8) 0 true true
  else if isHbm g then
    if s.stackUp g then show_ s0 (s.granSeen g none) (s.metaBits g) true false else show_ s0 [] 0 false false
  else
    let (m, s1) := s0.free 65536
    show_ s1 (if s.windowHidden g then List.replicate 32 0#8 else s.blockAt g) m true false

/-- Codes of R508's table. -/
def isListedIr (c : Nat) : Bool := c ≤ 4 || c == 0x10 || c == 0x11

/-- EXTEST and the two of IEEE 1149.6: they drive pins only while PORST_N is low, and otherwise act as BYPASS. -/
def State.drivePins (s : State) (code : Nat) (drive : List Bool) : State :=
  if s.pins.porst then s.setIr 0xFF
  else { s with dbg := { s.dbg with ir := code, bscan := drive, driven := true } }

/-- SAMPLE/PRELOAD: the boundary register is loaded; no pin is driven. -/
def State.samplePreload (s : State) (load : List Bool) : State :=
  { s with dbg := { s.dbg with ir := 1, bscan := load, driven := false } }

/-- BYPASS, and every code not listed. -/
def State.bypass (s : State) (code : Nat) : State := if isListedIr (code % 256) then s else s.setIr (code % 256)

/-- IDCODE's data register. -/
def idcodeValue : Nat := 0xB4820001

/-- What the data register captures next, as the instruction register selects it (R508). -/
def State.capture (s : State) : Nat :=
  let d := s.dbg
  let b (x : Bool) (i : Nat) : Nat := if x then 2 ^ i else 0
  match d.ir with
  | 0x02 => idcodeValue
  | 0x10 => d.csrData.toNat + b d.csrDone 106 + b d.csrDeny 107
  | 0x11 => b d.memDone 53 + bytesToNat d.memData * 2 ^ 64 + d.memMeta * 2 ^ 320
  | _ => 0

/-! ### I3C (R507) -/

/-- The target answers from the release of PORST_N. -/
def State.i3cUp (s : State) : Bool := s.pins.porst && s.boot != .off

/-- R4: the debug port acts only with VIN present. -/
def State.whenPowered (s : State) (f : State → State) : State := if s.boot == .off then s else f s

/-- SETDASA: the bus owner names the static address 0x50 + BPOS. -/
def State.setdasa (s : State) (static dynamic : Nat) : State :=
  if s.i3cUp && static == 0x50 + s.pins.bpos then { s with i3c := { s.i3c with dyn := some (dynamic % 128) } } else s

/-- ENTDAA: a target without a dynamic address takes one. -/
def State.entdaa (s : State) (dynamic : Nat) : State :=
  if s.i3cUp && s.i3c.dyn.isNone then { s with i3c := { s.i3c with dyn := some (dynamic % 128) } } else s

/-- Other mandatory common commands by their codes (PRESUMED, log 70): events on and off, address reset, write and read lengths
(given with the command: free), and the reads, whose values are free but for the status. -/
def State.commonCommand (s : State) (code : Nat) : State :=
  if !s.i3cUp then s
  else
    match code with
    | 0x00 | 0x80 => { s with i3c := { s.i3c with events := true } }
    | 0x01 | 0x81 => { s with i3c := { s.i3c with events := false } }
    | 0x06 => { s with i3c := { s.i3c with dyn := none } }
    | 0x09 | 0x89 => let (n, s1) := s.free 65536; { s1 with i3c := { s1.i3c with mwl := n } }
    | 0x0A | 0x8A => let (n, s1) := s.free 65536; { s1 with i3c := { s1.i3c with mrl := n } }
    | 0x8B => s.send (.i3c code s.i3c.mwl)
    | 0x8C => s.send (.i3c code s.i3c.mrl)
    | 0x8D | 0x8E | 0x8F | 0x90 => let (n, s1) := s.free (2 ^ 48); s1.send (.i3c code n)
    | _ => s

/-- MCTP control messages (DSP0236, PRESUMED, log 70): the endpoint ID is set or told; the message types are told; others are
answered as unsupported. -/
def State.mctpControl (s : State) (command eid : Nat) : State :=
  if !s.i3cUp then s
  else
    match command with
    | 1 => { s with i3c := { s.i3c with eid := eid % 256 } }.send (.i3c (0x100 + command) (eid % 256))
    | 2 => s.send (.i3c (0x100 + command) s.i3c.eid)
    | 3 | 4 => let (n, s1) := s.free (2 ^ 128); s1.send (.i3c (0x100 + command) n)
    | 5 => s.send (.i3c (0x100 + command) 0x050100)
    | _ => s.send (.i3c (0x100 + command % 256) 0x05)

/-- PLDM numeric effecter 1 writes the power cap as the operator, from READY on; another ID changes nothing (R507). -/
def State.pldmEffecter (s : State) (effecter value : Nat) : State :=
  if !s.up then s
  else if effecter = 1 then (s.csrWrite .operator A.govCtrl value WriteEnv.none).send (.i3c 0x200 0)
  else s.send (.i3c 0x200 0x80)

end Sys2Proof.Machine
end

