-- ==== Sys2Proof/Machine/Attest.lean ====
section
/-!
DEFINITION. Sys2Proof/Machine/Attest.lean: the SPDM responder (R421 to R424). Message codes and framing are DMTF's SPDM 1.3 (PRESUMED,
log 71).
-/
namespace Sys2Proof.Machine

/-- An answer leaves by the path of its request: the mailbox, or MCTP over I3C. -/
def State.spdmSend (s : State) (body : List Byte) : State :=
  let s1 := { s with spdm := { s.spdm with mail := false } }
  if s.spdm.mail then s1.mboxSend body else s1.send (.spdm body)

def spdmHead (version code p1 p2 : Nat) : List Byte := natToBytes 1 version ++ natToBytes 1 code ++ natToBytes 1 p1 ++ natToBytes 1 p2

/-- ERROR with its code. -/
def State.spdmError (s : State) (err data : Nat) : State := s.spdmSend (spdmHead 0x13 0x7F err data)

/-- R424: what stands before every answer: none before the first record, in recovery or halted; Busy during an activation; RequestResynch
for a transcript an activation has overtaken. -/
def State.spdmAnswer (s : State) (fresh : Bool) (answer : State → State) : State :=
  if !s.up then s
  else if s.activating then (s.bump A.spdmBusy 1).spdmError 3 0
  else if s.spdm.stale && !fresh then s.spdmError 0x43 0
  else answer s

/-- Request and answer join the transcript. -/
def State.record (s : State) (bs : List Byte) : State := { s with spdm := { s.spdm with script := s.spdm.script ++ bs } }

/-- Whether the requests that must come first have come. -/
def State.spdmAfter (s : State) (ok : Bool) (answer : State → State) : State := if ok then answer s else s.spdmError 4 0

/-- GET_VERSION: the transcript begins anew. -/
def State.getVersion (s : State) : State :=
  s.spdmAnswer true fun s =>
    let rsp := spdmHead 0x10 0x04 0 0 ++ natToBytes 1 0 ++ natToBytes 1 1 ++ natToBytes 2 0x1300
    let s1 := { s with spdm := { s.spdm with
      version := true, caps := false, algs := false, script := spdmHead 0x10 0x84 0 0 ++ rsp, began := none, stale := false } }
    s1.spdmSend rsp

/-- GET_CAPABILITIES: certificates, challenges and signed measurements. -/
def State.getCapabilities (s : State) : State :=
  s.spdmAnswer false fun s => s.spdmAfter s.spdm.version fun s =>
    let rsp := spdmHead 0x13 0x61 0 0 ++ natToBytes 4 0 ++ natToBytes 4 0x16 ++ natToBytes 8 0
    ({ (s.record (spdmHead 0x13 0xE1 0 0 ++ rsp)) with spdm := { (s.record (spdmHead 0x13 0xE1 0 0 ++ rsp)).spdm with caps := true } }).spdmSend rsp

/-- Ed448 and SHA3-512 as SPDM's bit masks name them. -/
def asymEd448 : Nat := 10
def hashSha3 : Nat := 5

/-- NEGOTIATE_ALGORITHMS: only TPM_ALG_EDDSA_ED448 and SHA3-512 are offered (R422). -/
def State.negotiate (s : State) (asym hash : Nat) : State :=
  s.spdmAnswer false fun s => s.spdmAfter s.spdm.caps fun s =>
    let both := bitAt asym asymEd448 && bitAt hash hashSha3
    let rsp := spdmHead 0x13 0x63 0 0 ++ natToBytes 4 (if bitAt asym asymEd448 then 2 ^ asymEd448 else 0)
      ++ natToBytes 4 (if bitAt hash hashSha3 then 2 ^ hashSha3 else 0)
    let s1 := s.record (spdmHead 0x13 0xE3 0 0 ++ natToBytes 4 asym ++ natToBytes 4 hash ++ rsp)
    { s1 with spdm := { s1.spdm with algs := both } }.spdmSend rsp

/-- The chain of slot 0 (R421). -/
def State.slotZero (s : State) : List Byte := Sys2Proof.Config.slotChain s.certChain

/-- GET_DIGESTS. -/
def State.getDigests (s : State) : State :=
  s.spdmAnswer false fun s => s.spdmAfter s.spdm.algs fun s =>
    let rsp := spdmHead 0x13 0x01 0 1 ++ sha3 s.slotZero
    (s.record (spdmHead 0x13 0x81 0 0 ++ rsp)).spdmSend rsp

/-- GET_CERTIFICATE: a portion of slot 0. -/
def State.getCertificate (s : State) (slot offset len : Nat) : State :=
  s.spdmAnswer false fun s => s.spdmAfter s.spdm.algs fun s =>
    let chain := s.slotZero
    if slot ≠ 0 ∨ chain.length ≤ offset then s.spdmError 1 0
    else
      let part := (chain.drop offset).take len
      let rsp := spdmHead 0x13 0x02 0 0 ++ natToBytes 2 part.length ++ natToBytes 2 (chain.length - offset - part.length) ++ part
      (s.record (spdmHead 0x13 0x82 0 0 ++ natToBytes 2 offset ++ natToBytes 2 len ++ rsp)).spdmSend rsp

/-! ### Measurements (R422, R423) -/

/-- R422: the bytes of a measurement. -/
def State.measurement (s : State) (i : Nat) : List Byte :=
  let run := s.runningSlot
  match i with
  | 1 => natToBytes 64 Sys2Proof.Config.romDigest.toNat
  | 2 => s.imageDigest run ++ natToBytes 1 (0x41 + run)
  | 3 => s.flashBytes (flashSlot run + 8) 8
  | 4 => s.active.digest
  | 5 => natToBytes 64 (Sys2Proof.Config.chiselDigest s.active.images).toNat
  | 6 => natToBytes 8 (Sys2Proof.Config.modeBytes (if s.active.dataProt then 1 else 0) (if s.active.capacity then 1 else 0) s.active.ekbEn
      (s.active.cxlEn + 16 * s.active.mlmEn)).toNat
  | 7 => natToBytes 8 (s.regN A.ident)
  | 8 => (List.range 48).flatMap fun r => natToBytes 4 (s.regN (A.regionEpoch r))
  | 9 => natToBytes 6 (s.regN A.member)
  | _ => shake256 (Sys2Proof.Config.deviceCert s.certChain)

/-- One measurement block. -/
def State.measureBlock (s : State) (i : Nat) : List Byte :=
  let m := s.measurement i
  natToBytes 1 i ++ natToBytes 1 1 ++ natToBytes 2 (m.length + 3) ++ natToBytes 1 i ++ natToBytes 2 m.length ++ m

/-- Measurements that a request names: one, or all. -/
def measureList (index : Nat) : List Nat := if index = 0xFF then (List.range 10).map fun i => i + 1 else if index = 0 then [] else [index]

/-- A fresh nonce of 32 bytes from the DRBG. -/
def State.nonce (s : State) : List Byte × State :=
  let (n, s1) := s.free (2 ^ 256)
  (natToBytes 32 n, { s1 with drbg := (s1.drbg + 1) % 1048576 })

/-- R422: the signature over a transcript by the identity key. -/
def State.spdmSign (s : State) (bs : List Byte) : List Byte := ed448Sign (s.identity.getD 0) (sha3 bs)

/-- CHALLENGE: a signed answer; without the identity key, Unspecified (R420). -/
def State.challenge (s : State) (slot sumKind : Nat) (nonce : List Byte) : State :=
  s.spdmAnswer false fun s => s.spdmAfter s.spdm.algs fun s =>
    if slot ≠ 0 then s.spdmError 1 0
    else if !s.idOk then s.spdmError 5 0
    else
      let (n, s1) := s.nonce
      let sum := if sumKind = 0 then [] else sha3 ((measureList 0xFF).flatMap s.measureBlock)
      let body := spdmHead 0x13 0x03 0 1 ++ sha3 s.slotZero ++ n ++ sum ++ natToBytes 2 0
      let req := spdmHead 0x13 0x83 slot sumKind ++ nonce
      let s2 := s1.record (req ++ body)
      { s2 with spdm := { s2.spdm with script := [] } }.spdmSend (body ++ s2.spdmSign s2.spdm.script)

/-- GET_MEASUREMENTS: R423's record is kept to; signed ones need the identity key (R420). -/
def State.getMeasurements (s : State) (index : Nat) (signed : Bool) (nonce : List Byte) : State :=
  s.spdmAnswer false fun s => s.spdmAfter s.spdm.algs fun s =>
    let overtaken : Bool := match s.spdm.began with | some n => n != s.spdm.record | none => false
    if overtaken then { s with spdm := { s.spdm with began := none, script := [] } }.spdmError 0x43 0
    else if 10 < index ∧ index ≠ 0xFF then s.spdmError 1 0
    else if signed && !s.idOk then s.spdmError 5 0
    else
      let (n, s1) := s.nonce
      let blocks := (measureList index).flatMap s.measureBlock
      let body := spdmHead 0x13 0x60 (if index = 0 then 10 else 0) 0 ++ natToBytes 1 (measureList index).length ++ natToBytes 3 blocks.length
        ++ blocks ++ n ++ natToBytes 2 0
      let s2 := s1.record (spdmHead 0x13 0xE0 (if signed then 1 else 0) index ++ nonce ++ body)
      if signed then { s2 with spdm := { s2.spdm with began := none, script := [] } }.spdmSend (body ++ s2.spdmSign s2.spdm.script)
      else { s2 with spdm := { s2.spdm with began := some s2.spdm.record } }.spdmSend body

/-- SPDM_UNSUPPORTED_REQUEST: any request R422 does not list. -/
def State.spdmUnsupported (s : State) (code : Nat) : State :=
  if [0x81, 0x82, 0x83, 0x84, 0xE0, 0xE1, 0xE3].contains (code % 256) then s else s.spdmAnswer false fun s => s.spdmError 7 (code % 256)

end Sys2Proof.Machine
end

