-- ==== Sys2Proof/Machine/RowsStream.lean ====
section
/-!
DEFINITION. Sys2Proof/Machine/RowsStream.lean: the meanings of the command rows (a queue's head issues, R101, R104, R106) and
of the events of a cluster and of its region's router.
-/
namespace Sys2Proof.Machine

/-- The head of queue `q` acts in the current beat where it has opcode `op` (R126). -/
def State.issueOp (s : State) (r k q op : Nat) : State := s.issueHead r k q fun c => Hdr.opcode c == op

/-- As `issueOp`, where a field of the body tells rows of one opcode apart. -/
def State.issueSel (s : State) (r k q op : Nat) (sel : Cmd512 → Nat) (v : Nat) (e : Env := noEnv) : State :=
  s.issueHead r k q (fun c => Hdr.opcode c == op && sel c == v) e

def carryDir (c : Cmd512) : Nat := (CarryBody.ofCmd c).dir
def redMode (c : Cmd512) : Nat := (RedBody.ofCmd c).mode
def grainMode (c : Cmd512) : Nat := (GrainBody.ofCmd c).mode
def collPhase (c : Cmd512) : Nat := cb c 17 0 2

/-! ### Common opcodes (R126), in any queue -/

/-- NOP (R126): issues and does nothing; done in its issue beat. -/
def execNop (r : Nat) (k : Nat) (q : Nat) (s : State) : Out :=
  guard (Instr.wf (.nop r k q)) s (.next (s.issueOp r k q 0))

/-- END (R94, R109): the queue stops issuing; it is idle from the next schedule beat. -/
def execEndq (r : Nat) (k : Nat) (q : Nat) (s : State) : Out :=
  guard (Instr.wf (.endq r k q)) s (.next (s.issueOp r k q 1))

/-- WAIT (R290): issues in the first beat in which the visible count reaches W_THRESH, raising MATCHED. -/
def execWait (r : Nat) (k : Nat) (q : Nat) (s : State) : Out :=
  guard (Instr.wf (.wait r k q)) s (.next (s.issueOp r k q 2))

/-- SIGNAL (R285): increments S_FLAG by S_INC in its issue beat. -/
def execSignal (r : Nat) (k : Nat) (q : Nat) (s : State) : Out :=
  guard (Instr.wf (.signal r k q)) s (.next (s.issueOp r k q 3))

/-- BARRIER (R298): arrives at its cluster and holds its queue until the release. -/
def execBarrier (r : Nat) (k : Nat) (q : Nat) (s : State) : Out :=
  guard (Instr.wf (.barrier r k q)) s (.next (s.issueOp r k q 4))

/-- STEP_POINT (R121): holds a training queue until the sequencer returns; a NOP in an evaluation. -/
def execStepPoint (r : Nat) (k : Nat) (q : Nat) (s : State) : Out :=
  guard (Instr.wf (.stepPoint r k q)) s (.next (s.issueOp r k q 5))

/-- EVAL_POINT (R123): stops an evaluation queue from the switch beat plus BUDGET on; a NOP in training. -/
def execEvalPoint (r : Nat) (k : Nat) (q : Nat) (s : State) : Out :=
  guard (Instr.wf (.evalPoint r k q)) s (.next (s.issueOp r k q 6))

/-- EVAL_END (R123, R125): stops an evaluation queue at the end of its pass. -/
def execEvalEnd (r : Nat) (k : Nat) (q : Nat) (s : State) : Out :=
  guard (Instr.wf (.evalEnd r k q)) s (.next (s.issueOp r k q 7))

/-! ### Matrix array (R171), queue 0 -/

/-- MMA (R171): the command goes into flight; its beats read A, B and C and write C. -/
def execMma (r : Nat) (k : Nat) (s : State) : Out :=
  guard (Instr.wf (.mma r k)) s (.next (s.issueOp r k 0 0x040))

/-- DIST_L1 (R171): the command goes into flight; its beats read A, B and C and write C. -/
def execDistL1 (r : Nat) (k : Nat) (s : State) : Out :=
  guard (Instr.wf (.distL1 r k)) s (.next (s.issueOp r k 0 0x041))

/-- DIST_L2 (R171): the command goes into flight; its beats read A, B and C and write C. -/
def execDistL2 (r : Nat) (k : Nat) (s : State) : Out :=
  guard (Instr.wf (.distL2 r k)) s (.next (s.issueOp r k 0 0x042))

/-- MINPLUS (R171): the command goes into flight; its beats read A, B and C and write C. -/
def execMinplus (r : Nat) (k : Nat) (s : State) : Out :=
  guard (Instr.wf (.minplus r k)) s (.next (s.issueOp r k 0 0x043))

/-- MAXPLUS (R171): the command goes into flight; its beats read A, B and C and write C. -/
def execMaxplus (r : Nat) (k : Nat) (s : State) : Out :=
  guard (Instr.wf (.maxplus r k)) s (.next (s.issueOp r k 0 0x044))

/-- CMPCOUNT (R171): the command goes into flight; its beats read A, B and C and write C. -/
def execCmpcount (r : Nat) (k : Nat) (s : State) : Out :=
  guard (Instr.wf (.cmpcount r k)) s (.next (s.issueOp r k 0 0x045))

/-! ### Vector engines, queues 1 and 2 -/

/-- VMAP (R189). -/
def execVmap (r : Nat) (k : Nat) (v : Nat) (s : State) : Out :=
  guard (Instr.wf (.vmap r k v)) s (.next (s.issueOp r k (1 + v) 0x080))

/-- VCVT (R196). -/
def execVcvt (r : Nat) (k : Nat) (v : Nat) (s : State) : Out :=
  guard (Instr.wf (.vcvt r k v)) s (.next (s.issueOp r k (1 + v) 0x081))

/-- VSCAN (R200). -/
def execVscan (r : Nat) (k : Nat) (v : Nat) (s : State) : Out :=
  guard (Instr.wf (.vscan r k v)) s (.next (s.issueOp r k (1 + v) 0x082))

/-- VSTAT (R209). -/
def execVstat (r : Nat) (k : Nat) (v : Nat) (s : State) : Out :=
  guard (Instr.wf (.vstat r k v)) s (.next (s.issueOp r k (1 + v) 0x083))

/-- VCARRY with DIR 0 (R205): carry file to scratchpad. -/
def execVcarryStore (r : Nat) (k : Nat) (v : Nat) (s : State) : Out :=
  guard (Instr.wf (.vcarryStore r k v)) s (.next (s.issueSel r k (1 + v) 0x084 carryDir 0))

/-- VCARRY with DIR 1 (R205): scratchpad to carry file. -/
def execVcarryLoad (r : Nat) (k : Nat) (v : Nat) (s : State) : Out :=
  guard (Instr.wf (.vcarryLoad r k v)) s (.next (s.issueSel r k (1 + v) 0x084 carryDir 1))

/-- RMSNORM (R231). -/
def execRmsnorm (r : Nat) (k : Nat) (v : Nat) (s : State) : Out :=
  guard (Instr.wf (.rmsnorm r k v)) s (.next (s.issueOp r k (1 + v) 0x085))

/-- VSFU (R219) (R227). -/
def execVsfu (r : Nat) (k : Nat) (v : Nat) (s : State) : Out :=
  guard (Instr.wf (.vsfu r k v)) s (.next (s.issueOp r k (1 + v) 0x086))

/-- VCHISEL (R240). -/
def execVchisel (r : Nat) (k : Nat) (v : Nat) (s : State) : Out :=
  guard (Instr.wf (.vchisel r k v)) s (.next (s.issueOp r k (1 + v) 0x087))

/-- VRED in mode LEAF (R364, R365) (R347). -/
def execVredLeaf (r : Nat) (k : Nat) (v : Nat) (s : State) : Out :=
  guard (Instr.wf (.vredLeaf r k v)) s (.next (s.issueSel r k (1 + v) 0x088 redMode 0))

/-- VRED in mode NODE (R364, R365) (R349). -/
def execVredNode (r : Nat) (k : Nat) (v : Nat) (s : State) : Out :=
  guard (Instr.wf (.vredNode r k v)) s (.next (s.issueSel r k (1 + v) 0x088 redMode 1))

/-- VRED in mode FINAL (R364, R365) (R355). -/
def execVredFinal (r : Nat) (k : Nat) (v : Nat) (s : State) : Out :=
  guard (Instr.wf (.vredFinal r k v)) s (.next (s.issueSel r k (1 + v) 0x088 redMode 2))

/-- VRED in mode FOLD (R364, R365) (R354). -/
def execVredFold (r : Nat) (k : Nat) (v : Nat) (s : State) : Out :=
  guard (Instr.wf (.vredFold r k v)) s (.next (s.issueSel r k (1 + v) 0x088 redMode 3))

/-- VGRAIN in mode SETID (R375). -/
def execVgrainSetid (r : Nat) (k : Nat) (v : Nat) (s : State) : Out :=
  guard (Instr.wf (.vgrainSetid r k v)) s (.next (s.issueSel r k (1 + v) 0x089 grainMode 0))

/-- VGRAIN in mode RAW (R376). -/
def execVgrainRaw (r : Nat) (k : Nat) (v : Nat) (s : State) : Out :=
  guard (Instr.wf (.vgrainRaw r k v)) s (.next (s.issueSel r k (1 + v) 0x089 grainMode 1))

/-- VGRAIN in mode UNIFORM (R376). -/
def execVgrainUniform (r : Nat) (k : Nat) (v : Nat) (s : State) : Out :=
  guard (Instr.wf (.vgrainUniform r k v)) s (.next (s.issueSel r k (1 + v) 0x089 grainMode 2))

/-- VGRAIN in mode BERNOULLI (R376). -/
def execVgrainBernoulli (r : Nat) (k : Nat) (v : Nat) (s : State) : Out :=
  guard (Instr.wf (.vgrainBernoulli r k v)) s (.next (s.issueSel r k (1 + v) 0x089 grainMode 3))

/-- VGRAIN in mode NORMAL (R376). -/
def execVgrainNormal (r : Nat) (k : Nat) (v : Nat) (s : State) : Out :=
  guard (Instr.wf (.vgrainNormal r k v)) s (.next (s.issueSel r k (1 + v) 0x089 grainMode 4))

/-! ### Movers, turntable and descriptor loads, queue 3 -/

/-- MVCOPY (R149): the command goes into flight; its mover takes it up (R150). -/
def execMvcopy (r : Nat) (k : Nat) (s : State) : Out :=
  guard (Instr.wf (.mvcopy r k)) s (.next (s.issueOp r k 3 0x0C0))

/-- MVSET (R275): the command goes into flight; its mover takes it up (R276). -/
def execMvset (r : Nat) (k : Nat) (s : State) : Out :=
  guard (Instr.wf (.mvset r k)) s (.next (s.issueOp r k 3 0x0C1))

/-- MVATOM (R328): the command goes into flight; its mover takes it up (R329). -/
def execMvatom (r : Nat) (k : Nat) (s : State) : Out :=
  guard (Instr.wf (.mvatom r k)) s (.next (s.issueOp r k 3 0x0C2))

/-- MVCOLL in phase UP (R361, R362) (R343). -/
def execMvcollUp (r : Nat) (k : Nat) (e : Env) (s : State) : Out :=
  guard (Instr.wf (.mvcollUp r k e)) s (.next (s.issueSel r k 3 0x0C3 collPhase 0 e))

/-- MVCOLL in phase RECV (R361, R362) (R350). -/
def execMvcollRecv (r : Nat) (k : Nat) (e : Env) (s : State) : Out :=
  guard (Instr.wf (.mvcollRecv r k e)) s (.next (s.issueSel r k 3 0x0C3 collPhase 1 e))

/-- MVCOLL in phase DOWN (R361, R362) (R357). -/
def execMvcollDown (r : Nat) (k : Nat) (e : Env) (s : State) : Out :=
  guard (Instr.wf (.mvcollDown r k e)) s (.next (s.issueSel r k 3 0x0C3 collPhase 2 e))

/-- MVCOLL in phase RDOWN (R361, R362) (R357). -/
def execMvcollRdown (r : Nat) (k : Nat) (e : Env) (s : State) : Out :=
  guard (Instr.wf (.mvcollRdown r k e)) s (.next (s.issueSel r k 3 0x0C3 collPhase 3 e))

/-- TTIN (R155): the turntable fills its tile. -/
def execTtin (r : Nat) (k : Nat) (s : State) : Out :=
  guard (Instr.wf (.ttin r k)) s (.next (s.issueOp r k 3 0x0D0))

/-- TTOUT (R155): the turntable drains its tile. -/
def execTtout (r : Nat) (k : Nat) (s : State) : Out :=
  guard (Instr.wf (.ttout r k)) s (.next (s.issueOp r k 3 0x0D1))

/-- DESC_LOAD (R112, R113). -/
def execDescLoad (r : Nat) (k : Nat) (s : State) : Out :=
  guard (Instr.wf (.descLoad r k)) s (.next (s.issueOp r k 3 0x0E0))

/-! ### Doorbells -/

/-- SEQ_DOORBELL (R92). -/
def execSeqDoorbell (p : Party) (r : Nat) (k : Nat) (qmask : Nat) (s : State) : Out :=
  guard (Instr.wf (.seqDoorbell p r k qmask)) s (.next (s.csrWrite p (A.doorbell r k) (qmask % 16) WriteEnv.none))

/-- SEQ_LDOORBELL (R95). -/
def execSeqLdoorbell (p : Party) (r : Nat) (lcluster : Nat) (qmask : Nat) (s : State) : Out :=
  guard (Instr.wf (.seqLdoorbell p r lcluster qmask)) s (.next (s.csrWrite p (A.ldoorbell r) (qmask % 16 + lcluster % 16 * 16) WriteEnv.none))

/-! ### Events of a cluster -/

/-- A cluster's own event, in a beat of that cluster (R33). -/
def State.inBeat (s : State) (r k : Nat) (f : State → State) : State := if s.beats r k then f s else s

/-- R102: a hold beat, where a cause holds and no access is owed a stretch beat. -/
def State.holdOne (s : State) (r k : Nat) : State :=
  let s1 := (s.beginBeat r k).descBefore r k
  match s1.holdCause r k with
  | some a => if (s.cl r k).yields then s else s1.holdBeat r k a
  | none => s

/-- R109: the done point of one timed command, in or after its beat. -/
def State.doneOne (s : State) (r k id : Nat) : State :=
  match (s.cl r k).dueDone.find? fun l => l.id == id with
  | some l => s.donePoint r k l
  | none => s

/-- A region's movers, fetches and walks start nothing new while the module is not at READY or the region is in reset (R64, R479). -/
def State.regionRuns (s : State) (r : Nat) (f : State → State) : State := if s.up && !(s.rg r).inReset then f s else s

/-- R257: a waiting request is translated, unless its walks have to wait. -/
def State.walkOne (s : State) (r id beats : Nat) (e : Env) : State :=
  match s.waitingReq r id with
  | none => s
  | some q => if s.mayWalk r q e then s.translate r q beats e else s

/-- What happens only at READY. -/
def State.whenUp (s : State) (f : State → State) : State := if s.up then f s else s

/-- START_BEAT (R92): sets whose queues hold their first commands start. -/
def execStartBeat (r : Nat) (k : Nat) (s : State) : Out :=
  guard (Instr.wf (.startBeat r k)) s (.next (s.inBeat r k fun s => s.startBeats r k))

/-- QUEUE_FETCH_REQUEST (R96). -/
def execQueueFetchRequest (r : Nat) (k : Nat) (q : Nat) (s : State) : Out :=
  guard (Instr.wf (.queueFetchRequest r k q)) s (.next (s.inBeat r k fun s => s.regionRuns r fun s => if s.mayFetch r k q then s.fetchReq r k q else s))

/-- QUEUE_FETCH_COMPLETE (R96, R266). -/
def execQueueFetchComplete (r : Nat) (id : Nat) (e : Env) (s : State) : Out :=
  guard (Instr.wf (.queueFetchComplete r id e)) s (.next (s.thenRetry fun s => s.queueFetchComplete r id e))

/-- CLUSTER_BEAT (R33): one beat; a stretch or hold beat where one is due. -/
def execClusterBeat (r : Nat) (k : Nat) (e : Env) (s : State) : Out :=
  guard (Instr.wf (.clusterBeat r k e)) s (.next (s.thenRetry fun s => s.clusterBeat r k e))

/-- STRETCH_YIELD (R50). -/
def execStretchYield (r : Nat) (k : Nat) (s : State) : Out :=
  guard (Instr.wf (.stretchYield r k)) s (.next (s.thenRetry fun s => s.inBeat r k fun s => if (s.cl r k).yields then s.yieldBeat r k else s))

/-- HOLD_BEAT (R102). -/
def execHoldBeat (r : Nat) (k : Nat) (s : State) : Out :=
  guard (Instr.wf (.holdBeat r k)) s (.next (s.thenRetry fun s => s.inBeat r k fun s => s.holdOne r k))

/-- TIMED_DONE_POINT (R109). -/
def execTimedDonePoint (r : Nat) (k : Nat) (id : Nat) (s : State) : Out :=
  guard (Instr.wf (.timedDonePoint r k id)) s (.next (s.inBeat r k fun s => s.doneOne r k id))

/-- DESC_LOAD_DONE (R112, R113) (R109). -/
def execDescLoadDone (r : Nat) (id : Nat) (e : Env) (s : State) : Out :=
  guard (Instr.wf (.descLoadDone r id e)) s (.next (s.thenRetry fun s => s.descLoadDone r id e))

/-- MOVER_COMMAND_START (R56, R115). -/
def execMoverCommandStart (r : Nat) (k : Nat) (m : Nat) (e : Env) (s : State) : Out :=
  guard (Instr.wf (.moverCommandStart r k m e)) s (.next (s.regionRuns r fun s => s.moverCommandStart r k m e))

/-- TRANSLATION_WALK (R257, R259). -/
def execTranslationWalk (r : Nat) (id : Nat) (beats : Nat) (e : Env) (s : State) : Out :=
  guard (Instr.wf (.translationWalk r id beats e)) s (.next (s.regionRuns r fun s => s.walkOne r id beats e))

/-- ADMISSION_ACCEPT (R57, R58). -/
def execAdmissionAccept (r : Nat) (id : Nat) (e : Env) (s : State) : Out :=
  guard (Instr.wf (.admissionAccept r id e)) s (.next (s.admissionAccept r id e))

/-- MOVER_REQUEST_COMPLETE (R60). -/
def execMoverRequestComplete (r : Nat) (id : Nat) (e : Env) (s : State) : Out :=
  guard (Instr.wf (.moverRequestComplete r id e)) s (.next (s.thenRetry fun s => s.moverRequestComplete r id e))

/-- CXL_REQUEST_TIMEOUT (R270). -/
def execCxlRequestTimeout (r : Nat) (id : Nat) (e : Env) (s : State) : Out :=
  guard (Instr.wf (.cxlRequestTimeout r id e)) s (.next (s.thenRetry fun s => s.cxlTimeout r id e))

/-- MLM_WINDOW_TIMEOUT (R274). -/
def execMlmWindowTimeout (r : Nat) (id : Nat) (e : Env) (s : State) : Out :=
  guard (Instr.wf (.mlmWindowTimeout r id e)) s (.next (s.thenRetry fun s => s.mlmTimeout r id e))

/-- REMOTE_REQUEST_TIMEOUT (R327): what the packets that were answered carried is used. -/
def execRemoteRequestTimeout (r : Nat) (id : Nat) (e : Env) (s : State) : Out :=
  guard (Instr.wf (.remoteRequestTimeout r id e)) s (.next (s.thenRetry fun s => s.remoteTimeout r id e))

/-- EVAL_SWITCH (R121, R122). -/
def execEvalSwitch (r : Nat) (k : Nat) (s : State) : Out :=
  guard (Instr.wf (.evalSwitch r k)) s (.next (s.inBeat r k fun s => s.evalSwitch r k))

/-- SWITCH_BEAT (R122). -/
def execSwitchBeat (r : Nat) (k : Nat) (s : State) : Out :=
  guard (Instr.wf (.switchBeat r k)) s (.next (s.inBeat r k fun s => s.switchBeat r k))

/-- STEP_RETURN_NO_SWITCH (R121). -/
def execStepReturnNoSwitch (r : Nat) (k : Nat) (s : State) : Out :=
  guard (Instr.wf (.stepReturnNoSwitch r k)) s (.next (s.inBeat r k fun s => s.returnNoSwitch r k))

/-- EVAL_RETURN (R124). -/
def execEvalReturn (r : Nat) (k : Nat) (s : State) : Out :=
  guard (Instr.wf (.evalReturn r k)) s (.next (s.inBeat r k fun s => s.evalReturn r k))

/-- RETURN_BEAT (R124). -/
def execReturnBeat (r : Nat) (k : Nat) (s : State) : Out :=
  guard (Instr.wf (.returnBeat r k)) s (.next (s.inBeat r k fun s => s.returnBeat r k))

/-! ### Counters and barriers -/

/-- INCREMENT_VISIBLE (R292). -/
def execIncrementVisible (r : Nat) (k : Nat) (n : Nat) (s : State) : Out :=
  guard (Instr.wf (.incrementVisible r k n)) s (.next (s.incVisible r k n))

/-- SYNC_POKE (R293). -/
def execSyncPoke (p : Party) (r : Nat) (index : Nat) (inc : Nat) (s : State) : Out :=
  guard (Instr.wf (.syncPoke p r index inc)) s (.next (s.csrWrite p (A.poke r) (index % 512 + inc % 16777216 * 65536) WriteEnv.none))

/-- BARRIER_NODE_ARRIVAL (R298, R299). -/
def execBarrierNodeArrival (n : Nat) (s : State) : Out :=
  guard (Instr.wf (.barrierNodeArrival n)) s (.next (s.whenUp fun s => s.nodeArrival n))

/-- BARRIER_RELEASE (R294 to R300, R388). -/
def execBarrierRelease (n : Nat) (s : State) : Out :=
  guard (Instr.wf (.barrierRelease n)) s (.next (s.whenUp fun s => s.barrierRelease n))

/-- SWAP_BEAT (R445). -/
def execSwapBeat (s : State) : Out :=
  guard (Instr.wf .swapBeat) s (.next (s.whenUp State.swapBeat))

end Sys2Proof.Machine
end

