-- ==== Sys2Proof/Machine/RowsEvents.lean ====
section
/-!
DEFINITION. Sys2Proof/Machine/RowsEvents.lean: the meanings of what Ralrad, the links, the pins and the peers do: background
work, power and boot, packets and flits.
-/
namespace Sys2Proof.Machine

/-! ### Governor, monitors, background work -/

/-- GOVERNOR_INTERVAL (R39 to R42): classes whose credit returns are served again. -/
def execGovernorInterval (x : Readings) (s : State) : Out :=
  guard (Instr.wf (.governorInterval x)) s (.next (s.thenRetry fun s => s.governor x))

/-- PACE_MEASUREMENT (R38, R45). -/
def execPaceMeasurement (r : Nat) (k : Nat) (pace : Nat) (s : State) : Out :=
  guard (Instr.wf (.paceMeasurement r k pace)) s (.next (s.paceMeasured r k pace))

/-- PATINA_MONITOR (R460, R461). -/
def execPatinaMonitor (r : Nat) (k : Nat) (patina : Nat) (s : State) : Out :=
  guard (Instr.wf (.patinaMonitor r k patina)) s (.next (s.patina r k patina))

/-- HEALTH_MONITOR_TICK (R383, R384). -/
def execHealthMonitorTick (e : Env) (s : State) : Out :=
  guard (Instr.wf (.healthMonitorTick e)) s (.next (s.healthTick e))

/-- TELEMETRY_UPDATE (R487) (R463). -/
def execTelemetryUpdate (x : Readings) (s : State) : Out :=
  guard (Instr.wf (.telemetryUpdate x)) s (.next (s.telemetry x))

/-- HEARTBEAT (R471 to R474). -/
def execHeartbeat (s : State) : Out :=
  guard (Instr.wf .heartbeat) s (.next (s.heartbeat))

/-- SRAM_SCRUB_READ (R251, R457). -/
def execSramScrubRead (r : Nat) (k : Nat) (bank : Nat) (e : Env) (s : State) : Out :=
  guard (Instr.wf (.sramScrubRead r k bank e)) s (.next (s.sramScrub r k bank e))

/-- PATROL_SCRUB (R265). -/
def execPatrolScrub (stack : Nat) (e : Env) (s : State) : Out :=
  guard (Instr.wf (.patrolScrub stack e)) s (.next (s.patrolScrub stack e))

/-- HBM_RECALIBRATION (R458). -/
def execHbmRecalibration (e : Env) (s : State) : Out :=
  guard (Instr.wf (.hbmRecalibration e)) s (.next (s.thenRetry fun s => s.recalibrate e))

/-- ANALOGUE_CHECK (R470). -/
def execAnalogueCheck (temps : Nat) (vin : Nat) (vref : Nat) (s : State) : Out :=
  guard (Instr.wf (.analogueCheck temps vin vref)) s (.next (s.analogueCheck temps vin vref))

/-- DRBG_RESEED (R407). -/
def execDrbgReseed (healthy : Bool) (s : State) : Out :=
  guard (Instr.wf (.drbgReseed healthy)) s (.next (s.drbgReseed healthy))

/-! ### Power, boot, recovery -/

/-- PORST_N asserted (R4, R480, R485). -/
def execPorstAssert (s : State) : Out :=
  guard (Instr.wf .porstAssert) s (.next (s.porstAssert))

/-- PORST_N released (R441, R485). -/
def execPorstRelease (railsGood : Bool) (hottest : Int) (e : BootEnv) (s : State) : Out :=
  guard (Instr.wf (.porstRelease railsGood hottest e)) s (.next (s.porstRelease railsGood hottest e))

/-- BOOT_READY (R441). -/
def execBootReady (e : BootEnv) (s : State) : Out :=
  guard (Instr.wf (.bootReady e)) s (.next (s.bootReady e))

/-- VIN_UNDERVOLTAGE (R484). -/
def execVinUndervoltage (mv : Nat) (us : Nat) (s : State) : Out :=
  guard (Instr.wf (.vinUndervoltage mv us)) s (.next (s.vinUnder mv us))

/-- VIN_OVERVOLTAGE (R484). -/
def execVinOvervoltage (mv : Nat) (us : Nat) (s : State) : Out :=
  guard (Instr.wf (.vinOvervoltage mv us)) s (.next (s.vinOver mv us))

/-- THERMAL_TRIP (R488) (R492). -/
def execThermalTrip (junction : Int) (hbm : Int) (us : Nat) (s : State) : Out :=
  guard (Instr.wf (.thermalTrip junction hbm us)) s (.next (s.thermalTrip junction hbm us))

/-- RECOV_N_EDGE (R486). -/
def execRecovEdge (us : Nat) (s : State) : Out :=
  guard (Instr.wf (.recovEdge us)) s (.next (s.recovEdge us))

/-- HLT_RECOVER (R479, R481). -/
def execHltRecover (p : Party) (key : Nat) (go : Bool) (s : State) : Out :=
  guard (Instr.wf (.hltRecover p key go)) s (.next (s.csrWrite p A.hltRecover (key % 65536 + if go then 65536 else 0) WriteEnv.none))

/-- RECOVERY_COMPLETE (R479, R480). -/
def execRecoveryComplete (e : BootEnv) (s : State) : Out :=
  guard (Instr.wf (.recoveryComplete e)) s (.next (s.recoveryComplete e))

/-- INTERNAL_RESET_RELEASE (R485). -/
def execInternalResetRelease (railsGood : Bool) (hottest : Int) (e : BootEnv) (s : State) : Out :=
  guard (Instr.wf (.internalResetRelease railsGood hottest e)) s (.next (s.internalRelease railsGood hottest e))

/-! ### Links -/

/-- DEFAULT_ROUTING_UPDATE (R318). -/
def execDefaultRoutingUpdate (s : State) : Out :=
  guard (Instr.wf .defaultRoutingUpdate) s (.next (s.thenRetry State.routingUpdate))

/-- GRACE_EXPIRY (R335). -/
def execGraceExpiry (s : State) : Out :=
  guard (Instr.wf .graceExpiry) s (.next (s.graceExpiry))

/-- FLIT_RECEIVE (R307, R308). -/
def execFlitReceive (port : Nat) (f : Flit) (s : State) : Out :=
  guard (Instr.wf (.flitReceive port f)) s (.next (s.flitReceive port f))

/-- FLIT_REPLAY (R308). -/
def execFlitReplay (port : Nat) (seq : Nat) (s : State) : Out :=
  guard (Instr.wf (.flitReplay port seq)) s (.next (s.flitReplay port seq))

/-- LINK_CONTROL_FLIT (R309, R310). -/
def execLinkControlFlit (port : Nat) (l : LinkCtl) (s : State) : Out :=
  guard (Instr.wf (.linkControlFlit port l)) s (.next (s.thenRetry fun s => s.linkControl port l))

/-- PORT_TRAINING_COMPLETE (R309) (R306). -/
def execPortTrainingComplete (port : Nat) (lanes : Nat) (rtt : Nat) (l : LinkCtl) (s : State) : Out :=
  guard (Instr.wf (.portTrainingComplete port lanes rtt l)) s (.next (s.thenRetry fun s => s.portTrained port lanes rtt l))

/-- PORT_RETRAIN_TIMEOUT (R308, R309). -/
def execPortRetrainTimeout (port : Nat) (s : State) : Out :=
  guard (Instr.wf (.portRetrainTimeout port)) s (.next (s.retrainTimeout port))

/-- MLM_PORT_RETRAIN (R493) (R496). -/
def execMlmPortRetrain (m : Nat) (lanes : Nat) (s : State) : Out :=
  guard (Instr.wf (.mlmPortRetrain m lanes)) s (.next (s.mlmRetrain m lanes))

/-- LINK_GOES_DOWN (R308, R269, R493) (R268). -/
def execLinkGoesDown (kind : Nat) (port : Nat) (s : State) : Out :=
  guard (Instr.wf (.linkGoesDown kind port)) s (.next (s.linkGoesDown kind port))

/-- CXL_EVENT_RECORD (R271) (R270). -/
def execCxlEventRecord (port : Nat) (corrected : Nat) (media : Nat) (s : State) : Out :=
  guard (Instr.wf (.cxlEventRecord port corrected media)) s (.next (s.cxlEvents port corrected media))

/-! ### Packets (R312, R313, R322 to R326, R366, R417) -/

/-- PACKET_TRANSIT (R317, R319). -/
def execPacketTransit (x : Pkt) (s : State) : Out :=
  guard (Instr.wf (.packetTransit x)) s (.next (s.packetTransit x))

/-- RD_REQ arrives (R323). -/
def execRdReq (x : Pkt) (e : Env) (s : State) : Out :=
  guard (Instr.wf (.rdReq x e)) s (.next (s.receive 1 x fun s => s.rdReq (HeldPkt.fresh x e)))

/-- RD_DATA arrives (R324). -/
def execRdData (x : Pkt) (s : State) : Out :=
  guard (Instr.wf (.rdData x)) s (.next (s.receive 2 x fun s => s.completion x))

/-- WR arrives (R325). -/
def execWr (x : Pkt) (e : Env) (s : State) : Out :=
  guard (Instr.wf (.wr x e)) s (.next (s.receive 3 x fun s => s.wrReq (HeldPkt.fresh x e)))

/-- WR_CPL arrives (R325). -/
def execWrCpl (x : Pkt) (s : State) : Out :=
  guard (Instr.wf (.wrCpl x)) s (.next (s.receive 4 x fun s => s.completion x))

/-- ATOM arrives (R329). -/
def execAtom (x : Pkt) (e : Env) (s : State) : Out :=
  guard (Instr.wf (.atom x e)) s (.next (s.receive 5 x fun s => s.atomReq (HeldPkt.fresh x e)))

/-- ATOM_CPL arrives (R324). -/
def execAtomCpl (x : Pkt) (s : State) : Out :=
  guard (Instr.wf (.atomCpl x)) s (.next (s.receive 6 x fun s => s.completion x))

/-- FLAG_INC arrives (R324). -/
def execFlagInc (x : Pkt) (s : State) : Out :=
  guard (Instr.wf (.flagInc x)) s (.next (s.receive 7 x fun s => s.flagIncReq x))

/-- BAR_ARRIVE arrives (R299). -/
def execBarArrive (x : Pkt) (s : State) : Out :=
  guard (Instr.wf (.barArrive x)) s (.next (s.receive 8 x fun s => s.barArrive x))

/-- BAR_RELEASE arrives (R299). -/
def execBarRelease (x : Pkt) (s : State) : Out :=
  guard (Instr.wf (.barRelease x)) s (.next (s.receive 9 x fun s => s.barRelease x))

/-- COLL_UP arrives (R366). -/
def execCollUp (x : Pkt) (e : Env) (s : State) : Out :=
  guard (Instr.wf (.collUp x e)) s (.next (s.receive 0x10 x fun s => s.collReq (HeldPkt.fresh x e) true))

/-- COLL_DOWN arrives (R366). -/
def execCollDown (x : Pkt) (e : Env) (s : State) : Out :=
  guard (Instr.wf (.collDown x e)) s (.next (s.receive 0x11 x fun s => s.collReq (HeldPkt.fresh x e) false))

/-- COLL_CPL arrives (R362). -/
def execCollCpl (x : Pkt) (s : State) : Out :=
  guard (Instr.wf (.collCpl x)) s (.next (s.receive 0x12 x fun s => s.completion x))

/-- KEX_HELLO arrives (R417). -/
def execKexHello (x : Pkt) (chainOk : Bool) (s : State) : Out :=
  guard (Instr.wf (.kexHello x chainOk)) s (.next (s.thenRetry fun s => s.receive 0x20 x fun s => s.kexHello x chainOk))

/-- KEX_REPLY arrives (R417). -/
def execKexReply (x : Pkt) (chainOk : Bool) (s : State) : Out :=
  guard (Instr.wf (.kexReply x chainOk)) s (.next (s.thenRetry fun s => s.receive 0x21 x fun s => s.kexReply x chainOk))

/-! ### Companion requests (R494, R500, R501) -/

/-- RD_REQ of the companion (R500). -/
def execMlmRdReq (m : Nat) (x : Pkt) (e : Env) (s : State) : Out :=
  guard (Instr.wf (.mlmRdReq m x e)) s (.next (s.mlmRequest m 1 x e))

/-- WR of the companion (R501). -/
def execMlmWr (m : Nat) (x : Pkt) (e : Env) (s : State) : Out :=
  guard (Instr.wf (.mlmWr m x e)) s (.next (s.mlmRequest m 3 x e))

/-- ATOM of the companion (R500). -/
def execMlmAtom (m : Nat) (x : Pkt) (e : Env) (s : State) : Out :=
  guard (Instr.wf (.mlmAtom m x e)) s (.next (s.mlmRequest m 5 x e))

/-- KEX_HELLO of the companion (R419, R495). -/
def execMlmKexHello (m : Nat) (x : Pkt) (s : State) : Out :=
  guard (Instr.wf (.mlmKexHello m x)) s (.next (s.mlmKexHello m x))

/-! ### Collectives and snapshots -/

/-- RECV_RIGHT_COMPLETE (R348, R357) (R350). -/
def execRecvRightComplete (r : Nat) (k : Nat) (id : Nat) (ns : Nat) (e : Env) (s : State) : Out :=
  guard (Instr.wf (.recvRightComplete r k id ns e)) s (.next (s.whenUp fun s => s.recvRight r k id ns e))

/-- RECV_DEADLINE (R354, R357) (R350). -/
def execRecvDeadline (r : Nat) (k : Nat) (id : Nat) (ns : Nat) (e : Env) (s : State) : Out :=
  guard (Instr.wf (.recvDeadline r k id ns e)) s (.next (s.whenUp fun s => s.recvDeadline r k id ns e))

/-- SNAP_PART_COPY (R390 to R393). -/
def execSnapPartCopy (c : Nat) (e : Env) (s : State) : Out :=
  guard (Instr.wf (.snapPartCopy c e)) s (.next (s.thenRetry fun s => s.whenUp fun s => s.snapPartCopy c e))

end Sys2Proof.Machine
end

