-- ==== Sys2Proof/Machine/RowsControl.lean ====
section
/-!
DEFINITION. Sys2Proof/Machine/RowsControl.lean: the meanings of the rows that software, the operator and the board raise: writes
of named registers with a field of theirs set (R13, R426), what Ralrad finishes for them, the debug port, I3C, SPDM.
-/
namespace Sys2Proof.Machine

/-- A write of a control register (R425, R426, R512), nothing coming from outside with it. -/
def State.wrReg (s : State) (p : Party) (a w : Nat) : State := s.csrWrite p a w WriteEnv.none

/-! ### Resets, ownership, keys, scrub, translation -/

/-- REGION_RESET: HLT_RESET_REQ names a region (R475, R481) (R64). -/
def execRegionReset (p : Party) (r : Nat) (s : State) : Out :=
  guard (Instr.wf (.regionReset p r)) s (.next (s.wrReg p A.resetReq (r % 64 * 2 + 128)))

/-- DIE_RESET: HLT_RESET_REQ names a die (R475, R481) (R477). -/
def execDieReset (p : Party) (d : Nat) (s : State) : Out :=
  guard (Instr.wf (.dieReset p d)) s (.next (s.wrReg p A.resetReq (1 + d % 64 * 2 + 128)))

/-- DIE_CORE_TIMEOUT (R475). -/
def execDieCoreTimeout (d : Nat) (ms : Nat) (s : State) : Out :=
  guard (Instr.wf (.dieCoreTimeout d ms)) s (.next (s.dieCoreTimeout d ms))

/-- RESET_COMPLETE of a die or a region (R64, R475 to R478): what waited for its memory is taken again. -/
def execResetComplete (die : Bool) (n : Nat) (trained : Nat) (s : State) : Out :=
  guard (Instr.wf (.resetComplete die n trained)) s (.next (s.thenRetry fun s => s.whenUp fun s => if die then s.dieResetDone n trained else s.regionResetDone n))

/-- ASSIGN (R403). -/
def execAssign (p : Party) (r : Nat) (c : Nat) (s : State) : Out :=
  guard (Instr.wf (.assign p r c)) s (.next (s.wrReg p A.regionAssign (r % 64 + c % 16 * 64 + 1024)))

/-- RELEASE (R404). -/
def execRelease (p : Party) (r : Nat) (s : State) : Out :=
  guard (Instr.wf (.release p r)) s (.next (s.wrReg p A.regionAssign (r % 64 + 2048)))

/-- REGION_LOADS_COMPLETE (R403, R476) (R238). -/
def execRegionLoadsComplete (r : Nat) (e : Env) (s : State) : Out :=
  guard (Instr.wf (.regionLoadsComplete r e)) s (.next (s.whenUp fun s => s.regionLoadsDone r e))

/-- SEC_ROTATE (R411). -/
def execSecRotate (p : Party) (c : Nat) (s : State) : Out :=
  guard (Instr.wf (.secRotate p c)) s (.next (s.wrReg p A.secRotate (c % 16 + 16)))

/-- SWEEP_PAGE_COMPLETE (R412). -/
def execSweepPageComplete (c : Nat) (s : State) : Out :=
  guard (Instr.wf (.sweepPageComplete c)) s (.next (s.whenUp fun s => s.sweepPage c))

/-- SEC_SCRUB_CTRL with GO (R405). -/
def execScrubGo (p : Party) (parts : Nat) (s : State) : Out :=
  guard (Instr.wf (.scrubGo p parts)) s (.next (s.wrReg p A.scrubCtrl (parts % 1048576 + 1048576)))

/-- SCRUB_DONE (R405). -/
def execScrubDone (s : State) : Out :=
  guard (Instr.wf .scrubDone) s (.next (s.whenUp State.scrubDone))

/-- MEM_XLATE_INV (R258). -/
def execMemXlateInv (p : Party) (c : Nat) (all : Bool) (page : Nat) (s : State) : Out :=
  guard (Instr.wf (.memXlateInv p c all page)) s (.next (s.wrReg p A.xlateInv (c % 16 + (if all then 16 else 0) + page / 0x200000 % 2147483648 * 0x200000)))

/-- INVALIDATION_COMPLETE (R258). -/
def execInvalidationComplete (s : State) : Out :=
  guard (Instr.wf .invalidationComplete) s (.next (s.whenUp State.invComplete))

/-! ### Fabric, snapshots, configuration, firmware -/

/-- EKB_JOIN (R316). -/
def execEkbJoin (p : Party) (modNum : Nat) (epoch : Nat) (go : Bool) (s : State) : Out :=
  guard (Instr.wf (.ekbJoin p modNum epoch go)) s (.next (s.wrReg p A.join (modNum % 4096 + epoch % 65536 * 65536 + if go then 2 ^ 32 else 0)))

/-- EKB_CTX_JOB_c (R322). -/
def execEkbCtxJobWrite (p : Party) (c : Nat) (job : Nat) (valid : Bool) (s : State) : Out :=
  guard (Instr.wf (.ekbCtxJobWrite p c job valid)) s (.next (s.wrReg p (A.ctxJob c) (job % 65536 + if valid then 65536 else 0)))

/-- EKB_GRACE (R336). -/
def execEkbGraceWrite (p : Party) (ms : Nat) (s : State) : Out :=
  guard (Instr.wf (.ekbGraceWrite p ms)) s (.next (s.wrReg p A.grace (ms % 65536)))

/-- SNAP_CTL_c with REQ, its other fields as they stand (R387, R397). -/
def execSnapReq (p : Party) (c : Nat) (e : Env) (s : State) : Out :=
  guard (Instr.wf (.snapReq p c e)) s (.next (s.csrWrite p (A.snapCtl c) (s.regN (A.snapCtl c) ||| 2) ⟨e, none⟩))

/-- CFG_MAQ_CTRL.LOAD (R444), NOW as it stands. -/
def execMaqLoad (p : Party) (s : State) : Out :=
  guard (Instr.wf (.maqLoad p)) s (.next (s.wrReg p A.maqCtrl (s.fieldN A.maqCtrl 2 1 * 4 + 1)))

/-- MAQ_LOAD_DONE (R444). -/
def execMaqLoadDone (s : State) : Out :=
  guard (Instr.wf .maqLoadDone) s (.next (s.whenUp State.maqLoadDone))

/-- CFG_MAQ_CTRL.SWAP with NOW (R445). -/
def execMaqSwap (p : Party) (now : Bool) (s : State) : Out :=
  guard (Instr.wf (.maqSwap p now)) s (.next (s.wrReg p A.maqCtrl ((if now then 4 else 0) + 2)))

/-- CFG_MAQ_CTRL.DISCARD (R444), NOW as it stands. -/
def execMaqDiscard (p : Party) (s : State) : Out :=
  guard (Instr.wf (.maqDiscard p)) s (.next (s.wrReg p A.maqCtrl (s.fieldN A.maqCtrl 2 1 * 4 + 8)))

/-- CFG_FW_CTRL.ACTIVATE (R447). -/
def execFwActivate (p : Party) (persist : Bool) (s : State) : Out :=
  guard (Instr.wf (.fwActivate p persist)) s (.next (s.wrReg p A.fwCtrl (1 + if persist then 2 else 0)))

/-- FW_COMMIT (R424, R447): what waited for the activation is taken again. -/
def execFwCommit (s : State) : Out :=
  guard (Instr.wf .fwCommit) s (.next (s.thenRetry fun s => s.whenUp State.fwCommit))

/-- FW_ACTIVATE_TIMEOUT (R448). -/
def execFwActivateTimeout (s : State) : Out :=
  guard (Instr.wf .fwActivateTimeout) s (.next (s.whenUp State.fwTimeout))

/-- CFG_STAGE_CTRL.GO (R449, R450), the image as the environment holds it. -/
def execStageGo (p : Party) (len : Nat) (target : Nat) (e : Env) (s : State) : Out :=
  guard (Instr.wf (.stageGo p len target e)) s (.next (s.csrWrite p A.stageCtrl (len % 33554432 + target % 2 * 33554432 + 67108864) ⟨e, none⟩))

/-- STAGE_DONE (R449). -/
def execStageDone (s : State) : Out :=
  guard (Instr.wf .stageDone) s (.next (if s.halfUp then s.stageDone else s))

/-- CFG_BOOT_SEL with GO (R451). -/
def execCfgBootSel (p : Party) (slot : Nat) (set : Nat) (s : State) : Out :=
  guard (Instr.wf (.cfgBootSel p slot set)) s (.next (s.wrReg p A.bootSel (slot % 2 + set % 2 * 2 + 4)))

/-- CFG_MBOX_IN_CTRL.GO (R503). -/
def execMboxInGo (p : Party) (len : Nat) (s : State) : Out :=
  guard (Instr.wf (.mboxInGo p len)) s (.next (s.wrReg p A.mboxInCtrl (len % 8192 + 8192)))

/-- MBOX_IN_TAKEN (R503). -/
def execMboxInTaken (s : State) : Out :=
  guard (Instr.wf .mboxInTaken) s (.next (s.whenUp State.mboxInTaken))

/-- CFG_MBOX_OUT_TAIL (R504, R505). -/
def execCfgMboxOutTail (p : Party) (tail : Nat) (s : State) : Out :=
  guard (Instr.wf (.cfgMboxOutTail p tail)) s (.next (s.wrReg p A.mboxTail (tail % 2 ^ 32)))

/-- MEM_MLM_WIN (R497). -/
def execMemMlmWin (p : Party) (mode : Nat) (s : State) : Out :=
  guard (Instr.wf (.memMlmWin p mode)) s (.next (s.wrReg p A.mlmWin (mode % 4)))

/-- PWR_GOV_CTRL (R43). -/
def execPwrGovCtrlWrite (p : Party) (cap : Nat) (s : State) : Out :=
  guard (Instr.wf (.pwrGovCtrlWrite p cap)) s (.next (s.wrReg p A.govCtrl (cap % 2048)))

/-- REGISTER_WRITE: any register at its offset (R13 to R15, R425, R426, R510 to R518). -/
def execRegisterWrite (p : Party) (offset : Nat) (w : Reg64) (s : State) : Out :=
  guard (Instr.wf (.registerWrite p offset w)) s (.next (s.wrReg p offset w.toNat))

/-- COUNTER_SAMPLE (R428, R518). -/
def execCounterSample (s : State) : Out :=
  guard (Instr.wf .counterSample) s (.next (s.thenRetry State.counterSample))

/-! ### Self-test and retirement -/

/-- HLT_BIST_REQ with GO (R466, R481). -/
def execBistReqGo (p : Party) (r : Nat) (clusters : Nat) (kinds : Nat) (save : Nat) (s : State) : Out :=
  guard (Instr.wf (.bistReqGo p r clusters kinds save)) s (.next (s.wrReg p A.bistReq (r % 64 + clusters % 512 * 64 + kinds % 256 * 32768 + save % 8 * 8388608 + 67108864)))

/-- HLT_BIST_REQ with CANCEL (R466). -/
def execBistReqCancel (p : Party) (r : Nat) (s : State) : Out :=
  guard (Instr.wf (.bistReqCancel p r)) s (.next (s.wrReg p A.bistReq (r % 64 + 134217728)))

/-- BIST_SLICE (R466, R467). -/
def execBistSlice (r : Nat) (k : Nat) (s : State) : Out :=
  guard (Instr.wf (.bistSlice r k)) s (.next (s.bistSlice r k))

/-- SLICE_COMPLETE (R464, R467, R468): what waited for the cluster is taken again. -/
def execSliceComplete (r : Nat) (k : Nat) (failed : Bool) (columns : Nat) (s : State) : Out :=
  guard (Instr.wf (.sliceComplete r k failed columns)) s (.next (s.thenRetry fun s => s.whenUp fun s => s.sliceComplete r k failed columns))

/-- HLT_RETIRE (R468). -/
def execHltRetire (p : Party) (r : Nat) (k : Nat) (s : State) : Out :=
  guard (Instr.wf (.hltRetire p r k)) s (.next (s.wrReg p A.hltRetire (r % 64 + k % 16 * 64 + 1024)))

/-- HLT_ABIST_STATUS.RERUN (R470) with the loopbacks that fail. -/
def execAbistRerun (p : Party) (loopE : Nat) (loopM : Nat) (loopC : Nat) (s : State) : Out :=
  guard (Instr.wf (.abistRerun p loopE loopM loopC)) s (.next (s.csrWrite p A.abist (2 ^ 41) ⟨WriteEnv.none.env, some (loopE % 256 + loopM % 4 * 256 + loopC % 16 * 1024)⟩))

/-! ### Debug port (R508) -/

/-- CSRACC (R508). -/
def execCsracc (offset : Nat) (write : Bool) (go : Bool) (data : Reg64) (s : State) : Out :=
  guard (Instr.wf (.csracc offset write go data)) s (.next (s.whenPowered fun s => s.csracc offset write go data))

/-- MEMACC (R508). -/
def execMemacc (addr : Nat) (go : Bool) (s : State) : Out :=
  guard (Instr.wf (.memacc addr go)) s (.next (s.whenPowered fun s => s.memacc addr go))

/-- IDCODE: the instruction register selects it (R508). -/
def execIdcode (s : State) : Out :=
  guard (Instr.wf .idcode) s (.next (s.whenPowered fun s => s.setIr 2))

/-- EXTEST (R508). -/
def execExtest (drive : List Bool) (s : State) : Out :=
  guard (Instr.wf (.extest drive)) s (.next (s.whenPowered fun s => s.drivePins 0 drive))

/-- SAMPLE/PRELOAD (R508). -/
def execSamplePreload (load : List Bool) (s : State) : Out :=
  guard (Instr.wf (.samplePreload load)) s (.next (s.whenPowered fun s => s.samplePreload load))

/-- EXTEST_PULSE (R508). -/
def execExtestPulse (drive : List Bool) (s : State) : Out :=
  guard (Instr.wf (.extestPulse drive)) s (.next (s.whenPowered fun s => s.drivePins 3 drive))

/-- EXTEST_TRAIN (R508). -/
def execExtestTrain (drive : List Bool) (s : State) : Out :=
  guard (Instr.wf (.extestTrain drive)) s (.next (s.whenPowered fun s => s.drivePins 4 drive))

/-- BYPASS and codes not listed (R508). -/
def execBypass (code : Nat) (s : State) : Out :=
  guard (Instr.wf (.bypass code)) s (.next (s.whenPowered fun s => s.bypass code))

/-! ### SPDM (R422 to R424) -/

/-- GET_VERSION (R422). -/
def execGetVersion (s : State) : Out :=
  guard (Instr.wf .getVersion) s (.next (s.getVersion))

/-- GET_CAPABILITIES (R422). -/
def execGetCapabilities (s : State) : Out :=
  guard (Instr.wf .getCapabilities) s (.next (s.getCapabilities))

/-- NEGOTIATE_ALGORITHMS (R422). -/
def execNegotiateAlgorithms (asym : Nat) (hash : Nat) (s : State) : Out :=
  guard (Instr.wf (.negotiateAlgorithms asym hash)) s (.next (s.negotiate asym hash))

/-- GET_DIGESTS (R422). -/
def execGetDigests (s : State) : Out :=
  guard (Instr.wf .getDigests) s (.next (s.getDigests))

/-- GET_CERTIFICATE (R421). -/
def execGetCertificate (slot : Nat) (offset : Nat) (len : Nat) (s : State) : Out :=
  guard (Instr.wf (.getCertificate slot offset len)) s (.next (s.getCertificate slot offset len))

/-- CHALLENGE (R422). -/
def execChallenge (slot : Nat) (sumKind : Nat) (nonce : List Byte) (s : State) : Out :=
  guard (Instr.wf (.challenge slot sumKind nonce)) s (.next (s.challenge slot sumKind nonce))

/-- GET_MEASUREMENTS (R423). -/
def execGetMeasurements (index : Nat) (signed : Bool) (nonce : List Byte) (s : State) : Out :=
  guard (Instr.wf (.getMeasurements index signed nonce)) s (.next (s.getMeasurements index signed nonce))

/-- A request that R422 does not list. -/
def execSpdmUnsupportedRequest (code : Nat) (s : State) : Out :=
  guard (Instr.wf (.spdmUnsupportedRequest code)) s (.next (s.spdmUnsupported code))

/-! ### I3C, MCTP, PLDM (R507) -/

/-- SETDASA (R507). -/
def execSetdasa (static : Nat) (dynamic : Nat) (s : State) : Out :=
  guard (Instr.wf (.setdasa static dynamic)) s (.next (s.setdasa static dynamic))

/-- ENTDAA (R507). -/
def execEntdaa (dynamic : Nat) (s : State) : Out :=
  guard (Instr.wf (.entdaa dynamic)) s (.next (s.entdaa dynamic))

/-- PLDM numeric effecter (R507). -/
def execPldmEffecterSet (effecter : Nat) (value : Nat) (s : State) : Out :=
  guard (Instr.wf (.pldmEffecterSet effecter value)) s (.next (s.pldmEffecter effecter value))

/-- MCTP control message (R507). -/
def execMctpControlMessage (command : Nat) (eid : Nat) (s : State) : Out :=
  guard (Instr.wf (.mctpControlMessage command eid)) s (.next (s.mctpControl command eid))

/-- A mandatory common command of I3C (R507). -/
def execMandatoryCommonCommand (code : Nat) (s : State) : Out :=
  guard (Instr.wf (.mandatoryCommonCommand code)) s (.next (s.commonCommand code))

end Sys2Proof.Machine
end

