-- ==== Sys2Proof/Machine/Dispatch.lean ====
section
/-!
DEFINITION. Sys2Proof/Machine/Dispatch.lean: one arm per command, each one direct call of its meaning.
-/
namespace Sys2Proof.Machine

def exec (i : Instr) (s : State) : Host.Outcome State Fault Refusal :=
  match i with
  | .nop r k q => Sys2Proof.Machine.execNop r k q s
  | .endq r k q => Sys2Proof.Machine.execEndq r k q s
  | .wait r k q => Sys2Proof.Machine.execWait r k q s
  | .signal r k q => Sys2Proof.Machine.execSignal r k q s
  | .barrier r k q => Sys2Proof.Machine.execBarrier r k q s
  | .stepPoint r k q => Sys2Proof.Machine.execStepPoint r k q s
  | .evalPoint r k q => Sys2Proof.Machine.execEvalPoint r k q s
  | .evalEnd r k q => Sys2Proof.Machine.execEvalEnd r k q s
  | .mma r k => Sys2Proof.Machine.execMma r k s
  | .distL1 r k => Sys2Proof.Machine.execDistL1 r k s
  | .distL2 r k => Sys2Proof.Machine.execDistL2 r k s
  | .minplus r k => Sys2Proof.Machine.execMinplus r k s
  | .maxplus r k => Sys2Proof.Machine.execMaxplus r k s
  | .cmpcount r k => Sys2Proof.Machine.execCmpcount r k s
  | .vmap r k v => Sys2Proof.Machine.execVmap r k v s
  | .vcvt r k v => Sys2Proof.Machine.execVcvt r k v s
  | .vscan r k v => Sys2Proof.Machine.execVscan r k v s
  | .vstat r k v => Sys2Proof.Machine.execVstat r k v s
  | .vcarryStore r k v => Sys2Proof.Machine.execVcarryStore r k v s
  | .vcarryLoad r k v => Sys2Proof.Machine.execVcarryLoad r k v s
  | .rmsnorm r k v => Sys2Proof.Machine.execRmsnorm r k v s
  | .vsfu r k v => Sys2Proof.Machine.execVsfu r k v s
  | .vchisel r k v => Sys2Proof.Machine.execVchisel r k v s
  | .vredLeaf r k v => Sys2Proof.Machine.execVredLeaf r k v s
  | .vredNode r k v => Sys2Proof.Machine.execVredNode r k v s
  | .vredFinal r k v => Sys2Proof.Machine.execVredFinal r k v s
  | .vredFold r k v => Sys2Proof.Machine.execVredFold r k v s
  | .vgrainSetid r k v => Sys2Proof.Machine.execVgrainSetid r k v s
  | .vgrainRaw r k v => Sys2Proof.Machine.execVgrainRaw r k v s
  | .vgrainUniform r k v => Sys2Proof.Machine.execVgrainUniform r k v s
  | .vgrainBernoulli r k v => Sys2Proof.Machine.execVgrainBernoulli r k v s
  | .vgrainNormal r k v => Sys2Proof.Machine.execVgrainNormal r k v s
  | .mvcopy r k => Sys2Proof.Machine.execMvcopy r k s
  | .mvset r k => Sys2Proof.Machine.execMvset r k s
  | .mvatom r k => Sys2Proof.Machine.execMvatom r k s
  | .mvcollUp r k e => Sys2Proof.Machine.execMvcollUp r k e s
  | .mvcollRecv r k e => Sys2Proof.Machine.execMvcollRecv r k e s
  | .mvcollDown r k e => Sys2Proof.Machine.execMvcollDown r k e s
  | .mvcollRdown r k e => Sys2Proof.Machine.execMvcollRdown r k e s
  | .ttin r k => Sys2Proof.Machine.execTtin r k s
  | .ttout r k => Sys2Proof.Machine.execTtout r k s
  | .descLoad r k => Sys2Proof.Machine.execDescLoad r k s
  | .seqDoorbell p r k qmask => Sys2Proof.Machine.execSeqDoorbell p r k qmask s
  | .seqLdoorbell p r lcluster qmask => Sys2Proof.Machine.execSeqLdoorbell p r lcluster qmask s
  | .startBeat r k => Sys2Proof.Machine.execStartBeat r k s
  | .queueFetchRequest r k q => Sys2Proof.Machine.execQueueFetchRequest r k q s
  | .queueFetchComplete r id e => Sys2Proof.Machine.execQueueFetchComplete r id e s
  | .clusterBeat r k e => Sys2Proof.Machine.execClusterBeat r k e s
  | .stretchYield r k => Sys2Proof.Machine.execStretchYield r k s
  | .holdBeat r k => Sys2Proof.Machine.execHoldBeat r k s
  | .timedDonePoint r k id => Sys2Proof.Machine.execTimedDonePoint r k id s
  | .descLoadDone r id e => Sys2Proof.Machine.execDescLoadDone r id e s
  | .moverCommandStart r k m e => Sys2Proof.Machine.execMoverCommandStart r k m e s
  | .translationWalk r id beats e => Sys2Proof.Machine.execTranslationWalk r id beats e s
  | .admissionAccept r id e => Sys2Proof.Machine.execAdmissionAccept r id e s
  | .moverRequestComplete r id e => Sys2Proof.Machine.execMoverRequestComplete r id e s
  | .cxlRequestTimeout r id e => Sys2Proof.Machine.execCxlRequestTimeout r id e s
  | .mlmWindowTimeout r id e => Sys2Proof.Machine.execMlmWindowTimeout r id e s
  | .remoteRequestTimeout r id e => Sys2Proof.Machine.execRemoteRequestTimeout r id e s
  | .evalSwitch r k => Sys2Proof.Machine.execEvalSwitch r k s
  | .switchBeat r k => Sys2Proof.Machine.execSwitchBeat r k s
  | .stepReturnNoSwitch r k => Sys2Proof.Machine.execStepReturnNoSwitch r k s
  | .evalReturn r k => Sys2Proof.Machine.execEvalReturn r k s
  | .returnBeat r k => Sys2Proof.Machine.execReturnBeat r k s
  | .incrementVisible r k n => Sys2Proof.Machine.execIncrementVisible r k n s
  | .syncPoke p r index inc => Sys2Proof.Machine.execSyncPoke p r index inc s
  | .barrierNodeArrival n => Sys2Proof.Machine.execBarrierNodeArrival n s
  | .barrierRelease n => Sys2Proof.Machine.execBarrierRelease n s
  | .swapBeat => Sys2Proof.Machine.execSwapBeat s
  | .governorInterval x => Sys2Proof.Machine.execGovernorInterval x s
  | .paceMeasurement r k pace => Sys2Proof.Machine.execPaceMeasurement r k pace s
  | .patinaMonitor r k patina => Sys2Proof.Machine.execPatinaMonitor r k patina s
  | .healthMonitorTick e => Sys2Proof.Machine.execHealthMonitorTick e s
  | .telemetryUpdate x => Sys2Proof.Machine.execTelemetryUpdate x s
  | .heartbeat => Sys2Proof.Machine.execHeartbeat s
  | .sramScrubRead r k bank e => Sys2Proof.Machine.execSramScrubRead r k bank e s
  | .patrolScrub stack e => Sys2Proof.Machine.execPatrolScrub stack e s
  | .hbmRecalibration e => Sys2Proof.Machine.execHbmRecalibration e s
  | .analogueCheck temps vin vref => Sys2Proof.Machine.execAnalogueCheck temps vin vref s
  | .drbgReseed healthy => Sys2Proof.Machine.execDrbgReseed healthy s
  | .porstAssert => Sys2Proof.Machine.execPorstAssert s
  | .porstRelease railsGood hottest e => Sys2Proof.Machine.execPorstRelease railsGood hottest e s
  | .bootReady e => Sys2Proof.Machine.execBootReady e s
  | .vinUndervoltage mv us => Sys2Proof.Machine.execVinUndervoltage mv us s
  | .vinOvervoltage mv us => Sys2Proof.Machine.execVinOvervoltage mv us s
  | .thermalTrip junction hbm us => Sys2Proof.Machine.execThermalTrip junction hbm us s
  | .recovEdge us => Sys2Proof.Machine.execRecovEdge us s
  | .hltRecover p key go => Sys2Proof.Machine.execHltRecover p key go s
  | .recoveryComplete e => Sys2Proof.Machine.execRecoveryComplete e s
  | .regionReset p r => Sys2Proof.Machine.execRegionReset p r s
  | .dieReset p d => Sys2Proof.Machine.execDieReset p d s
  | .dieCoreTimeout d ms => Sys2Proof.Machine.execDieCoreTimeout d ms s
  | .assign p r c => Sys2Proof.Machine.execAssign p r c s
  | .release p r => Sys2Proof.Machine.execRelease p r s
  | .secRotate p c => Sys2Proof.Machine.execSecRotate p c s
  | .sweepPageComplete c => Sys2Proof.Machine.execSweepPageComplete c s
  | .scrubGo p parts => Sys2Proof.Machine.execScrubGo p parts s
  | .scrubDone => Sys2Proof.Machine.execScrubDone s
  | .memXlateInv p c all page => Sys2Proof.Machine.execMemXlateInv p c all page s
  | .invalidationComplete => Sys2Proof.Machine.execInvalidationComplete s
  | .ekbJoin p modNum epoch go => Sys2Proof.Machine.execEkbJoin p modNum epoch go s
  | .graceExpiry => Sys2Proof.Machine.execGraceExpiry s
  | .defaultRoutingUpdate => Sys2Proof.Machine.execDefaultRoutingUpdate s
  | .ekbCtxJobWrite p c job valid => Sys2Proof.Machine.execEkbCtxJobWrite p c job valid s
  | .flitReceive port f => Sys2Proof.Machine.execFlitReceive port f s
  | .flitReplay port seq => Sys2Proof.Machine.execFlitReplay port seq s
  | .linkControlFlit port l => Sys2Proof.Machine.execLinkControlFlit port l s
  | .portTrainingComplete port lanes rtt l => Sys2Proof.Machine.execPortTrainingComplete port lanes rtt l s
  | .portRetrainTimeout port => Sys2Proof.Machine.execPortRetrainTimeout port s
  | .packetTransit x => Sys2Proof.Machine.execPacketTransit x s
  | .rdReq x e => Sys2Proof.Machine.execRdReq x e s
  | .rdData x => Sys2Proof.Machine.execRdData x s
  | .wr x e => Sys2Proof.Machine.execWr x e s
  | .wrCpl x => Sys2Proof.Machine.execWrCpl x s
  | .atom x e => Sys2Proof.Machine.execAtom x e s
  | .atomCpl x => Sys2Proof.Machine.execAtomCpl x s
  | .flagInc x => Sys2Proof.Machine.execFlagInc x s
  | .barArrive x => Sys2Proof.Machine.execBarArrive x s
  | .barRelease x => Sys2Proof.Machine.execBarRelease x s
  | .collUp x e => Sys2Proof.Machine.execCollUp x e s
  | .collDown x e => Sys2Proof.Machine.execCollDown x e s
  | .collCpl x => Sys2Proof.Machine.execCollCpl x s
  | .kexHello x chainOk => Sys2Proof.Machine.execKexHello x chainOk s
  | .kexReply x chainOk => Sys2Proof.Machine.execKexReply x chainOk s
  | .recvRightComplete r k id ns e => Sys2Proof.Machine.execRecvRightComplete r k id ns e s
  | .recvDeadline r k id ns e => Sys2Proof.Machine.execRecvDeadline r k id ns e s
  | .snapReq p c e => Sys2Proof.Machine.execSnapReq p c e s
  | .snapPartCopy c e => Sys2Proof.Machine.execSnapPartCopy c e s
  | .maqLoad p => Sys2Proof.Machine.execMaqLoad p s
  | .maqLoadDone => Sys2Proof.Machine.execMaqLoadDone s
  | .maqSwap p now => Sys2Proof.Machine.execMaqSwap p now s
  | .maqDiscard p => Sys2Proof.Machine.execMaqDiscard p s
  | .fwActivate p persist => Sys2Proof.Machine.execFwActivate p persist s
  | .fwCommit => Sys2Proof.Machine.execFwCommit s
  | .fwActivateTimeout => Sys2Proof.Machine.execFwActivateTimeout s
  | .stageGo p len target e => Sys2Proof.Machine.execStageGo p len target e s
  | .stageDone => Sys2Proof.Machine.execStageDone s
  | .cfgBootSel p slot set => Sys2Proof.Machine.execCfgBootSel p slot set s
  | .mboxInGo p len => Sys2Proof.Machine.execMboxInGo p len s
  | .mboxInTaken => Sys2Proof.Machine.execMboxInTaken s
  | .cfgMboxOutTail p tail => Sys2Proof.Machine.execCfgMboxOutTail p tail s
  | .memMlmWin p mode => Sys2Proof.Machine.execMemMlmWin p mode s
  | .mlmRdReq m x e => Sys2Proof.Machine.execMlmRdReq m x e s
  | .mlmWr m x e => Sys2Proof.Machine.execMlmWr m x e s
  | .mlmAtom m x e => Sys2Proof.Machine.execMlmAtom m x e s
  | .mlmKexHello m x => Sys2Proof.Machine.execMlmKexHello m x s
  | .mlmPortRetrain m lanes => Sys2Proof.Machine.execMlmPortRetrain m lanes s
  | .pwrGovCtrlWrite p cap => Sys2Proof.Machine.execPwrGovCtrlWrite p cap s
  | .ekbGraceWrite p ms => Sys2Proof.Machine.execEkbGraceWrite p ms s
  | .bistReqGo p r clusters kinds save => Sys2Proof.Machine.execBistReqGo p r clusters kinds save s
  | .bistReqCancel p r => Sys2Proof.Machine.execBistReqCancel p r s
  | .bistSlice r k => Sys2Proof.Machine.execBistSlice r k s
  | .hltRetire p r k => Sys2Proof.Machine.execHltRetire p r k s
  | .abistRerun p loopE loopM loopC => Sys2Proof.Machine.execAbistRerun p loopE loopM loopC s
  | .csracc offset write go data => Sys2Proof.Machine.execCsracc offset write go data s
  | .memacc addr go => Sys2Proof.Machine.execMemacc addr go s
  | .idcode => Sys2Proof.Machine.execIdcode s
  | .extest drive => Sys2Proof.Machine.execExtest drive s
  | .samplePreload load => Sys2Proof.Machine.execSamplePreload load s
  | .extestPulse drive => Sys2Proof.Machine.execExtestPulse drive s
  | .extestTrain drive => Sys2Proof.Machine.execExtestTrain drive s
  | .bypass code => Sys2Proof.Machine.execBypass code s
  | .getVersion => Sys2Proof.Machine.execGetVersion s
  | .getCapabilities => Sys2Proof.Machine.execGetCapabilities s
  | .negotiateAlgorithms asym hash => Sys2Proof.Machine.execNegotiateAlgorithms asym hash s
  | .getDigests => Sys2Proof.Machine.execGetDigests s
  | .getCertificate slot offset len => Sys2Proof.Machine.execGetCertificate slot offset len s
  | .challenge slot sumKind nonce => Sys2Proof.Machine.execChallenge slot sumKind nonce s
  | .getMeasurements index signed nonce => Sys2Proof.Machine.execGetMeasurements index signed nonce s
  | .setdasa static dynamic => Sys2Proof.Machine.execSetdasa static dynamic s
  | .entdaa dynamic => Sys2Proof.Machine.execEntdaa dynamic s
  | .pldmEffecterSet effecter value => Sys2Proof.Machine.execPldmEffecterSet effecter value s
  | .registerWrite p offset w => Sys2Proof.Machine.execRegisterWrite p offset w s
  | .internalResetRelease railsGood hottest e => Sys2Proof.Machine.execInternalResetRelease railsGood hottest e s
  | .linkGoesDown kind port => Sys2Proof.Machine.execLinkGoesDown kind port s
  | .cxlEventRecord port corrected media => Sys2Proof.Machine.execCxlEventRecord port corrected media s
  | .counterSample => Sys2Proof.Machine.execCounterSample s
  | .sliceComplete r k failed columns => Sys2Proof.Machine.execSliceComplete r k failed columns s
  | .resetComplete die n trained => Sys2Proof.Machine.execResetComplete die n trained s
  | .regionLoadsComplete r e => Sys2Proof.Machine.execRegionLoadsComplete r e s
  | .spdmUnsupportedRequest code => Sys2Proof.Machine.execSpdmUnsupportedRequest code s
  | .mctpControlMessage command eid => Sys2Proof.Machine.execMctpControlMessage command eid s
  | .mandatoryCommonCommand code => Sys2Proof.Machine.execMandatoryCommonCommand code s

end Sys2Proof.Machine
end

