-- ==== Sys2Proof/Safety.lean ====
section
/-!
DEFINITION. Sys2Proof/Safety.lean: the terms in which statements about the module are made: what completing means, when a
command at a queue's head is due, which queue and body a row of the command streams stands for, when software's writes reach
a register.
-/
namespace Sys2Proof.Machine

/-- The command answers a next state, and `P` holds of it. -/
def Completes (i : Instr) (s : State) (P : State → Prop) : Prop := ∃ t, exec i s = .next t ∧ P t

/-- No schedule beat of a cluster is held: no hold cause holds, and no DESC_LOAD issues in it that would hold another queue's command
(R102, R113). `e` is what an MVCOLL's read of the rank table meets. -/
abbrev Unheld (s : State) (r k : Nat) (e : Env) : Prop := s.holdCause r k e = none ∧ s.descFirst r k e = false

/-- Command `c` stands at the head of queue `q` of a cluster and is due in its current beat: the cluster beats, what the beat begins
with has happened, it is not held, and the queue is issuing (R33, R100 to R102). -/
def Due (s : State) (r k q : Nat) (c : Cmd512) (e : Env := noEnv) : Prop :=
  q < 4 ∧ s.beats r k = true ∧ s.beginBeat r k = s ∧ Unheld s r k e ∧ (s.queue r k q).st = .issuing
    ∧ (s.queue r k q).head (s.cl r k).beat = .cmd c

/-- What lies outside the module and decides part of a stream row's outcome. -/
def streamEnv : Instr → Env
  | .mvcollUp _ _ e | .mvcollRecv _ _ e | .mvcollDown _ _ e | .mvcollRdown _ _ e => e
  | _ => noEnv

/-- Reads meet no error (R251, R265, R266). -/
def NoErrors (e : Env) : Prop := e.bad = [] ∧ e.ce = [] ∧ e.ue = []

/-- A request at a region's router, and the commands in flight of its cluster, name units and queues that the module has (R19, R89). -/
def Named (s : State) (r : Nat) (x : Req) : Prop :=
  r < 48 ∧ x.k < 9 ∧ (∀ lri m part lo hi, x.kind = .mover lri m part lo hi → m < 2) ∧ ∀ l ∈ (s.cl r x.k).lris, l.q < 4

/-- An accepted request waits for nothing in the module: its accesses are served, and a mover request's turn has come and its packets
are answered (R49, R60, R153, R458). -/
def Finishes (s : State) (r : Nat) (x : Req) : Prop :=
  match x.kind with
  | .mover _ _ part _ _ => ∃ l o, s.mvOf r x = some (l, o) ∧ s.ripe r x l part = true
  | .fetch _ _ _ _ _ => s.served r x = true
  | .desc lri => s.served r x = true ∧ ((s.cl r x.k).lri lri).isSome = true
  | .flag _ _ _ _ => False

/-- Region, cluster and queue of a command row, and the bodies it stands for (R126). -/
def streamRow : Instr → Option (Nat × Nat × Nat × (Cmd512 → Bool))
  | .nop r k q => some (r, k, q, fun c => Hdr.opcode c == 0)
  | .endq r k q => some (r, k, q, fun c => Hdr.opcode c == 1)
  | .wait r k q => some (r, k, q, fun c => Hdr.opcode c == 2)
  | .signal r k q => some (r, k, q, fun c => Hdr.opcode c == 3)
  | .barrier r k q => some (r, k, q, fun c => Hdr.opcode c == 4)
  | .stepPoint r k q => some (r, k, q, fun c => Hdr.opcode c == 5)
  | .evalPoint r k q => some (r, k, q, fun c => Hdr.opcode c == 6)
  | .evalEnd r k q => some (r, k, q, fun c => Hdr.opcode c == 7)
  | .mma r k => some (r, k, 0, fun c => Hdr.opcode c == 0x040)
  | .distL1 r k => some (r, k, 0, fun c => Hdr.opcode c == 0x041)
  | .distL2 r k => some (r, k, 0, fun c => Hdr.opcode c == 0x042)
  | .minplus r k => some (r, k, 0, fun c => Hdr.opcode c == 0x043)
  | .maxplus r k => some (r, k, 0, fun c => Hdr.opcode c == 0x044)
  | .cmpcount r k => some (r, k, 0, fun c => Hdr.opcode c == 0x045)
  | .vmap r k v => some (r, k, 1 + v, fun c => Hdr.opcode c == 0x080)
  | .vcvt r k v => some (r, k, 1 + v, fun c => Hdr.opcode c == 0x081)
  | .vscan r k v => some (r, k, 1 + v, fun c => Hdr.opcode c == 0x082)
  | .vstat r k v => some (r, k, 1 + v, fun c => Hdr.opcode c == 0x083)
  | .vcarryStore r k v => some (r, k, 1 + v, fun c => Hdr.opcode c == 0x084 && carryDir c == 0)
  | .vcarryLoad r k v => some (r, k, 1 + v, fun c => Hdr.opcode c == 0x084 && carryDir c == 1)
  | .rmsnorm r k v => some (r, k, 1 + v, fun c => Hdr.opcode c == 0x085)
  | .vsfu r k v => some (r, k, 1 + v, fun c => Hdr.opcode c == 0x086)
  | .vchisel r k v => some (r, k, 1 + v, fun c => Hdr.opcode c == 0x087)
  | .vredLeaf r k v => some (r, k, 1 + v, fun c => Hdr.opcode c == 0x088 && redMode c == 0)
  | .vredNode r k v => some (r, k, 1 + v, fun c => Hdr.opcode c == 0x088 && redMode c == 1)
  | .vredFinal r k v => some (r, k, 1 + v, fun c => Hdr.opcode c == 0x088 && redMode c == 2)
  | .vredFold r k v => some (r, k, 1 + v, fun c => Hdr.opcode c == 0x088 && redMode c == 3)
  | .vgrainSetid r k v => some (r, k, 1 + v, fun c => Hdr.opcode c == 0x089 && grainMode c == 0)
  | .vgrainRaw r k v => some (r, k, 1 + v, fun c => Hdr.opcode c == 0x089 && grainMode c == 1)
  | .vgrainUniform r k v => some (r, k, 1 + v, fun c => Hdr.opcode c == 0x089 && grainMode c == 2)
  | .vgrainBernoulli r k v => some (r, k, 1 + v, fun c => Hdr.opcode c == 0x089 && grainMode c == 3)
  | .vgrainNormal r k v => some (r, k, 1 + v, fun c => Hdr.opcode c == 0x089 && grainMode c == 4)
  | .mvcopy r k => some (r, k, 3, fun c => Hdr.opcode c == 0x0C0)
  | .mvset r k => some (r, k, 3, fun c => Hdr.opcode c == 0x0C1)
  | .mvatom r k => some (r, k, 3, fun c => Hdr.opcode c == 0x0C2)
  | .mvcollUp r k _ => some (r, k, 3, fun c => Hdr.opcode c == 0x0C3 && collPhase c == 0)
  | .mvcollRecv r k _ => some (r, k, 3, fun c => Hdr.opcode c == 0x0C3 && collPhase c == 1)
  | .mvcollDown r k _ => some (r, k, 3, fun c => Hdr.opcode c == 0x0C3 && collPhase c == 2)
  | .mvcollRdown r k _ => some (r, k, 3, fun c => Hdr.opcode c == 0x0C3 && collPhase c == 3)
  | .ttin r k => some (r, k, 3, fun c => Hdr.opcode c == 0x0D0)
  | .ttout r k => some (r, k, 3, fun c => Hdr.opcode c == 0x0D1)
  | .descLoad r k => some (r, k, 3, fun c => Hdr.opcode c == 0x0E0)
  | _ => none

/-- Two clusters are not the same physical cluster. -/
def otherCluster (r k r' k' : Nat) : Prop := 9 * r' + k' ≠ 9 * r + k

/-- A write by party `p` of word `w` reaches register `d` at offset `a` of its view: the registers are open to it, the offset names
a register there, the register is powered, and R426 lets the party write it. -/
def Reaches (s : State) (p : Party) (a : Nat) (d : RegDef) (w : Nat) : Prop :=
  s.csrOpen p a true = true ∧ inView p a = true ∧ isSfuWindow a = false ∧ regAt a = some d ∧ s.inGated d = false
    ∧ s.mayWrite p a d w = true

/-- Registers a write of which does more than store its bits: it starts an action, or clamps or refuses what is written (R43, R316, R322, R336, R387,
R405, R444, R447, R449, R470, R497, R503, R504, R506). -/
def actionReg (a : Nat) : Bool :=
  [A.fwCtrl, A.stageCtrl, A.maqCtrl, A.mboxInCtrl, A.mboxOutCfg, A.mboxTail, A.scrubCtrl, A.abist, A.govCtrl, A.grace, A.mlmWin].contains a
    || (List.range 16).any fun c => a == A.ctxJob c || a == A.snapCtl c

/-- Memory, its metadata and the flash are unchanged. -/
def SameMemory (s t : State) : Prop := (∀ a, t.mem.read a = s.mem.read a) ∧ t.gran = s.gran ∧ t.flash = s.flash

/-- The packet and its type of a row that stands for a packet arriving over Eokoby (R313, R366, R417). -/
def packetRow : Instr → Option (Nat × Pkt)
  | .rdReq x _ => some (1, x)
  | .rdData x => some (2, x)
  | .wr x _ => some (3, x)
  | .wrCpl x => some (4, x)
  | .atom x _ => some (5, x)
  | .atomCpl x => some (6, x)
  | .flagInc x => some (7, x)
  | .barArrive x => some (8, x)
  | .barRelease x => some (9, x)
  | .collUp x _ => some (0x10, x)
  | .collDown x _ => some (0x11, x)
  | .collCpl x => some (0x12, x)
  | .kexHello x _ => some (0x20, x)
  | .kexReply x _ => some (0x21, x)
  | _ => none

/-- The state in which an arriving packet has left its lane's buffer (R310). -/
def Drained (s : State) (x : Pkt) : State := s.drainPkt (List.range 8) x

/-- A packet whose fields fit R312 passes the checks of R313, R315, R402 and R415 for this module, and leaves the state `t` for its own
meaning. -/
def Accepts (s : State) (ty : Nat) (x : Pkt) (t : State) : Prop :=
  x.ok = true ∧ s.ingressOpen ty = true ∧ x.ptype = ty ∧ s.typeKnown ty = true ∧ (Drained s x).arrive x = .here t

/-- `n` bytes from HBM address `a` on, reached through a leaf without PROT, in granules without poison or key. -/
def PlainPlaces (s : State) (a n : Nat) (ls : List Loc) : Prop :=
  (∃ p : Page, p.prot = false ∧ ls = (List.range n).map fun i => .page p (a + i)) ∧ ∀ i, i < n → isHbm (a + i) = true ∧ s.granAt (a + i) = Gran.clean

/-- An arriving request of class `cls` for these places has nothing to wait for (R57, R332, R390, R458, R467, R477). -/
def Enters (s : State) (cls : Nat) (wr : Bool) (ls : List Loc) : Prop :=
  s.ingressWaits cls ls (dedupNat (ls.flatMap s.plinthPath)) = false ∧ ls.any s.recalHeld = false ∧ (wr = true → s.snapWaits ls = false)

/-- A packet of type `ptype` with this status, tag and destination leaves the module. -/
def Answered (t : State) (port ptype status : Nat) (x : Pkt) (data : List Byte) : Prop :=
  ∃ y, OutMsg.packet port y ∈ t.outbox ∧ y.ptype = ptype ∧ y.status = status ∧ y.tag = x.tag ∧ y.dst = x.src ∧ y.data = data

/-- A request of the companion passes the checks of R419 and R494 and leaves the state `t` for its turn, with nothing waiting before it at
its port. -/
def Admits (s : State) (m ty : Nat) (x : Pkt) (t : State) : Prop :=
  x.ok = true ∧ (s.drainPkt [8 + m] x).mlmOpen m = true ∧ x.ptype = ty ∧ x.reserved = 0 ∧ (∀ p ∈ s.heldMlm, p.port ≠ m)
    ∧ (s.dataProt = false ∧ x.enc = false ∧ t = s.drainPkt [8 + m] x
        ∨ s.dataProt = true ∧ x.enc = true ∧ x.tagOk = true ∧ x.ctr + 1 ≠ 2 ^ 48
          ∧ ∃ y, s.session (65536 + m) = some y ∧ y.accepts x.ctr = true ∧ t = (s.drainPkt [8 + m] x).setSession (y.take x.ctr))

/-- The module answers a request of the companion. -/
def AnsweredMlm (t : State) (m ptype status : Nat) (x : Pkt) (data : List Byte) : Prop :=
  ∃ y, OutMsg.mlm m y ∈ t.outbox ∧ y.ptype = ptype ∧ y.status = status ∧ y.tag = x.tag ∧ y.data = data

/-- The responder's answer is what left last, by MCTP over I3C; it begins with SPDM version 1.3 (1.0 for VERSION), its code and two
parameters. -/
def Replied (s t : State) (version code p1 p2 : Nat) : Prop :=
  ∃ rest, t.outbox = .spdm (spdmHead version code p1 p2 ++ rest) :: s.outbox

/-- The requests of an SPDM requester. -/
def spdmRequest : Instr → Bool
  | .getVersion | .getCapabilities | .negotiateAlgorithms _ _ | .getDigests | .getCertificate _ _ _ | .challenge _ _ _ | .getMeasurements _ _ _ => true
  | .spdmUnsupportedRequest c => !([0x81, 0x82, 0x83, 0x84, 0xE0, 0xE1, 0xE3].contains (c % 256))
  | _ => false

/-- Every owner, and every context that a region is being assigned to, is one of the module's sixteen (R20). -/
def ContextsNamed (s : State) : Prop := (∀ r c, (s.rg r).owner = some c → c < 16) ∧ ∀ r c, (s.rg r).job = .assign c → c < 16

/-- Memory in its canonical form: addresses strictly rising, no entry equal to what an unlisted address reads as (log 4). -/
def Canonical (s : State) : Prop := Memory.wf s.mem = true

end Sys2Proof.Machine
end

