-- ==== Sys2Proof/Certificates/Slice0/Obligations.lean ====
section
/-!
DEFINITION. Sys2Proof/Certificates/Slice0/Obligations.lean: what is stated of the module, from the numbered rules of the spec, for the provers.
-/
open Sys2Proof Sys2Proof.Machine

/-! ### Number formats -/

/-- R65, R85, R66: in every rounding mode a conversion of a number to its own format gives its bits back and raises no status bit; of an infinity too.
A NaN gives 0 and INVALID in an integer format, and the canonical NaN of a float format that is no block-scaled code, with INVALID for a signalling
NaN only; the canonical NaNs are R66's. -/
def Obligations.ConversionsKeepValues : Prop :=
  (∀ (f : Fmt) (c : RndCtx) (w : Nat), w < 2 ^ f.bits → (decodeFmt f w).isNan = false → convertBits f f c w = (w, Flag.none))
  ∧ (∀ (f g : Fmt) (c : RndCtx) (w : Nat), (decodeFmt f w).isNan = true → g.isMx = false →
      convertBits f g c w = match g.shape with
        | none => (0, Flag.invalid)
        | some x => (x.qnan, if (decodeFmt f w).isSig then Flag.invalid else Flag.none))
  ∧ ([Fmt.fp32, .bf16, .fp16, .e4m3, .e5m2, .fp64].map fun f => encodeFmt f (.nan false)) = [0x7FC00000, 0x7FC0, 0x7E00, 0x7F, 0x7E, 0x7FF8000000000000]

/-! ### The step -/

/-- A step takes the command at the front of the queue and runs it on the state with the queue's rest; an empty queue idles (the model's choice, log
1). -/
def Obligations.StepRunsTheFrontCommand : Prop :=
  ∀ (s : State) (c : Instr) (rest : List Instr),
    (s.pending = c :: rest → step s = exec c { s with pending := rest }) ∧ (s.pending = [] → step s = .next s)

/-! ### Command streams -/

/-- R101, R109, R112, R114: a due long-running command that its checks pass goes into flight in its issue beat: one record more, with its own copy of
the command, its unit and its issue beat, a timed one with its done point; a DESC_LOAD marks its entries; the queue goes on; nothing else of any
cluster, and no byte of memory, changes, the marks of errors apart that an MVCOLL's read of the rank table meets. -/
def Obligations.LongCommandGoesIntoFlight : Prop :=
  ∀ (i : Instr) (s : State) (r k q : Nat) (sel : Cmd512 → Bool) (c : Cmd512) (aux : List Nat),
    streamRow i = some (r, k, q, sel) → Instr.wf i = true → Due s r k q c (streamEnv i) → sel c = true → isCommon (Hdr.opcode c) = false →
    s.verdict r k q c (streamEnv i) = .go aux →
    Completes i s fun t =>
      (∃ l : Lri, (t.cl r k).lris = (s.cl r k).lris ++ [l] ∧ l.cmd = c ∧ l.ds = (s.cl r k).slotDescs c ∧ l.q = q ∧ l.unit = unitOf q c
        ∧ l.issue = (s.cl r k).beat ∧ l.id = (s.cl r k).nextId
        ∧ (∀ op, MvOp.ofCmd c = none → TOp.ofCmd c = some op →
            l.done = some ((s.cl r k).beat + (op.plan c (s.progOf r c) (Descs.ofList ((s.cl r k).slotDescs c))).latency))
        ∧ (Hdr.opcode c = 0xE0 → ∀ n, n < dlCount c → (l.id, dlFirst c + n) ∈ (t.cl r k).dpend))
      ∧ t.queue r k q = (s.queue r k q).advance (s.cl r k).beat
      ∧ (∀ q', q' < 4 → q' ≠ q → t.queue r k q' = s.queue r k q')
      ∧ (∀ r' k', otherCluster r k r' k' → t.cl r' k' = s.cl r' k') ∧ (∀ r', r' ≠ r → t.rg r' = s.rg r')
      ∧ (NoErrors (streamEnv i) → SameMemory s t)

/-- R109, R110, R121, R123: NOP; STEP_POINT in an evaluation; EVAL_POINT and EVAL_END in training, and an EVAL_POINT before the switch beat plus
BUDGET, only retire: SEQ_Q_RETIRED takes one more, stopping at the top, and the queue goes on to its next command. -/
def Obligations.NopRetires : Prop :=
  ∀ (i : Instr) (s : State) (r k q : Nat) (c : Cmd512) (aux : List Nat),
    Instr.wf i = true → Due s r k q c → s.verdict r k q c = .go aux →
    (i = .nop r k q ∧ Hdr.opcode c = 0
      ∨ i = .stepPoint r k q ∧ Hdr.opcode c = 5 ∧ (s.queue r k q).evaluating = true
      ∨ i = .evalPoint r k q ∧ Hdr.opcode c = 6
          ∧ ((s.queue r k q).evaluating = false ∨ (s.cl r k).beat < (s.cl r k).switchBeat + s.fieldN (A.evalCtrl r k) 32 32)
      ∨ i = .evalEnd r k q ∧ Hdr.opcode c = 7 ∧ (s.queue r k q).evaluating = false) →
    Completes i s fun t =>
      t.queue r k q = (s.queue r k q).advance (s.cl r k).beat
      ∧ t.reg (A.qRetired r k q) = BitVec.ofNat 64 (satAdd 48 (s.regN (A.qRetired r k q)) 1)
      ∧ (t.cl r k).lris = (s.cl r k).lris
      ∧ (∀ q', q' < 4 → q' ≠ q → t.queue r k q' = s.queue r k q')
      ∧ (∀ r' k', otherCluster r k r' k' → t.cl r' k' = s.cl r' k') ∧ SameMemory s t
      ∧ (Hdr.doneEn c = false → (∀ a, a ≠ A.qRetired r k q → t.reg a = s.reg a) ∧ ∀ r', t.rg r' = s.rg r')

/-- R94, R109: END retires and stops its training queue: it issues nothing more and is idle from the next schedule beat on. R121: a STEP_POINT in
training retires and holds its queue until the sequencer returns. -/
def Obligations.EndAndStepPointHold : Prop :=
  (∀ (s : State) (r k q : Nat) (c : Cmd512) (aux : List Nat),
      Instr.wf (.endq r k q) = true → Due s r k q c → s.verdict r k q c = .go aux → Hdr.opcode c = 1 → (s.queue r k q).evaluating = false →
      Completes (.endq r k q) s fun t =>
        (t.queue r k q).st = .ending ∧ (t.queue r k q).pos = (s.queue r k q).pos + 1 ∧ (t.queue r k q).origin = (s.cl r k).beat
        ∧ t.reg (A.qRetired r k q) = BitVec.ofNat 64 (satAdd 48 (s.regN (A.qRetired r k q)) 1)
        ∧ (∀ b, (s.cl r k).beat < b → (({ t.cl r k with beat := b } : Cluster).endQueues.queue q).st = .idle)
        ∧ (∀ q', q' < 4 → q' ≠ q → t.queue r k q' = s.queue r k q')
        ∧ (∀ r' k', otherCluster r k r' k' → t.cl r' k' = s.cl r' k') ∧ SameMemory s t)
  ∧ (∀ (s : State) (r k q : Nat) (c : Cmd512) (aux : List Nat),
      Instr.wf (.stepPoint r k q) = true → Due s r k q c → s.verdict r k q c = .go aux → Hdr.opcode c = 5 →
      (s.queue r k q).evaluating = false → (∀ n, (s.queue r k q).len = some n → (s.queue r k q).pos + 1 < n) →
      Completes (.stepPoint r k q) s fun t =>
        (t.queue r k q).st = .held ∧ (t.queue r k q).pos = (s.queue r k q).pos + 1
        ∧ t.reg (A.qRetired r k q) = BitVec.ofNat 64 (satAdd 48 (s.regN (A.qRetired r k q)) 1)
        ∧ (∀ q', q' < 4 → q' ≠ q → t.queue r k q' = s.queue r k q')
        ∧ (∀ r' k', otherCluster r k r' k' → t.cl r' k' = s.cl r' k') ∧ SameMemory s t)

/-- R123, R125: in an evaluation, EVAL_END, and EVAL_POINT from the switch beat plus BUDGET on, retire and stop the queue, which records how it
stopped. R122, R124: the switch beat starts every evaluation queue from this beat and sets SEQ_EVAL_STATUS.ACTIVE; once they have all stopped and none
of their commands is in flight, the sequencer turns back; the return beat ends the evaluation and clears ACTIVE. -/
def Obligations.EvaluationsStopAndTurn : Prop :=
  (∀ (s : State) (r k q : Nat) (c : Cmd512) (aux : List Nat),
      Due s r k q c → s.verdict r k q c = .go aux → (s.queue r k q).evaluating = true →
      (Instr.wf (.evalEnd r k q) = true → Hdr.opcode c = 7 →
        Completes (.evalEnd r k q) s fun t =>
          (t.queue r k q).st = .stopped ∧ (t.queue r k q).stop = .passEnd ∧ (t.queue r k q).pos = (s.queue r k q).pos + 1
          ∧ (∀ r' k', otherCluster r k r' k' → t.cl r' k' = s.cl r' k') ∧ SameMemory s t)
      ∧ (Instr.wf (.evalPoint r k q) = true → Hdr.opcode c = 6 →
        (s.cl r k).switchBeat + s.fieldN (A.evalCtrl r k) 32 32 ≤ (s.cl r k).beat →
        Completes (.evalPoint r k q) s fun t =>
          (t.queue r k q).st = .stopped ∧ (t.queue r k q).stop = .point ∧ (t.queue r k q).pos = (s.queue r k q).pos + 1
          ∧ (∀ r' k', otherCluster r k r' k' → t.cl r' k' = s.cl r' k') ∧ SameMemory s t))
  ∧ (∀ (s : State) (r k : Nat), r < 48 → k < 9 → s.beats r k = true →
      ((s.cl r k).phase = .toEval → ((s.cl r k).queues.filter Queue.evaluating).all Queue.loaded = true →
        Completes (.switchBeat r k) s fun t =>
          (t.cl r k).phase = .eval ∧ (t.cl r k).switchBeat = (s.cl r k).beat ∧ t.bit (A.evalStatus r k) 1 = true
          ∧ (∀ q ∈ (s.cl r k).queues, q.evaluating = true →
              { q with st := .issuing, origin := (s.cl r k).beat, first := true } ∈ (t.cl r k).queues)
          ∧ (∀ a, a ≠ A.evalStatus r k → t.reg a = s.reg a) ∧ SameMemory s t)
      ∧ ((s.cl r k).phase = .eval → (∀ q ∈ (s.cl r k).queues, q.evaluating = true → q.st = .stopped) → (∀ l ∈ (s.cl r k).lris, l.eval = false) →
        Completes (.evalReturn r k) s fun t =>
          (t.cl r k).phase = .toTrain ∧ (t.cl r k).queues = (s.cl r k).queues.map Queue.toTrain ∧ (∀ a, t.reg a = s.reg a) ∧ SameMemory s t)
      ∧ ((s.cl r k).phase = .toTrain → (∀ q ∈ (s.cl r k).queues, q.back = true → q.loaded = true) →
        Completes (.returnBeat r k) s fun t =>
          (t.cl r k).phase = .train ∧ t.bit (A.evalStatus r k) 1 = false ∧ (t.cl r k).beat = (s.cl r k).beat
          ∧ (∀ a, a ≠ A.evalStatus r k → t.reg a = s.reg a) ∧ SameMemory s t))

/-- R285, R286: SIGNAL of one of the cluster's own counters adds S_INC to its COUNT, which stops at the top, counts a saturation, and retires; MATCHED
stays. R290: a WAIT on one of the cluster's own counters whose visible COUNT reaches W_THRESH raises MATCHED to W_THRESH where that is larger, and
issues; one that does not holds its queue and changes no counter. -/
def Obligations.SignalsAndWaits : Prop :=
  (∀ (s : State) (r k q : Nat) (c : Cmd512) (aux : List Nat) (idx : Nat),
      Instr.wf (.signal r k q) = true → Due s r k q c → s.verdict r k q c = .go aux → Hdr.opcode c = 3 → Hdr.doneEn c = false →
      s.flagRef r (sigFlag c) = .own idx →
      Completes (.signal r k q) s fun t =>
        ((t.cl r k).ctr idx).count = min (((s.cl r k).ctr idx).count + sigInc c) ctrMax
        ∧ ((t.cl r k).ctr idx).matched = ((s.cl r k).ctr idx).matched
        ∧ (∀ j, j ≠ idx → (t.cl r k).ctr j = (s.cl r k).ctr j)
        ∧ t.reg (A.syncSat r) = (if ctrMax < ((s.cl r k).ctr idx).count + sigInc c
            then BitVec.ofNat 64 (satAdd 48 (s.regN (A.syncSat r)) 1) else s.reg (A.syncSat r))
        ∧ (t.queue r k q).pos = (s.queue r k q).pos + 1
        ∧ (∀ a, a ≠ A.qRetired r k q → a ≠ A.syncSat r → t.reg a = s.reg a)
        ∧ (∀ r' k', otherCluster r k r' k' → t.cl r' k' = s.cl r' k') ∧ SameMemory s t)
  ∧ (∀ (s : State) (r k q : Nat) (c : Cmd512) (aux : List Nat) (idx : Nat),
      Instr.wf (.wait r k q) = true → Due s r k q c → s.verdict r k q c = .go aux → Hdr.opcode c = 2 → Hdr.doneEn c = false →
      s.flagRef r (waitFlag c) = .own idx →
      Completes (.wait r k q) s fun t =>
        (waitThresh c ≤ s.visible r k true idx →
          t.queue r k q = (s.queue r k q).advance (s.cl r k).beat
          ∧ ((t.cl r k).ctr idx).matched = max ((s.cl r k).ctr idx).matched (waitThresh c))
        ∧ (s.visible r k true idx < waitThresh c →
          (t.queue r k q).st = .waiting ∧ (t.queue r k q).pos = (s.queue r k q).pos
          ∧ ((t.cl r k).ctr idx).matched = ((s.cl r k).ctr idx).matched)
        ∧ ((t.cl r k).ctr idx).count = ((s.cl r k).ctr idx).count
        ∧ (∀ r' k', otherCluster r k r' k' → t.cl r' k' = s.cl r' k') ∧ SameMemory s t)

/-- R297, R298: a due BARRIER whose cluster node holds nothing for its ID arrives there with its fields and holds its queue, without retiring. -/
def Obligations.BarrierArrives : Prop :=
  ∀ (s : State) (r k q : Nat) (c : Cmd512) (aux : List Nat),
    Instr.wf (.barrier r k q) = true → Due s r k q c → s.verdict r k q c = .go aux → Hdr.opcode c = 4 →
    (∀ e ∈ s.bars, ¬(e.node = .cluster r k ∧ e.f.bid = (barFields c).bid)) →
    Completes (.barrier r k q) s fun t =>
      (∃ e : BarEntry, t.bars = s.bars ++ [e] ∧ e.node = .cluster r k ∧ e.f = barFields c ∧ e.count = 1 ∧ e.extra = 0 ∧ e.sent = false)
      ∧ (t.queue r k q).st = .waiting ∧ (t.queue r k q).arrived = true ∧ (t.queue r k q).pos = (s.queue r k q).pos
      ∧ (∀ a, t.reg a = s.reg a)
      ∧ (∀ q', q' < 4 → q' ≠ q → t.queue r k q' = s.queue r k q')
      ∧ (∀ r' k', otherCluster r k r' k' → t.cl r' k' = s.cl r' k') ∧ SameMemory s t

/-- R106, R107, R291: whatever its opcode, a due command whose predicate asks for it is skipped: SEQ_SKIPPED and SEQ_Q_RETIRED take one more, the
queue goes on, nothing goes into flight and no flag is signalled. -/
def Obligations.PredicateSkips : Prop :=
  ∀ (i : Instr) (s : State) (r k q : Nat) (sel : Cmd512 → Bool) (c : Cmd512),
    streamRow i = some (r, k, q, sel) → Instr.wf i = true → Due s r k q c (streamEnv i) → sel c = true → s.verdict r k q c (streamEnv i) = .pred →
    Completes i s fun t =>
      t.queue r k q = (s.queue r k q).advance (s.cl r k).beat
      ∧ t.reg (A.skipped r k) = BitVec.ofNat 64 (satAdd 48 (s.regN (A.skipped r k)) 1)
      ∧ t.reg (A.qRetired r k q) = BitVec.ofNat 64 (satAdd 48 (s.regN (A.qRetired r k q)) 1)
      ∧ (t.cl r k).lris = (s.cl r k).lris ∧ (t.cl r k).cnt = (s.cl r k).cnt ∧ (∀ r', t.rg r' = s.rg r')
      ∧ (∀ a, a ≠ A.skipped r k → a ≠ A.qRetired r k q → t.reg a = s.reg a)
      ∧ (∀ q', q' < 4 → q' ≠ q → t.queue r k q' = s.queue r k q')
      ∧ (∀ r' k', otherCluster r k r' k' → t.cl r' k' = s.cl r' k') ∧ SameMemory s t

/-! ### Doorbells -/

/-- R92, R95: a doorbell that reaches a working cluster and is not dropped starts the queues that its mask names, each with the base and the length
captured then, and remembers the set; SEQ_LDOORBELL does the same at the physical cluster that carries the logical number. Queues it does not name,
other clusters, registers and memory stay. R92, R95, R511: a doorbell that is dropped starts nothing and is counted: in SEQ_ABSENT_RING of its region
where the cluster is retired, or a gated spare, else in SEQ_RING_DROP of the cluster. -/
def Obligations.DoorbellStartsOrIsDropped : Prop :=
  (∀ (i : Instr) (s : State) (p : Party) (r k l m : Nat) (d : RegDef),
      Instr.wf i = true → k < 9 → (s.cl r k).retired = false → s.isGated r k = false → s.ringDropped r k m = false →
      (i = .seqDoorbell p r k m ∧ Reaches s p (A.doorbell r k) d m
        ∨ i = .seqLdoorbell p r l m ∧ s.physOf r l = k ∧ Reaches s p (A.ldoorbell r) d (m + l * 16)) →
      Completes i s fun t =>
        (∀ q, q < 4 → m.testBit q = true →
          (t.queue r k q).st = .starting ∧ (t.queue r k q).train = true ∧ (t.queue r k q).pos = 0 ∧ (t.queue r k q).req = 0
          ∧ (t.queue r k q).base = s.fieldN (A.qBase r k q) 6 46 * 64 ∧ (t.queue r k q).len = some (s.fieldN (A.qLen r k q) 0 24))
        ∧ (∀ q, q < 4 → m.testBit q = false → t.queue r k q = s.queue r k q)
        ∧ (t.cl r k).starts = (s.cl r k).starts ++ [m]
        ∧ (∀ a, t.reg a = s.reg a) ∧ (∀ r' k', otherCluster r k r' k' → t.cl r' k' = s.cl r' k') ∧ SameMemory s t)
  ∧ (∀ (s : State) (p : Party) (r k m : Nat) (d : RegDef),
      Instr.wf (.seqDoorbell p r k m) = true → Reaches s p (A.doorbell r k) d m →
      Completes (.seqDoorbell p r k m) s fun t =>
        ((s.cl r k).retired = true → t = s.bump (A.absentRing r) 1)
        ∧ ((s.cl r k).retired = false → s.ringDropped r k m = true → t = s.bump (A.ringDrop r k) 1))
  ∧ (∀ (s : State) (p : Party) (r k m : Nat),
      Instr.wf (.seqDoorbell p r k m) = true → s.csrOpen p (A.doorbell r k) true = true → s.isGated r k = true →
      exec (.seqDoorbell p r k m) s = .next (s.bump (A.absentRing r) 1))

/-! ### Events of a cluster -/

/-- R92: in a beat in which every queue of the one set that is starting holds its first commands, the set starts: its queues issue from this beat as
their origin; a set that does not hold them goes on waiting. -/
def Obligations.StartBeatStartsTheSet : Prop :=
  ∀ (s : State) (r k m : Nat),
    Instr.wf (.startBeat r k) = true → s.beats r k = true → (s.cl r k).starts = [m] →
    Completes (.startBeat r k) s fun t =>
      ((∀ q, q < 4 → m.testBit q = true → (s.queue r k q).loaded = true) →
        (t.cl r k).starts = []
        ∧ ∀ q, q < 4 → m.testBit q = true →
            (t.queue r k q).st = .issuing ∧ (t.queue r k q).origin = (s.cl r k).beat ∧ (t.queue r k q).first = true
            ∧ (t.queue r k q).pos = (s.queue r k q).pos)
      ∧ (∀ q, q < 4 → m.testBit q = true → (s.queue r k q).loaded = false → t = s)
      ∧ (∀ q, q < 4 → m.testBit q = false → t.queue r k q = s.queue r k q)
      ∧ (∀ a, t.reg a = s.reg a) ∧ (∀ r' k', otherCluster r k r' k' → t.cl r' k' = s.cl r' k') ∧ SameMemory s t

/-- R96: QUEUE_FETCH_REQUEST of a queue that may fetch answers a next state, in which the queue has asked its region's router for its next 64 commands,
or for those that remain, in one request. R96: QUEUE_FETCH_COMPLETE of an accepted fetch whose accesses are served answers a next state, in which the
request has left the router and its commands stand in the buffer of the queue, under the indices requested, if the queue still runs the stream that
asked. -/
def Obligations.QueuesFetch : Prop :=
  (∀ (s : State) (r k q : Nat),
      Instr.wf (.queueFetchRequest r k q) = true → s.beats r k = true → s.up = true → (s.rg r).inReset = false → s.mayFetch r k q = true →
      ∃ t, Sys2Proof.Machine.exec (.queueFetchRequest r k q) s = .next t
        ∧ (t.queue r k q).req = (s.queue r k q).req
          + (match (s.queue r k q).len with | some n => min 64 (n - (s.queue r k q).req) | none => 64)
        ∧ (t.queue r k q).pos = (s.queue r k q).pos ∧ (t.queue r k q).buf = (s.queue r k q).buf
        ∧ (t.rg r).nextReq = (s.rg r).nextReq + 1 ∧ (t.rg r).accepted = (s.rg r).accepted
        ∧ (∀ q', q' < 4 → q' ≠ q → t.queue r k q' = s.queue r k q')
        ∧ (∀ r' k', otherCluster r k r' k' → t.cl r' k' = s.cl r' k') ∧ SameMemory s t)
  ∧ (∀ (s : State) (r id : Nat) (e : Env) (x : Req) (q gen base idx n : Nat),
      Instr.wf (.queueFetchComplete r id e) = true → s.portsIdle = true → s.acceptedReq r id = some x → x.kind = .fetch q gen base idx n →
      s.served r x = true → q < 4 →
      ∃ t, Sys2Proof.Machine.exec (.queueFetchComplete r id e) s = .next t
        ∧ ((s.queue r x.k q).gen = gen →
          ∃ cs : List (Nat × Cmd512), (t.queue r x.k q).buf = (s.queue r x.k q).buf ++ cs ∧ cs.length = n ∧ ∀ c ∈ cs, idx ≤ c.1 ∧ c.1 < idx + n)
        ∧ ((s.queue r x.k q).gen ≠ gen → t.queue r x.k q = s.queue r x.k q)
        ∧ (t.queue r x.k q).pos = (s.queue r x.k q).pos ∧ (t.queue r x.k q).st = (s.queue r x.k q).st
        ∧ t.acceptedReq r id = none ∧ (t.rg r).waiting = (s.rg r).waiting
        ∧ (∀ r' k', otherCluster r x.k r' k' → t.cl r' k' = s.cl r' k') ∧ (NoErrors e → SameMemory s t))

/-- R37, R50, R102: STRETCH_YIELD where an access has been held 16 times, HOLD_BEAT where a hold cause holds, and CLUSTER_BEAT in either case, each
answers a next state: a beat has elapsed that is no schedule beat. The cluster's beat, queues and commands in flight stay; its elapsed beats and the
counter of the cause take one more, and no other register changes. R33, R37: where neither holds, CLUSTER_BEAT answers a next state in which the
cluster's beat is one more, and so many elapsed beats more as the beat and its stretch beats take; no other cluster moves. -/
def Obligations.BeatsPass : Prop :=
  (∀ (i : Instr) (s : State) (r k a : Nat) (e : Env),
      Instr.wf i = true → s.portsIdle = true → s.beats r k = true → (s.cl r k).slipNow = [] →
      ((i = .stretchYield r k ∨ i = .clusterBeat r k e) ∧ (s.cl r k).yields = true ∧ a = A.yield_ r k
        ∨ (i = .holdBeat r k ∧ e = noEnv ∨ i = .clusterBeat r k e) ∧ (s.cl r k).yields = false ∧ s.beginBeat r k = s ∧ s.holdCause r k e = some a) →
      ∃ t, Sys2Proof.Machine.exec i s = .next t
        ∧ (t.cl r k).beat = (s.cl r k).beat ∧ (t.cl r k).elapsed = (s.cl r k).elapsed + 1 ∧ (t.cl r k).queues = (s.cl r k).queues
        ∧ (t.cl r k).lris = (s.cl r k).lris ∧ t.reg a = BitVec.ofNat 64 (satAdd 48 (s.regN a) 1) ∧ (∀ b, b ≠ a → t.reg b = s.reg b)
        ∧ (∀ r' k', otherCluster r k r' k' → t.cl r' k' = s.cl r' k') ∧ SameMemory s t)
  ∧ (∀ (s : State) (r k : Nat) (e : Env),
      Instr.wf (.clusterBeat r k e) = true → s.portsIdle = true → s.beats r k = true → (s.cl r k).yields = false → s.beginBeat r k = s →
      Unheld s r k e →
      ∃ t, Sys2Proof.Machine.exec (.clusterBeat r k e) s = .next t
        ∧ (t.cl r k).beat = (s.cl r k).beat + 1 ∧ (s.cl r k).elapsed + 1 ≤ (t.cl r k).elapsed
        ∧ (∀ r' k', otherCluster r k r' k' → t.cl r' k' = s.cl r' k'))

/-- R109, R110: TIMED_DONE_POINT of a timed command whose done point has come answers a next state, in which the command has left its cluster and
SEQ_Q_RETIRED of its queue has taken one more; every other command in flight, the queues and memory stay. R112, R113: DESC_LOAD_DONE of a DESC_LOAD
whose accesses are served answers a next state, in which it has left flight and its region's router, no entry waits for it any more, entries it does
not name keep their descriptors, and it has retired. -/
def Obligations.CommandsInFlightEnd : Prop :=
  (∀ (s : State) (r k id : Nat) (l : Lri),
      Instr.wf (.timedDonePoint r k id) = true → s.beats r k = true → ((s.cl r k).dueDone.find? fun x => x.id == id) = some l → l.q < 4 →
      (∀ c, (s.rg r).owner = some c → c < 16) →
      ∃ t, Sys2Proof.Machine.exec (.timedDonePoint r k id) s = .next t
        ∧ (t.cl r k).lris = (s.cl r k).lris.filter (fun x => x.id != id)
        ∧ t.reg (A.qRetired r k l.q) = BitVec.ofNat 64 (satAdd 48 (s.regN (A.qRetired r k l.q)) 1)
        ∧ (t.cl r k).queues = (s.cl r k).queues ∧ (t.cl r k).beat = (s.cl r k).beat
        ∧ (∀ r' k', otherCluster r k r' k' → t.cl r' k' = s.cl r' k') ∧ SameMemory s t)
  ∧ (∀ (s : State) (r id lri : Nat) (e : Env) (x : Req) (l : Lri),
      Instr.wf (.descLoadDone r id e) = true → s.portsIdle = true → s.acceptedReq r id = some x → x.kind = .desc lri →
      (s.cl r x.k).lri lri = some l → s.served r x = true → Named s r x →
      ∃ t, Sys2Proof.Machine.exec (.descLoadDone r id e) s = .next t
        ∧ (t.cl r x.k).lris = (s.cl r x.k).lris.filter (fun y => y.id != lri)
        ∧ (t.cl r x.k).dpend = (s.cl r x.k).dpend.filter (fun y => y.1 != lri)
        ∧ (∀ n, n < dlFirst l.cmd ∨ dlFirst l.cmd + dlCount l.cmd ≤ n → (t.cl r x.k).entry n = (s.cl r x.k).entry n)
        ∧ t.acceptedReq r id = none
        ∧ t.reg (A.qRetired r x.k l.q) = BitVec.ofNat 64 (satAdd 48 (s.regN (A.qRetired r x.k l.q)) 1)
        ∧ (∀ r' k', otherCluster r x.k r' k' → t.cl r' k' = s.cl r' k') ∧ (NoErrors e → SameMemory s t))

/-! ### Evaluation -/

/-- R121: STEP_RETURN_NO_SWITCH, where every training queue holds at a STEP_POINT with its next commands loaded and the sequencer does not switch,
answers a next state, in which every training queue issues again, all from this beat. R121, R122: EVAL_SWITCH, where an evaluation is enabled and not
done, answers a next state, in which the sequencer has left training: a training queue with an evaluation stream fetches it from its recorded place,
its own place kept. -/
def Obligations.StepPointTurns : Prop :=
  (∀ (s : State) (r k : Nat),
      Instr.wf (.stepReturnNoSwitch r k) = true → s.beats r k = true → (s.cl r k).phase = .train → (s.cl r k).allHeld = true →
      (s.cl r k).sliceDue = false → s.noSwitch r k = true →
      (∀ q ∈ (s.cl r k).queues, q.training = true → q.loaded = true) →
      ∃ t, Sys2Proof.Machine.exec (.stepReturnNoSwitch r k) s = .next t
        ∧ (t.cl r k).queues = (s.cl r k).queues.map (fun q => if q.training then { q with st := .issuing, origin := (s.cl r k).beat, first := true } else q)
        ∧ (t.cl r k).phase = .train ∧ (t.cl r k).beat = (s.cl r k).beat ∧ (∀ a, t.reg a = s.reg a)
        ∧ (∀ r' k', otherCluster r k r' k' → t.cl r' k' = s.cl r' k') ∧ SameMemory s t)
  ∧ (∀ (s : State) (r k : Nat),
      Instr.wf (.evalSwitch r k) = true → s.beats r k = true → (s.cl r k).phase = .train → (s.cl r k).allHeld = true →
      (s.cl r k).sliceDue = false → s.noSwitch r k = false →
      ∃ t, Sys2Proof.Machine.exec (.evalSwitch r k) s = .next t
        ∧ (t.cl r k).phase = .toEval ∧ (t.cl r k).beat = (s.cl r k).beat
        ∧ (∀ q, q < 4 → (s.queue r k q).training = true → s.fieldN (A.evalBase r k q) 6 46 ≠ 0 →
            (t.queue r k q).st = .fetching ∧ (t.queue r k q).base = s.fieldN (A.evalBase r k q) 6 46 * 64
            ∧ (t.queue r k q).pos = s.fieldN (A.evalPos r k q) 0 24 ∧ (t.queue r k q).len = none
            ∧ (t.queue r k q).tbase = (s.queue r k q).base ∧ (t.queue r k q).tpos = (s.queue r k q).pos)
        ∧ (∀ a, t.reg a = s.reg a) ∧ (∀ r' k', otherCluster r k r' k' → t.cl r' k' = s.cl r' k') ∧ SameMemory s t)

/-! ### Requests at a region's router -/

/-- R56, R115: MOVER_COMMAND_START of a mover with a command that waits and fewer than four started answers a next state, in which the command is
started or already done. R257: TRANSLATION_WALK of a request whose walks may run answers a next state, in which it is translated, or dropped for its
fault. R57, R58, R60: ADMISSION_ACCEPT of a request that may be accepted answers a next state, in which it waits no more and, but for an increment, is
among the accepted ones with its bound. -/
def Obligations.RequestsPassTheRouter : Prop :=
  (∀ (s : State) (r k m : Nat) (e : Env) (l : Lri) (o : MvOp),
      Instr.wf (.moverCommandStart r k m e) = true → s.up = true → (s.rg r).inReset = false → s.moverNext r k m = some l → MvOp.ofCmd l.cmd = some o →
      ∃ t, Sys2Proof.Machine.exec (.moverCommandStart r k m e) s = .next t
        ∧ (∀ l' ∈ (t.cl r k).lris, l'.id = l.id → l'.mv.started = true) ∧ (t.rg r).accepted = (s.rg r).accepted
        ∧ (Hdr.opcode l.cmd ≠ 0x0C3 → (t.cl r k).queues = (s.cl r k).queues ∧ SameMemory s t))
  ∧ (∀ (s : State) (r id beats : Nat) (e : Env) (q : Req),
      Instr.wf (.translationWalk r id beats e) = true → s.up = true → (s.rg r).inReset = false → s.waitingReq r id = some q →
      s.mayWalk r q e = true →
      ∃ t, Sys2Proof.Machine.exec (.translationWalk r id beats e) s = .next t
        ∧ (∀ q' ∈ (t.rg r).waiting, q'.id = id → q'.walked = true) ∧ (t.rg r).accepted = (s.rg r).accepted ∧ SameMemory s t)
  ∧ (∀ (s : State) (r id : Nat) (e : Env) (q : Req),
      Instr.wf (.admissionAccept r id e) = true → s.waitingReq r id = some q → s.mayAccept r q e = true →
      ∃ t, Sys2Proof.Machine.exec (.admissionAccept r id e) s = .next t
        ∧ (∀ q' ∈ (t.rg r).waiting, q'.id ≠ id)
        ∧ ((∀ a b c d, q.kind ≠ .flag a b c d) →
          ∃ q' ∈ (t.rg r).accepted, q'.id = id ∧ q'.kind = q.kind ∧ q'.bound = s.reqBound r (s.settled e r q)))

/-- R60, R153: MOVER_REQUEST_COMPLETE of an accepted mover request that waits for nothing more in the module answers a next state, in which it has left
its router. R270, R274: so do CXL_REQUEST_TIMEOUT and MLM_WINDOW_TIMEOUT of an accepted request of any kind with an end in the CXL tier or in the
companion's memory, and count it. R327: so does REMOTE_REQUEST_TIMEOUT of a mover request of which a packet is not answered, and counts it. -/
def Obligations.RequestsLeaveTheRouter : Prop :=
  ∀ (s : State) (r id : Nat) (e : Env) (x : Req), Named s r x → s.portsIdle = true → s.acceptedReq r id = some x →
    (∀ lri m part lo hi, x.kind = .mover lri m part lo hi → Finishes s r x →
      ∃ t, Sys2Proof.Machine.exec (.moverRequestComplete r id e) s = .next t ∧ t.acceptedReq r id = none)
    ∧ (Finishes s r x → ∀ p, (((s.reqPlaces r x).1 ++ (s.reqPlaces r x).2).find? Loc.cxl) = some p →
      ∃ t, Sys2Proof.Machine.exec (.cxlRequestTimeout r id e) s = .next t ∧ t.acceptedReq r id = none
        ∧ t.reg (A.cxlTimeouts (cxlPort p.addr)) = BitVec.ofNat 64 (satAdd 48 (s.regN (A.cxlTimeouts (cxlPort p.addr))) 1))
    ∧ (Finishes s r x → ((s.reqPlaces r x).1 ++ (s.reqPlaces r x).2).any Loc.companion = true →
      ∃ t, Sys2Proof.Machine.exec (.mlmWindowTimeout r id e) s = .next t ∧ t.acceptedReq r id = none
        ∧ t.reg A.mlmTimeouts = BitVec.ofNat 64 (satAdd 48 (s.regN A.mlmTimeouts) 1))
    ∧ (∀ lri m part lo hi l o, x.kind = .mover lri m part lo hi → s.mvOf r x = some (l, o) → inTurn l part = true → (s.farMod r x).isSome = true →
      (∃ y ∈ s.sentOf r id, y.done = false) →
      ∃ t, Sys2Proof.Machine.exec (.remoteRequestTimeout r id e) s = .next t ∧ t.acceptedReq r id = none
        ∧ t.reg A.remoteTimeouts = BitVec.ofNat 64 (satAdd 48 (s.regN A.remoteTimeouts) 1))

/-! ### Counters and barriers -/

/-- R286, R293: SYNC_POKE with a nonzero increment, by a party that may write it, answers a next state, in which the increment is added to the COUNT of
the region's node counter it names, which stops at the top, counts a saturation, and leaves MATCHED and every other counter. R292: INCREMENT_VISIBLE of
an increment of a node counter that a cluster has not seen, in a later beat of the cluster, answers a next state, in which it is hidden no more; the
counter, other clusters and memory stay. -/
def Obligations.NodeCountersIncrement : Prop :=
  (∀ (s : State) (p : Party) (r idx inc : Nat) (d : RegDef),
      Instr.wf (.syncPoke p r idx inc) = true → Reaches s p (A.poke r) d (idx + inc * 65536) → 0 < inc →
      ∃ t, Sys2Proof.Machine.exec (.syncPoke p r idx inc) s = .next t
        ∧ ((t.rg r).ctr idx).count = min (((s.rg r).ctr idx).count + inc) ctrMax
        ∧ ((t.rg r).ctr idx).matched = ((s.rg r).ctr idx).matched
        ∧ (∀ j, j ≠ idx → (t.rg r).ctr j = (s.rg r).ctr j)
        ∧ t.reg (A.syncSat r) = (if ctrMax < ((s.rg r).ctr idx).count + inc
            then BitVec.ofNat 64 (satAdd 48 (s.regN (A.syncSat r)) 1) else s.reg (A.syncSat r))
        ∧ (∀ a, a ≠ A.syncSat r → t.reg a = s.reg a) ∧ (∀ r', r' ≠ r → t.rg r' = s.rg r')
        ∧ (∀ r' k', t.cl r' k' = s.cl r' k') ∧ SameMemory s t)
  ∧ (∀ (s : State) (r k n : Nat) (u : Unseen),
      Instr.wf (.incrementVisible r k n) = true → ((s.rg r).unseen.filter fun u => u.k == k && !u.own)[n]? = some u → u.at_ < (s.cl r k).elapsed →
      ∃ t, Sys2Proof.Machine.exec (.incrementVisible r k n) s = .next t
        ∧ (t.rg r).unseen = (s.rg r).unseen.erase u ∧ (t.rg r).cnt = (s.rg r).cnt
        ∧ (∀ r', r' ≠ r → t.rg r' = s.rg r') ∧ (∀ r' k', t.cl r' k' = s.cl r' k') ∧ (∀ a, t.reg a = s.reg a) ∧ SameMemory s t)

/-- R298: BARRIER_NODE_ARRIVAL of a node that holds its expected number answers a next state: at the top of the barrier's scope below the fabric the
release starts; a region node below the top sends one arrival to its die. In either the node is marked as having answered. R295, R298: BARRIER_RELEASE
of a release at a region node answers a next state: the use of the ID that it ends is gone from the node, it goes on to every cluster of the region,
and with REALIGN it counts SYNC_EPOCH modulo 2^32. -/
def Obligations.BarriersReleaseRegions : Prop :=
  (∀ (s : State) (n : Nat) (e : BarEntry),
      s.up = true → (s.bars.filter s.barComplete)[n]? = some e →
      (∀ r c, (e.node = .region r ∧ e.f.scope = 1 ∨ e.node = .top c ∧ e.f.scope = 2) →
        ∃ t, Sys2Proof.Machine.exec (.barrierNodeArrival n) s = .next t
          ∧ t.rels = s.rels ++ [⟨e.node, e.f, s.nodeCtx e.node, e.stamp⟩]
          ∧ t.bars = s.bars.map (fun x => if x == e then { x with sent := true } else x)
          ∧ (∀ a, t.reg a = s.reg a) ∧ SameMemory s t)
      ∧ (∀ r, e.node = .region r → 2 ≤ e.f.scope →
        ∃ t, Sys2Proof.Machine.exec (.barrierNodeArrival n) s = .next t
          ∧ (∃ x ∈ t.bars, x.node = .die (dieOf r) (s.nodeCtx e.node) ∧ x.f.bid = e.f.bid ∧ 1 ≤ x.count + x.extra)
          ∧ { e with sent := true } ∈ t.bars ∧ t.rels = s.rels ∧ SameMemory s t))
  ∧ (∀ (s : State) (n r : Nat) (x : Rel),
      s.up = true → s.rels[n]? = some x → x.node = .region r → r < 48 →
      ∃ t, Sys2Proof.Machine.exec (.barrierRelease n) s = .next t
        ∧ (∀ e ∈ t.bars, ¬(e.node = .region r ∧ e.f = x.f ∧ e.sent = true))
        ∧ (∀ l, l < s.nClusters r → (⟨.cluster r (s.physOf r l), x.f, x.ctx, x.stamp⟩ : Rel) ∈ t.rels)
        ∧ t.regN (A.epoch r) = (if x.f.realign then (s.regN (A.epoch r) + 1) % 2 ^ 32 else s.regN (A.epoch r))
        ∧ SameMemory s t)

/-- R445: in the swap beat of a loaded maquette, with NOW or while no region is owned, the held set's swap fields come into force, the power-on fields
stay, CFG_MAQ_STATUS reads EMPTY again, ACTIVE_SET changes over, and a measurement record is committed. -/
def Obligations.MaquetteSwaps : Prop :=
  ∀ (s : State) (x : CfgSet),
    s.up = true → s.swapping = true → (s.bit A.maqCtrl 2 = true ∨ s.anyOwned = false) → s.maq = some x →
    Completes .swapBeat s fun t =>
      t.active = s.active.swapped x ∧ t.maq = none ∧ t.regN A.maqStatus = 0 ∧ t.bit A.bootStatus 13 = !s.bit A.bootStatus 13
      ∧ t.fieldN A.govCtrl 0 11 = x.cap % 2048 ∧ t.fieldN A.grace 0 16 = x.grace % 65536
      ∧ t.reg A.cfgSwaps = BitVec.ofNat 64 (satAdd 48 (s.regN A.cfgSwaps) 1)
      ∧ t.active.dataProt = s.active.dataProt ∧ t.active.ekbEn = s.active.ekbEn ∧ t.spdm.record = s.spdm.record + 1
      ∧ (∀ r' k', t.cl r' k' = s.cl r' k') ∧ (∀ r', t.rg r' = s.rg r') ∧ SameMemory s t

/-! ### Control writes -/

/-- R13, R14: a permitted write of a register that only stores what is written (none that starts an action, no counter, no power register) gives every
bit its access code: an RW bit takes the bit written, a W1C bit is cleared by a 1 unless the module set it in the same beat, any other bit stays; no
other register, no unit and no memory changes. -/
def Obligations.RegisterWriteStores : Prop :=
  ∀ (s : State) (p : Party) (a : Nat) (w : Reg64) (d : RegDef),
    Instr.wf (.registerWrite p a w) = true → Reaches s p a d w.toNat → d.acc ≠ .ro → d.wo = false → d.isCounter = false → d.kind ≠ .power →
    actionReg a = false →
    Completes (.registerWrite p a w) s fun t =>
      (∀ i, i < 64 → t.bit a i
        = (if d.w1c.testBit i && w.toNat.testBit i && !(s.justSet a d).testBit i then false else if d.rw.testBit i then w.toNat.testBit i else s.bit a i))
      ∧ (∀ b, b ≠ a → t.reg b = s.reg b) ∧ (∀ r k, t.cl r k = s.cl r k) ∧ (∀ r, t.rg r = s.rg r) ∧ (∀ c, t.cx c = s.cx c) ∧ SameMemory s t

/-- R426, R512, R513: a write at an offset that is not a multiple of 8, or of a register the party may not write, writes nothing and counts in
SEC_DENIED; one where no register lies changes nothing; a permitted write of a register nobody writes changes nothing; a permitted write of 0 clears a
counter, which then holds the events that its cluster has counted in the current beat, and of any other value in its 48 bits leaves it. -/
def Obligations.RegisterWriteRefused : Prop :=
  ∀ (s : State) (p : Party) (a : Nat) (w : Reg64),
    Instr.wf (.registerWrite p a w) = true → s.csrOpen p a true = true →
    (a % 8 ≠ 0 → exec (.registerWrite p a w) s = .next (s.bump A.denied 1))
    ∧ (a % 8 = 0 → isSfuWindow a = false → inView p a = true → regAt a = none → exec (.registerWrite p a w) s = .next s)
    ∧ (∀ d, isSfuWindow a = false → inView p a = true → regAt a = some d → s.inGated d = false →
        s.mayWrite p a d w.toNat = false → exec (.registerWrite p a w) s = .next (s.bump A.denied 1))
    ∧ (∀ d, Reaches s p a d w.toNat → d.acc = .ro → exec (.registerWrite p a w) s = .next s)
    ∧ (∀ d, Reaches s p a d w.toNat → d.acc ≠ .ro → d.kind = .ctr → (∀ k, k < 20 → a ≠ A.hbmPasses k) →
        (w.toNat % 2 ^ 48 = 0 → Completes (.registerWrite p a w) s fun t =>
            t.regN a = min (s.thisBeat a) (2 ^ 48 - 1) ∧ (∀ b, b ≠ a → t.reg b = s.reg b) ∧ SameMemory s t)
        ∧ (w.toNat % 2 ^ 48 ≠ 0 → exec (.registerWrite p a w) s = .next s))

/-- R43: PWR_GOV_CTRL lies at offset 0 of the power block and resets to 0x640; a permitted write stores bits [10:0], above 1,600 as 1,600, below 600
as 600, and bits [63:11] read 0, whether the row or a register write carries it. -/
def Obligations.PowerCapIsClamped : Prop :=
  A.govCtrl = A.pwr 0 ∧ State.reset.regN A.govCtrl = 0x640
  ∧ ∀ (s : State) (p : Party) (cap : Nat) (w : Reg64) (d : RegDef),
    (Instr.wf (.pwrGovCtrlWrite p cap) = true → cap < 2048 → Reaches s p A.govCtrl d cap →
      Completes (.pwrGovCtrlWrite p cap) s fun t =>
        t.regN A.govCtrl = max 600 (min 1600 cap) ∧ (∀ b, b ≠ A.govCtrl → t.reg b = s.reg b) ∧ t.rails = s.rails ∧ SameMemory s t)
    ∧ (Instr.wf (.registerWrite p A.govCtrl w) = true → Reaches s p A.govCtrl d w.toNat →
      Completes (.registerWrite p A.govCtrl w) s fun t => t.regN A.govCtrl = max 600 (min 1600 (w.toNat % 2048)))

/-- R336, R322, R504, R497: EKB_GRACE reads 10 to 10,000 whatever is written. A job ID becomes valid unless another context of the module holds it
valid; the second holder's VALID is 0 then, and its job ID stays. A TAIL that would show more messages than slots is ignored, any other is stored where no message waits.
MEM_MLM_WIN takes modes 0 to 2 while no region is owned, 1 and 2 only with M1 enabled; else it keeps its mode and CFG_REFUSED counts; mode 3 is
ignored. R316, R335: EKB_JOIN with GO makes an unjoined module a member under the number and epoch written; a member adopts a newer epoch under its
own number, ends its sessions with peers, and counts any other write; a quarantined one joins anew while no region is owned. -/
def Obligations.PlinthWritesAct : Prop :=
  (∀ (s : State) (p : Party) (d : RegDef), p.ok = true →
      (∀ ms, ms < 65536 → Reaches s p A.grace d ms →
        Completes (.ekbGraceWrite p ms) s fun t => t.regN A.grace = max 10 (min 10000 ms) ∧ (∀ b, b ≠ A.grace → t.reg b = s.reg b))
      ∧ (∀ c job valid, c < 16 → job < 65536 → Reaches s p (A.ctxJob c) d (job + if valid then 65536 else 0) →
        Completes (.ekbCtxJobWrite p c job valid) s fun t =>
          (t.bit (A.ctxJob c) 16 = true ↔ valid = true ∧ ∀ x, x < 16 → x ≠ c → ¬(s.bit (A.ctxJob x) 16 = true ∧ s.fieldN (A.ctxJob x) 0 16 = job))
          ∧ t.fieldN (A.ctxJob c) 0 16 = (if valid && !t.bit (A.ctxJob c) 16 then s.fieldN (A.ctxJob c) 0 16 else job)
          ∧ (∀ b, b ≠ A.ctxJob c → t.reg b = s.reg b) ∧ SameMemory s t)
      ∧ (∀ tail, tail < 2 ^ 32 → Reaches s p A.mboxTail d tail →
        Completes (.cfgMboxOutTail p tail) s fun t =>
          (s.mboxSlots < (s.mboxHead + 2 ^ 32 - tail) % 2 ^ 32 → t = s)
          ∧ ((s.mboxHead + 2 ^ 32 - tail) % 2 ^ 32 ≤ s.mboxSlots → s.heldMsgs = [] →
            t.regN A.mboxTail = tail ∧ (∀ b, b ≠ A.mboxTail → t.reg b = s.reg b)))
      ∧ (∀ mode, mode < 4 → Reaches s p A.mlmWin d mode →
        Completes (.memMlmWin p mode) s fun t =>
          (mode = 3 → t = s)
          ∧ (mode ≠ 3 → (s.anyOwned = true ∨ mode ≠ 0 ∧ s.bit A.shape 21 = false) → t = s.bump A.cfgRefused 1)
          ∧ (mode ≠ 3 → s.anyOwned = false → (mode = 0 ∨ s.bit A.shape 21 = true) →
            t.regN A.mlmWin = mode ∧ (∀ b, b ≠ A.mlmWin → t.reg b = s.reg b))))
  ∧ (∀ (s : State) (p : Party) (m e : Nat) (d : RegDef), p.ok = true → m < 4096 → e < 65536 →
      Reaches s p A.join d (m + e * 65536 + 2 ^ 32) →
      Completes (.ekbJoin p m e true) s fun t =>
        ((s.fieldN A.member 12 2 = 0 ∨ s.fieldN A.member 12 2 = 2 ∧ s.anyOwned = false) →
          t.isMember = true ∧ t.modNum = m ∧ t.fabEpoch = e
          ∧ t.bit A.member 48 = (s.bit A.member 48 && newerEpoch (s.fieldN A.member 32 16) e))
        ∧ (s.isMember = true → m = s.modNum → newerEpoch e s.fabEpoch = true →
          t.isMember = true ∧ t.modNum = m ∧ t.fabEpoch = e ∧ t.sessions = s.sessions.filter (fun x => 65536 ≤ x.peer) ∧ t.kexs = [])
        ∧ (s.isMember = true → (m ≠ s.modNum ∨ newerEpoch e s.fabEpoch = false) → t = s.bump A.joinRefused 1)
        ∧ SameMemory s t)

/-- R403, R404, R475: an accepted ASSIGN sets BUSY and gives the region its job; a region that has not been reset since its release is reset first,
IN_RESET reading 1. An accepted RELEASE does so and resets it, and so does an accepted reset request for a region or for the regions of a die. A
refused one sets LAST_REFUSED, or HLT_RESET_STATUS.REFUSED, and changes nothing else. -/
def Obligations.OwnershipAndResetsBegin : Prop :=
  ∀ (s : State) (p : Party) (d : RegDef), p.ok = true → s.activating = false →
    (∀ r c, r < 48 → c < 16 → Reaches s p A.regionAssign d (r + c * 64 + 1024) →
      Completes (.assign p r c) s fun t =>
        (s.assignOk r = false → t = s.setB A.assignStatus 1 true)
        ∧ (s.assignOk r = true → t.bit A.assignStatus 0 = true ∧ (t.rg r).job = .assign c ∧ (t.rg r).owner = none
          ∧ ((s.rg r).resetSince = false → s.resetting r = false → (t.rg r).inReset = true ∧ (t.rg r).waiting = []
            ∧ t.bit (A.regionEpoch r) 31 = true)
          ∧ ((s.rg r).resetSince = true → ∀ a, counterOfRegion r a = true → t.reg a = 0))
        ∧ SameMemory s t)
    ∧ (∀ r, r < 48 → s.up = true → Reaches s p A.regionAssign d (r + 2048) →
      Completes (.release p r) s fun t =>
        ((s.rg r).owner = none ∨ s.bit A.assignStatus 0 = true → t = s.setB A.assignStatus 1 true)
        ∧ (∀ c, (s.rg r).owner = some c → s.bit A.assignStatus 0 = false →
          t.bit A.assignStatus 0 = true ∧ (t.rg r).job = .release ∧ (t.rg r).owner = some c ∧ (t.rg r).inReset = true
          ∧ (t.rg r).loaded = false ∧ (t.rg r).waiting = [] ∧ t.bit (A.regionEpoch r) 31 = true)
        ∧ SameMemory s t)
    ∧ (∀ r, r < 48 → s.up = true → Reaches s p A.resetReq d (r * 2 + 128) →
      Completes (.regionReset p r) s fun t =>
        (s.resetting r = true → t = s.setB A.resetStatus 1 true)
        ∧ (s.resetting r = false → t.bit A.resetStatus 0 = true ∧ (t.rg r).inReset = true ∧ (t.rg r).owner = (s.rg r).owner
          ∧ (t.rg r).waiting = [] ∧ t.bit (A.regionEpoch r) 31 = true ∧ ∀ r', r' ≠ r → t.rg r' = s.rg r')
        ∧ SameMemory s t)
    ∧ (∀ n, n < 4 → s.up = true → Reaches s p A.resetReq d (1 + n * 2 + 128) →
      Completes (.dieReset p n) s fun t =>
        (n ∈ s.dieReset → t = s.setB A.resetStatus 1 true)
        ∧ (n ∉ s.dieReset → t.bit A.resetStatus 0 = true ∧ n ∈ t.dieReset
          ∧ (∀ r, dieOf r = n → (t.rg r).inReset = true ∧ (t.rg r).owner = (s.rg r).owner ∧ t.bit (A.regionEpoch r) 31 = true)
          ∧ (∀ r, dieOf r ≠ n → t.rg r = s.rg r) ∧ (∀ i, i < 5 → t.bit (A.hbmStatus (5 * n + i)) 0 = false))
        ∧ SameMemory s t)

/-- R411, R405, R258: SEC_ROTATE of an ACTIVE context in data-protected mode moves its current key to the previous slot and fills the current one
under the other generation; of any other it is counted. A scrub that R405 allows sets BUSY and names its parts, any other sets REFUSED. An
invalidation sets BUSY and drops its leaves from every cache; while one runs, another is counted and ignored. -/
def Obligations.SecurityCommandsAct : Prop :=
  ∀ (s : State) (p : Party) (d : RegDef), p.ok = true → s.activating = false →
    (∀ c, c < 16 → Reaches s p A.secRotate d (c + 16) →
      Completes (.secRotate p c) s fun t =>
        ((s.dataProt = false ∨ s.fieldN (A.keyStatus c) 0 2 ≠ 1) → t = s.bump A.rotRefused 1)
        ∧ (s.dataProt = true → s.fieldN (A.keyStatus c) 0 2 = 1 → s.rngOk = true → s.sweepList c ≠ [] →
          (t.cx c).cur = some s.nextKey ∧ (t.cx c).prev = (s.cx c).cur ∧ (t.cx c).curGen = 1 - (s.cx c).curGen
          ∧ (t.cx c).sweep = s.sweepList c ∧ t.fieldN (A.keyStatus c) 0 2 = 2 ∧ ∀ c', c' ≠ c → t.cx c' = s.cx c')
        ∧ SameMemory s t)
    ∧ (∀ parts, parts < 1048576 → Reaches s p A.scrubCtrl d (parts + 1048576) →
      Completes (.scrubGo p parts) s fun t =>
        (s.scrubOk (s.fieldN A.scrubBase 21 31 * 0x200000) parts = true →
          t.bit A.scrubStatus 0 = true
          ∧ t.scrub = (List.range parts).map (fun i => s.fieldN A.scrubBase 21 31 * 0x200000 + i * 0x200000))
        ∧ (s.scrubOk (s.fieldN A.scrubBase 21 31 * 0x200000) parts = false → t.bit A.scrubStatus 2 = true ∧ t.scrub = s.scrub)
        ∧ t.fieldN A.scrubCtrl 0 20 = parts ∧ SameMemory s t)
    ∧ (∀ c all page, c < 16 → page < 2 ^ 52 → page % 0x200000 = 0 →
      Reaches s p A.xlateInv d (c + (if all then 16 else 0) + page) → (∀ x, p = .ctx x → x = c) →
      Completes (.memXlateInv p c all page) s fun t =>
        (s.inv.isSome = true → t = s.bump A.invDrop 1)
        ∧ (s.inv = none → t.inv = some (c, all, page) ∧ t.bit A.invStatus 0 = true
          ∧ ∀ r, r < 48 → ∀ q ∈ (t.rg r).cache, invCovers (c, all, page) q = false)
        ∧ SameMemory s t)

/-- R444, R445, R446, R447: LOAD outside LOADING and SWAPPING sets LOADING and drops the set held; SWAP in LOADED sets SWAPPING with NOW; DISCARD in
LOADED or REJECTED returns to EMPTY; each of them elsewhere is refused and counted. ACTIVATE of a slot that fails its check records the error; of one
that passes, it sets both ACTIVATING bits, after the heartbeat that announces it. -/
def Obligations.MaquetteAndActivationBegin : Prop :=
  ∀ (s : State) (p : Party) (d : RegDef), p.ok = true → s.up = true → s.activating = false →
    (Reaches s p A.maqCtrl d (s.fieldN A.maqCtrl 2 1 * 4 + 1) → s.staging = false →
      Completes (.maqLoad p) s fun t =>
        (s.maqBusy = false → t.regN A.maqStatus = 1 ∧ t.maq = none ∧ t.active = s.active)
        ∧ (s.maqBusy = true → t.reg A.cfgRefused = BitVec.ofNat 64 (satAdd 48 (s.regN A.cfgRefused) 1) ∧ t.reg A.maqStatus = s.reg A.maqStatus
          ∧ t.maq = s.maq)
        ∧ SameMemory s t)
    ∧ (∀ now, Reaches s p A.maqCtrl d ((if now then 4 else 0) + 2) →
      Completes (.maqSwap p now) s fun t =>
        (s.maqState = 2 → t.swapping = true ∧ t.bit A.maqCtrl 2 = now ∧ t.maq = s.maq ∧ t.active = s.active)
        ∧ (s.maqState ≠ 2 → t.reg A.cfgRefused = BitVec.ofNat 64 (satAdd 48 (s.regN A.cfgRefused) 1)
          ∧ t.reg A.maqStatus = s.reg A.maqStatus ∧ t.maq = s.maq)
        ∧ SameMemory s t)
    ∧ (Reaches s p A.maqCtrl d (s.fieldN A.maqCtrl 2 1 * 4 + 8) →
      Completes (.maqDiscard p) s fun t =>
        ((s.maqState = 2 ∨ s.maqState = 3) → t.regN A.maqStatus = 0 ∧ t.maq = none)
        ∧ (s.maqBusy = true → t.reg A.cfgRefused = BitVec.ofNat 64 (satAdd 48 (s.regN A.cfgRefused) 1) ∧ t.maq = s.maq)
        ∧ t.active = s.active ∧ SameMemory s t)
    ∧ (∀ persist, Reaches s p A.fwCtrl d (1 + if persist then 2 else 0) → s.staging = false → s.maqBusy = false →
      Completes (.fwActivate p persist) s fun t =>
        (s.slotCheck (1 - s.runningSlot) ≠ 0 → s.slotCheck (1 - s.runningSlot) < 16 →
          t.fieldN A.fwStatus 4 4 = s.slotCheck (1 - s.runningSlot) ∧ t.activating = false ∧ t.firm = s.firm)
        ∧ (s.slotCheck (1 - s.runningSlot) = 0 →
          t.activating = true ∧ t.bit A.fwStatus 0 = true ∧ t.firm.persist = persist ∧ t.wdog.sent = s.wdog.sent + 1
          ∧ t.fieldN A.hltHeartbeat 32 3 = 3))

/-- R449 to R451, R503: GO for a staging that passes every check sets BUSY and holds the image for the area that is not in use; one that fails sets
the error, counts in CFG_REFUSED, and stages nothing. CFG_BOOT_SEL of a slot that does not verify answers error 3, of a set that does not pass error
5, else a header copy with the next SEQ goes to the other sector. GO of the inbox takes a message of TYPE 1 whose LEN agrees, else it sets REFUSED. -/
def Obligations.StagingAndMailActs : Prop :=
  ∀ (s : State) (p : Party) (d : RegDef), p.ok = true → s.up = true → s.activating = false →
    (∀ len target e, len < 33554432 → target < 2 → Reaches s p A.stageCtrl d (len + target * 33554432 + 67108864) →
      Completes (.stageGo p len target e) s fun t =>
        (s.stageError e len target = 0 → t.staging = true ∧ t.firm.stage ≠ none ∧ t.fieldN A.stageCtrl 0 25 = len)
        ∧ (s.stageError e len target ≠ 0 → t.fieldN A.stageStatus 4 4 = s.stageError e len target % 16 ∧ t.firm = s.firm
          ∧ t.reg A.cfgRefused = BitVec.ofNat 64 (satAdd 48 (s.regN A.cfgRefused) 1))
        ∧ SameMemory s t)
    ∧ (∀ slot set, slot < 2 → set < 2 → s.staging = false → Reaches s p A.bootSel d (slot + set * 2 + 4) →
      Completes (.cfgBootSel p slot set) s fun t =>
        (s.slotCheck slot ≠ 0 → t = s.hdrError 3)
        ∧ (s.slotCheck slot = 0 → (∃ e, s.setAt set = .error e) → t = s.hdrError 5)
        ∧ (∀ x h i, s.slotCheck slot = 0 → s.setAt set = .ok x → s.header = some (i, h) → s.worn [flashHeader (1 - i) / 0x10000] = false →
          t.fieldN A.hdrStatus 0 1 = slot ∧ t.fieldN A.hdrStatus 1 1 = set ∧ t.mem = s.mem)
        ∧ (∀ x, s.slotCheck slot = 0 → s.setAt set = .ok x → s.header = none → t = s.hdrError 2))
    ∧ (∀ len, len < 8192 → Reaches s p A.mboxInCtrl d (len + 8192) →
      Completes (.mboxInGo p len) s fun t =>
        ((s.bit A.mboxInStatus 0 = false ∧ 16 ≤ len ∧ len ≤ 4096 ∧ bytesToNat (s.inboxBytes 2) = 1
            ∧ bytesToNat ((s.inboxBytes 4).drop 2) + 16 = len) →
          t.bit A.mboxInStatus 0 = true ∧ t.taking = some (s.inboxBytes len))
        ∧ (¬(s.bit A.mboxInStatus 0 = false ∧ 16 ≤ len ∧ len ≤ 4096 ∧ bytesToNat (s.inboxBytes 2) = 1
            ∧ bytesToNat ((s.inboxBytes 4).drop 2) + 16 = len) →
          t.bit A.mboxInStatus 2 = true ∧ t.taking = s.taking)
        ∧ SameMemory s t)

/-- R466, R468, R470, R479, R387: an accepted HLT_BIST_REQ leaves one pending slice of each kind on each cluster named; CANCEL leaves none in the
region; HLT_RETIRE of a flagged cluster makes a retirement, or a width change, pending; RERUN sets failed loopbacks of ports that are down;
HLT_RECOVER with the key begins recovery, without it nothing; MEM_SNAP_CTRL_c.REQ, which reads 1 then, arms a snapshot whose list R387 accepts,
refuses any other, and counts one that comes while a snapshot runs. -/
def Obligations.HealthCommandsAct : Prop :=
  ∀ (s : State) (p : Party) (d : RegDef), p.ok = true → s.up = true →
    (∀ r clusters kinds save, r < 48 → clusters < 512 → kinds < 256 → save < 8 → s.activating = false →
      Reaches s p A.bistReq d (r + clusters * 64 + kinds * 32768 + save * 8388608 + 67108864) →
      Completes (.bistReqGo p r clusters kinds save) s fun t =>
        ((s.bit (A.regionShape r) 4 = false ∨ kinds = 0 ∨ ∃ k, k < 9 ∧ clusters.testBit k = true ∧ (s.cl r k).retired = true) →
          t = s.setB A.bistStatus 1 true)
        ∧ (s.bit (A.regionShape r) 4 = true → kinds ≠ 0 → (∀ k, k < 9 → clusters.testBit k = true → (s.cl r k).retired = false) →
          (∀ k x, k < 9 → x < 8 → clusters.testBit k = true → kinds.testBit x = true →
            (t.cl r k).slices.pend.filter (fun y => y.1 == x) = [(x, save)])
          ∧ ∀ k, k < 9 → clusters.testBit k = false → t.cl r k = s.cl r k)
        ∧ (∀ a, a ≠ A.bistStatus → t.reg a = s.reg a) ∧ SameMemory s t)
    ∧ (∀ r, r < 48 → Reaches s p A.bistReq d (r + 134217728) →
      Completes (.bistReqCancel p r) s fun t =>
        (∀ k, k < 9 → (t.cl r k).slices.pend = [] ∧ (t.cl r k).slices.running = (s.cl r k).slices.running)
        ∧ (∀ a, t.reg a = s.reg a) ∧ SameMemory s t)
    ∧ (∀ r k, r < 48 → k < 9 → Reaches s p A.hltRetire d (r + k * 64 + 1024) → (s.cl r k).retired = false →
      Completes (.hltRetire p r k) s fun t =>
        (s.fieldN (A.hltCluster (9 * r + k)) 0 8 ≠ 0 ∨ s.bit (A.hltCluster (9 * r + k)) 24 = true →
          k ∈ (t.rg r).retirePend ∧ t.bit (A.regionShape r) 10 = true ∨ (∃ m, (k, m) ∈ (t.rg r).widthPend) ∧ t.bit (A.maShape r k) 15 = true)
        ∧ (s.fieldN (A.hltCluster (9 * r + k)) 0 8 = 0 → s.bit (A.hltCluster (9 * r + k)) 24 = false → s.regN (A.colFail (9 * r + k)) = 0 → t = s)
        ∧ (∀ r' k', t.cl r' k' = s.cl r' k') ∧ SameMemory s t)
    ∧ (∀ le lm lc, Reaches s p A.abist d (2 ^ 41) →
      Completes (.abistRerun p le lm lc) s fun t =>
        (∀ e, e < 8 → t.bit A.abist e = (s.bit A.abist e || (le.testBit e && !s.portUp e)))
        ∧ (∀ b, b ≠ A.abist → t.reg b = s.reg b) ∧ SameMemory s t)
    ∧ (∀ key go, key < 65536 → Reaches s p A.hltRecover d (key + if go then 65536 else 0) →
      Completes (.hltRecover p key go) s fun t =>
        (go = true → key = 0x5243 → t.boot = .recovering ∧ t.pins.ready = false ∧ t.wdog.stopped = true ∧ t.fieldN A.bootStatus 0 5 = 0)
        ∧ ((go = false ∨ key ≠ 0x5243) → t = s) ∧ SameMemory s t)
    ∧ (∀ c s1 e, c < 16 → Reaches s p (A.snapCtl c) d (s.regN (A.snapCtl c) ||| 2) →
      s1 = s.storeFields (A.snapCtl c) d (s.regN (A.snapCtl c) ||| 2) →
      Completes (.snapReq p c e) s fun t =>
        (∀ ps, s.fieldN (A.snapStatus c) 0 3 ≠ 1 → s.fieldN (A.snapStatus c) 0 3 ≠ 2 → s1.snapParts e c = some ps →
          t.fieldN (A.snapStatus c) 0 3 = 1 ∧ (t.cx c).snap.parts = ps)
        ∧ (s.fieldN (A.snapStatus c) 0 3 ≠ 1 → s.fieldN (A.snapStatus c) 0 3 ≠ 2 → s1.snapParts e c = none →
          t.regN (A.snapStatus c) = 4 ∧ t.reg A.snapRefused = BitVec.ofNat 64 (satAdd 48 (s.regN A.snapRefused) 1))
        ∧ (s.fieldN (A.snapStatus c) 0 3 = 1 ∨ s.fieldN (A.snapStatus c) 0 3 = 2 →
          t.reg (A.snapStatus c) = s.reg (A.snapStatus c) ∧ t.reg A.snapRefused = BitVec.ofNat 64 (satAdd 48 (s.regN A.snapRefused) 1))
        ∧ t.bit (A.snapCtl c) 1 = true ∧ (∀ a, t.mem.read a = s.mem.read a) ∧ (NoErrors e → SameMemory s t))

/-! ### Power, pace and monitors -/

/-- R39, R41, R42, R487: an interval of the governor takes at most one action: it moves rails, each by at most 5 mV, or takes one admission step down,
which is counted, or gives one back. With the power above the cap and every die at or below 1.12 Gbeat/s or at 0.64 V, it takes a step down. Above 105
°C or with the input outside 54 to 63 V it sets FLOOR_LOST; PEAK_W keeps the highest reading. -/
def Obligations.GovernorTakesOneAction : Prop :=
  ∀ (s : State) (x : Readings), s.up = true → s.portsIdle = true →
    Completes (.governorInterval x) s fun t =>
      (t.admDown = s.admDown ∨ t.rails = s.rails ∧ t.admDown + 1 = s.admDown
        ∨ t.rails = s.rails ∧ t.admDown = s.admDown + 1 ∧ t.admDown ≤ 24
            ∧ t.reg A.admSteps = BitVec.ofNat 64 (satAdd 48 (s.regN A.admSteps) 1))
      ∧ (∀ d, nth 0 t.rails d ≤ nth 0 s.rails d + 5 ∧ nth 0 s.rails d ≤ nth 0 t.rails d + 5)
      ∧ (s.fieldN A.govCtrl 0 11 < x.power → s.admDown < 24 →
          (∀ d, d < 4 → nth 0 s.rails d = 640 ∨ ∀ v, minOf (s.diePaces d) = some v → v ≤ 1120) →
          t.admDown = s.admDown + 1)
      ∧ ((x.vin < 54000 ∨ 63000 < x.vin ∨ ∃ j ∈ x.temps, 105 < j) → t.bit A.govStatus 9 = true)
      ∧ t.regN A.pwrPeak = max (s.regN A.pwrPeak) (min x.peak 4095)
      ∧ (∀ r k, t.cl r k = s.cl r k) ∧ (∀ r, t.rg r = s.rg r) ∧ SameMemory s t

/-- R38, R45, R460, R463, R487: a pace window leaves the pace less the cluster's guard, and its die's lowest pace; a patina measurement raises the
guard or leaves it; telemetry leaves power, voltage, temperatures, energy and peak as read. None of them touches anything else. -/
def Obligations.MeasurementsAreShown : Prop :=
  ∀ (s : State), s.up = true →
    (∀ r k pace, r < 48 → k < 9 → s.inService r k = true →
      Completes (.paceMeasurement r k pace) s fun t =>
        t.regN (A.pace r k) = min (pace - s.fieldN (A.hltCluster (9 * r + k)) 16 8) 65535
        ∧ t.fieldN (A.diePace (dieOf r)) 0 16 = (minOf (t.diePaces (dieOf r))).getD 0 % 65536
        ∧ (∀ a, a ≠ A.pace r k → a ≠ A.diePace (dieOf r) → t.reg a = s.reg a) ∧ (∀ r' k', t.cl r' k' = s.cl r' k') ∧ SameMemory s t)
    ∧ (∀ x : Readings, 0 < x.energy →
      Completes (.telemetryUpdate x) s fun t =>
        t.fieldN A.pwrIn 0 12 = min x.power 4095 ∧ t.fieldN A.pwrIn 12 16 = min x.vin 65535
        ∧ (∀ i j, i < 5 → x.temps[i]? = some j → -128 ≤ j → j < 128 → signed 8 (t.fieldN A.pwrTemp (8 * i) 8) = j)
        ∧ t.reg A.energy = BitVec.ofNat 64 (satAdd 48 (s.regN A.energy) x.energy)
        ∧ t.regN A.pwrPeak = max (s.regN A.pwrPeak) (min x.peak 4095)
        ∧ (∀ a, a ≠ A.pwrIn → a ≠ A.pwrTemp → a ≠ A.energy → a ≠ A.pwrPeak → t.reg a = s.reg a)
        ∧ (∀ r k, t.cl r k = s.cl r k) ∧ SameMemory s t)

/-- R460, R461: the guard is the largest value measured. When it reaches HLT_BIST_CTRL.PATINA_LIMIT, PATINA_OVER is set, and a flag newly set is
handled as R468 says: reported, and with AUTO_RETIRE the cluster's retirement is pending; else the region is left as it is. -/
def Obligations.PatinaFlagsTheCluster : Prop :=
  ∀ (s : State) (r k guard : Nat), s.up = true → r < 48 → k < 9 → s.inService r k = true →
    Completes (.patinaMonitor r k guard) s fun t =>
      t.fieldN (A.hltCluster (9 * r + k)) 16 8 = max (s.fieldN (A.hltCluster (9 * r + k)) 16 8) (min guard 255)
      ∧ (s.fieldN A.bistCtrl 1 8 ≤ t.fieldN (A.hltCluster (9 * r + k)) 16 8 →
        t.bit (A.hltCluster (9 * r + k)) 24 = true
        ∧ (s.bit (A.hltCluster (9 * r + k)) 24 = false →
          OutMsg.pldm 4 (9 * r + k) ∈ t.outbox
          ∧ (s.bit A.bistCtrl 0 = true → k ∈ (t.rg r).retirePend ∧ t.bit (A.regionShape r) 10 = true)
          ∧ (s.bit A.bistCtrl 0 = false → t.rg r = s.rg r)))
      ∧ (t.fieldN (A.hltCluster (9 * r + k)) 16 8 < s.fieldN A.bistCtrl 1 8 →
        t.bit (A.hltCluster (9 * r + k)) 24 = s.bit (A.hltCluster (9 * r + k)) 24 ∧ t.rg r = s.rg r)
      ∧ (∀ r' k', t.cl r' k' = s.cl r' k') ∧ SameMemory s t

/-- R383, R384: a tick of the health monitor shows the risk of its five scores. At THRESH with EN, armed and held off long enough, it triggers:
counted, reported, disarmed; it rearms only below THRESH − 16. -/
def Obligations.HealthMonitorTriggers : Prop :=
  ∀ (s : State) (e : Env), s.up = true → s.activating = false →
    Completes (.healthMonitorTick e) s fun t =>
      t.fieldN A.risk 0 8 = min 255 (sumNat s.scores)
      ∧ (s.fieldN A.snapCtrl 0 8 ≤ min 255 (sumNat s.scores) → s.bit A.snapCtrl 24 = true → s.health.armed = true →
        (∀ n, s.health.since = some n → 100 * s.fieldN A.snapCtrl 8 16 ≤ n + 1) →
        t.health.armed = false ∧ t.health.since = some 0 ∧ t.reg A.snapTriggers = BitVec.ofNat 64 (satAdd 48 (s.regN A.snapTriggers) 1)
        ∧ OutMsg.pldm 3 (min 255 (sumNat s.scores)) ∈ t.outbox)
      ∧ (min 255 (sumNat s.scores) < s.fieldN A.snapCtrl 0 8 → t.reg A.snapTriggers = s.reg A.snapTriggers
        ∧ (t.health.armed = true ↔ s.health.armed = true ∨ min 255 (sumNat s.scores) + 16 < s.fieldN A.snapCtrl 0 8))
      ∧ (∀ r k, t.cl r k = s.cl r k) ∧ (∀ a, t.mem.read a = s.mem.read a) ∧ (NoErrors e → SameMemory s t)

/-- R471, R473: a heartbeat carries the next SEQ, with STATE READY while no context is stalled. When one is, the watchdog fires: counted, FIRED set,
STATE NO_PROGRESS with the stalled contexts; after three such heartbeats none is sent any more. -/
def Obligations.HeartbeatBeats : Prop :=
  ∀ (s : State), s.up = true → s.activating = false → s.wdog.stopped = false →
    Completes .heartbeat s fun t =>
      (s.wdog.fired < 3 → t.wdog.sent = s.wdog.sent + 1 ∧ t.fieldN A.hltHeartbeat 0 32 = s.wdog.sent % 2 ^ 32
        ∧ t.fieldN A.hltHeartbeat 32 3 = (if s.sampleProgress.2 = 0 then 0 else 2) ∧ t.fieldN A.wdogStalled 0 16 = s.sampleProgress.2)
      ∧ (s.wdog.fired = 0 → s.sampleProgress.2 ≠ 0 →
        t.reg A.wdogFires = BitVec.ofNat 64 (satAdd 48 (s.regN A.wdogFires) 1) ∧ t.bit A.wdogStalled 16 = true ∧ t.wdog.fired = 1)
      ∧ (0 < s.wdog.fired → s.wdog.fired < 3 → t.wdog.fired = if s.sampleProgress.2 = 0 then 0 else s.wdog.fired + 1)
      ∧ (3 ≤ s.wdog.fired → t.wdog.stopped = true ∧ t.wdog.sent = s.wdog.sent ∧ t.reg A.hltHeartbeat = s.reg A.hltHeartbeat)
      ∧ (∀ r k, t.cl r k = s.cl r k) ∧ SameMemory s t

/-- R265, R457, R458, R470, R407: the background work. A patrol visit goes on to the stack's next granule: it corrects and counts, or poisons the granule
with an uncorrectable error and records its address; no other granule changes. An SRAM scrub read goes on to the bank's next line and counts each error
it meets there in its region. Recalibration goes round the stacks, RECAL reading 1 at one that is trained. An analogue check sets the bits of what
disagrees and clears none. A reseed starts the DRBG's count anew, and one that fails its health test stops it. -/
def Obligations.BackgroundWork : Prop :=
  ∀ (s : State), s.up = true →
    (∀ k e g, k < 20 → s.bit (A.hbmStatus k) 0 = true → g = s.patrolAt k →
      Completes (.patrolScrub k e) s fun t =>
        (∀ a, t.mem.read a = s.mem.read a)
        ∧ (g ∈ e.bad → (t.granAt g).poison = true ∧ t.reg (A.hbmUe k) = BitVec.ofNat 64 (satAdd 48 (s.regN (A.hbmUe k)) 1)
          ∧ t.reg (A.hbmErrAddr k) = BitVec.ofNat 64 (g + 2 ^ 63))
        ∧ (g ∉ e.bad → t.gran = s.gran ∧ t.reg (A.hbmUe k) = s.reg (A.hbmUe k))
        ∧ (g ∈ e.ce → t.reg (A.hbmCe k) = BitVec.ofNat 64 (satAdd 48 (s.regN (A.hbmCe k)) 1))
        ∧ (∀ a, granOf a ≠ granOf g → t.granAt a = s.granAt a)
        ∧ Sparse.get 0 t.patrol k = (if Sparse.get 0 s.patrol k + 1 = stackGranules then 0 else Sparse.get 0 s.patrol k + 1))
    ∧ (∀ r k b e line, r < 48 → k < 9 → b < 48 → s.resetting r = false →
      (32 ≤ b ∨ s.isGated r k = false ∧ (s.cl r k).retired = false ∧ (s.cl r k).slices.running = none) → line = s.scrubLineAt r k b / 128 →
      Completes (.sramScrubRead r k b e) s fun t =>
        (∀ w, w / 128 = line → e.ce = [w] → t.reg (A.spCe r) = BitVec.ofNat 64 (satAdd 48 (s.regN (A.spCe r)) 1))
        ∧ (∀ w, w / 128 = line → e.ue = [w] → t.reg (A.spUe r) = BitVec.ofNat 64 (satAdd 48 (s.regN (A.spUe r)) 1))
        ∧ ((∀ w ∈ e.ce, w / 128 ≠ line) → t.reg (A.spCe r) = s.reg (A.spCe r))
        ∧ ((∀ w ∈ e.ue, w / 128 ≠ line) → t.reg (A.spUe r) = s.reg (A.spUe r) ∧ SameMemory s t)
        ∧ Sparse.get 0 t.scrubLine (scrubKey r k b) = Sparse.get 0 s.scrubLine (scrubKey r k b) + 1
        ∧ (∀ a, a ≠ A.spCe r → a ≠ A.spUe r → a ≠ A.scrubPasses → t.reg a = s.reg a) ∧ (t.cl r k).queues = (s.cl r k).queues
        ∧ (∀ r' k', otherCluster r k r' k' → t.cl r' k' = s.cl r' k'))
    ∧ (∀ e, s.portsIdle = true → Completes (.hbmRecalibration e) s fun t =>
        t.recal = (s.recal % 20 + 1) % 20
        ∧ (s.bit (A.hbmStatus (s.recal % 20)) 0 = true → t.bit (A.hbmStatus (s.recal % 20)) 1 = true)
        ∧ (∀ a, a ≠ hbmRfm (s.recal % 20) → (∀ k, k < 20 → a ≠ A.hbmStatus k) → t.reg a = s.reg a) ∧ SameMemory s t)
    ∧ (∀ temps vin vref, Completes (.analogueCheck temps vin vref) s fun t =>
        (∀ i, i < 5 → t.bit A.abist (34 + i) = (s.bit A.abist (34 + i) || temps.testBit i))
        ∧ t.bit A.abist 39 = (s.bit A.abist 39 || decide (10 < vref)) ∧ t.bit A.abist 40 = (s.bit A.abist 40 || decide (10 < vin))
        ∧ (∀ i, i < 34 → t.bit A.abist i = s.bit A.abist i) ∧ (∀ a, a ≠ A.abist → t.reg a = s.reg a) ∧ SameMemory s t)
    ∧ (∀ healthy, s.rngOk = true → Completes (.drbgReseed healthy) s fun t =>
        (healthy = true → t.drbg = 0 ∧ t.rngOk = true) ∧ (healthy = false → t.rngOk = false ∧ OutMsg.pldm 1 0 ∈ t.outbox)
        ∧ (∀ a, a ≠ A.secStatus → t.reg a = s.reg a) ∧ SameMemory s t)

/-! ### Power-on reset, trip, boot and recovery -/

/-- R4, R480, R484, R485, R486, R492: PORST_N, an input below 50 V or above 66 V (or too long outside its range), the loss of VIN, and a thermal trip
each reset everything but the flash: registers stand at their reset values, nothing is owned, keyed, mapped or pending, and memory outside CXL reads as
after power-on. PORST_N, the loss of VIN and a trip leave READY and the pins as their rules say. A shorter excursion of the input only sets FLOOR_LOST
and its status bit. RECOV_N held for 1 ms begins recovery unless PORST_N is low. Without VIN only the pin PORST_N moves. -/
def Obligations.PowerEventsReset : Prop :=
  ∀ (s : State), s.firm.stage = none →
    (∀ i b, (i = .porstAssert ∧ s.boot ≠ .off ∧ b = .porst
        ∨ (∃ us, i = .vinUndervoltage 0 us) ∧ b = .off
        ∨ (∃ mv us, i = .vinUndervoltage mv us ∧ 0 < mv ∧ (mv < 50000 ∨ mv < 54000 ∧ 10000 < us) ∧ s.boot ≠ .tripped ∧ s.boot ≠ .off)
            ∧ b = (if s.pins.porst then .held else .porst)
        ∨ (∃ mv us, i = .vinOvervoltage mv us ∧ (66000 < mv ∨ 63000 < mv ∧ 100000 < us) ∧ s.boot ≠ .tripped ∧ s.boot ≠ .off)
            ∧ b = (if s.pins.porst then .held else .porst)
        ∨ (∃ j h us, i = .thermalTrip j h us ∧ (115 ≤ j ∨ 105 ≤ h) ∧ 100 ≤ us ∧ s.boot ≠ .tripped ∧ s.boot ≠ .off) ∧ b = .tripped) →
      Completes i s fun t =>
        t.boot = b ∧ t.regs = State.reset.regs ∧ t.clusters = [] ∧ t.regions = [] ∧ t.ctxs = [] ∧ t.sessions = [] ∧ t.maq = none ∧ t.identity = none
        ∧ t.sent = [] ∧ t.bars = [] ∧ t.pins.ready = false ∧ t.flash = s.flash ∧ (∀ a, isCxl a = false → t.mem.read a = 0#8)
        ∧ (i = .porstAssert → t.pins.porst = false) ∧ (b = .tripped → t.pins.thermtrip = false ∧ t.pins.converters = false)
        ∧ (b = .off → t.pins.converters = false))
    ∧ (s.boot = .off → Completes .porstAssert s fun t => t = { s with pins := { s.pins with porst := false } })
    ∧ (∀ mv us, 50000 ≤ mv → mv < 54000 → us ≤ 10000 → s.alive = true →
      Completes (.vinUndervoltage mv us) s fun t => t = (s.setB A.govStatus 9 true).setB A.vinStatus 0 true)
    ∧ (∀ mv us, 63000 < mv → mv ≤ 66000 → us ≤ 100000 → s.alive = true →
      Completes (.vinOvervoltage mv us) s fun t => t = (s.setB A.govStatus 9 true).setB A.vinStatus 1 true)
    ∧ (∀ us, s.alive = true →
      Completes (.recovEdge us) s fun t =>
        (s.pins.porst = true → 1000 ≤ us → t.boot = .recovering ∧ t.pins.ready = false ∧ t.wdog.stopped = true ∧ t.fieldN A.bootStatus 0 5 = 0
          ∧ SameMemory s t)
        ∧ ((s.pins.porst = false ∨ us < 1000) → t = s))

/-- R441, R442, R485: with PORST_N released, rails good and no sensor above its limit, boot runs: a flash that does not answer halts it with error 1,
no valid header with 2, two slots that fail with the error of the slot selected; with a good slot, set, identity and every stack trained, the set is
the active one and boot goes on. With the rails not good the module holds its reset. -/
def Obligations.BootFollowsPower : Prop :=
  (∀ (s : State) (hot : Int) (e : BootEnv), s.boot = .porst → s.pins.porst = false →
    Completes (.porstRelease false hot e) s fun t => t.boot = .held ∧ t.regs = s.regs ∧ t.powerOns = s.powerOns ∧ SameMemory s t)
  ∧ ∀ (s : State) (hot : Int) (e : BootEnv) (i : Instr),
    (i = .porstRelease true hot e ∧ (s.boot = .porst ∨ s.boot = .off) ∧ s.pins.porst = false
      ∨ i = .internalResetRelease true hot e ∧ (s.boot = .held ∨ s.boot = .off ∧ s.pins.porst = true)) →
    (s.pins.thermtrip = true ∨ hot ≤ 95) →
    Completes i s fun t =>
      t.powerOns = s.powerOns + 1
      ∧ (e.flashOk = false → t.boot = .halted ∧ t.fieldN A.bootStatus 0 4 = 6 ∧ t.fieldN A.bootStatus 8 4 = 1)
      ∧ (e.flashOk = true → s.header = none → t.boot = .halted ∧ t.fieldN A.bootStatus 8 4 = 2)
      ∧ (∀ n h, e.flashOk = true → s.header = some (n, h) → s.slotCheck h.slot ≠ 0 → s.slotCheck (1 - h.slot) ≠ 0 →
        t.boot = .halted ∧ t.fieldN A.bootStatus 8 4 = s.slotCheck h.slot % 16)
      ∧ (∀ n h x, e.flashOk = true → s.header = some (n, h) → s.slotCheck h.slot = 0 → s.setAt h.set = .ok x →
        (x.dataProt = true → e.idOk = true) → e.trained % 2 ^ 20 = 2 ^ 20 - 1 →
        t.boot = .booting ∧ t.active = x ∧ t.fieldN A.bootStatus 0 4 = 4 ∧ (∀ k, k < 20 → t.bit (A.hbmStatus k) 0 = true)
        ∧ t.idOk = e.idOk ∧ t.rngOk = true)
      ∧ t.flash = s.flash

/-- R441, R442, R443, R479, R480: the last step of boot applies the swap fields, commits a record and sets READY. Recovery, once every accepted
request is complete, leaves nothing owned and boots RUNNING_SLOT with ACTIVE_SET: with both good, READY, HLT_RECOVERIES one up, and HBM as it was
where the interleave stays; with no slot that verifies, or a flash that does not answer, the halt of R442. -/
def Obligations.ReadyIsReached : Prop :=
  ∀ (s : State) (e : BootEnv),
    (s.boot = .booting →
      Completes (.bootReady e) s fun t =>
        t.boot = .ready ∧ t.pins.ready = true ∧ t.bit A.bootStatus 4 = true ∧ t.fieldN A.bootStatus 0 4 = 5 ∧ t.spdm.record = s.spdm.record + 1
        ∧ t.fieldN A.govCtrl 0 11 = s.active.cap % 2048 ∧ t.active = s.active ∧ t.wdog.sent = 0)
    ∧ (s.boot = .recovering → (∀ r, r < 48 → (s.rg r).accepted = []) → s.firm.stage = none →
      Completes (.recoveryComplete e) s fun t =>
        t.anyOwned = false ∧ t.sessions = [] ∧ t.maq = none
        ∧ (e.flashOk = false → t.boot = .halted ∧ t.fieldN A.bootStatus 8 4 = 1)
        ∧ (e.flashOk = true → s.slotCheck s.runningSlot ≠ 0 → s.slotCheck (1 - s.runningSlot) ≠ 0 →
          t.boot = .halted ∧ t.fieldN A.bootStatus 8 4 = s.slotCheck s.runningSlot % 16)
        ∧ ∀ x, e.flashOk = true → s.slotCheck s.runningSlot = 0 → s.setAt s.activeSet = .ok x → (x.dataProt = true → e.idOk = true) →
          e.trained % 2 ^ 20 = 2 ^ 20 - 1 →
          t.boot = .ready ∧ t.pins.ready = true ∧ t.active = x
          ∧ t.reg A.recoveries = BitVec.ofNat 64 (satAdd 32 (s.regN A.recoveries) 1)
          ∧ (s.sameInterleave = true → ∀ a, isHbm a = true → t.mem.read a = s.mem.read a))

/-! ### Resets, loads and endings -/

/-- R64, R111, R403, R404, R475 to R478: a die core silent for 100 ms puts its die in reset. A region's reset, once every accepted request is
complete, clears its queues, instructions in flight and counters, counts its epoch and ends IN_RESET; that of a RELEASE takes the owner away and
leaves the region buffer reading 0. A die's reset ends with the stacks that trained. The loads of an ASSIGN make the context the owner. -/
def Obligations.ResetsAndLoadsEnd : Prop :=
  ∀ (s : State), s.up = true → s.portsIdle = true → ContextsNamed s →
    (∀ d ms, d < 4 → 100 ≤ ms → d ∉ s.dieReset → s.activating = false →
      Completes (.dieCoreTimeout d ms) s fun t =>
        d ∈ t.dieReset ∧ (∀ r, dieOf r = d → (t.rg r).inReset = true) ∧ (∀ r, dieOf r ≠ d → t.rg r = s.rg r) ∧ SameMemory s t)
    ∧ (∀ n trained, n < 48 → (s.rg n).inReset = true → (s.rg n).accepted = [] → dieOf n ∉ s.dieReset →
      Completes (.resetComplete false n trained) s fun t =>
        (t.rg n).inReset = false ∧ (t.rg n).waiting = [] ∧ (t.rg n).cnt = [] ∧ (t.rg n).loaded = false
        ∧ t.fieldN (A.regionEpoch n) 0 31 = (s.fieldN (A.regionEpoch n) 0 31 + 1) % 2 ^ 31 ∧ t.bit (A.regionEpoch n) 31 = false
        ∧ (∀ k, k < 9 → (t.cl n k).queues = Cluster.init.queues ∧ (t.cl n k).lris = [] ∧ (t.cl n k).cnt = [] ∧ (t.cl n k).dcache = [])
        ∧ ((s.rg n).job ≠ .release → (t.rg n).owner = (s.rg n).owner)
        ∧ ((s.rg n).job = .release → (s.rg n).owner.isSome = true →
          (t.rg n).owner = none ∧ ∀ i, i < 0x1000000 → t.mem.read (rbAddr n i) = 0#8))
    ∧ (∀ d trained, d < 4 → d ∈ s.dieReset → (∀ r, dieOf r = d → (s.rg r).accepted = []) → s.stacksBusy d = false →
      Completes (.resetComplete true d trained) s fun t =>
        d ∉ t.dieReset ∧ (∀ r, dieOf r = d → (t.rg r).inReset = false) ∧ (∀ i, i < 5 → trained.testBit i = true → t.bit (A.hbmStatus (5 * d + i)) 0 = true))
    ∧ (∀ r e, r < 48 → (s.rg r).inReset = false → dieOf r ∉ s.dieReset →
      Completes (.regionLoadsComplete r e) s fun t =>
        (∀ c, (s.rg r).job = .assign c → (s.dataProt = true → (s.cx c).cur.isSome = true) →
          (t.rg r).owner = some c ∧ (t.rg r).loaded = true ∧ (t.rg r).job = .none ∧ t.bit A.assignStatus 0 = false)
        ∧ (∀ c, (s.rg r).job = .reset → (s.rg r).owner = some c →
          (t.rg r).owner = some c ∧ (t.rg r).loaded = true ∧ (t.rg r).job = .none)
        ∧ ∀ r', r' ≠ r → t.rg r' = s.rg r')

/-- R55, R405, R411, R412, R258, R404: a page of a sweep whose class 3 request may be accepted is counted and leaves the sweep, the last one ends the
rotation and erases the previous key. A scrub whose requests may be accepted has, once done, zeroed every part, with no poison and no key; BUSY falls
and DONE is set. An invalidation completes once no accepted request was translated through a leaf it covers; a release that waits for its own then
clears the context, and one that waits for another's begins its own. -/
def Obligations.SecurityWorkEnds : Prop :=
  ∀ (s : State), s.up = true →
    (∀ c x rest, c < 16 → (s.cx c).sweep = x :: rest →
      Completes (.sweepPageComplete c) s fun t =>
        (s.bgReady (Loc.partPages (.page x x.out)) = false → t = s)
        ∧ (s.bgReady (Loc.partPages (.page x x.out)) = true →
          (t.cx c).sweep = rest ∧ t.reg A.sweepPages = BitVec.ofNat 64 (satAdd 48 (s.regN A.sweepPages) 1) ∧ (t.cx c).cur = (s.cx c).cur
          ∧ (rest = [] → (t.cx c).prev = none ∧ t.fieldN (A.keyStatus c) 0 2 = 1) ∧ (rest ≠ [] → (t.cx c).prev = (s.cx c).prev))
        ∧ (∀ c', c' ≠ c → t.cx c' = s.cx c') ∧ (∀ r k, t.cl r k = s.cl r k))
    ∧ (s.bit A.scrubStatus 0 = true → (∀ a ∈ s.scrub, s.bgReady (Loc.partPages (.page (identityPage a) a)) = true) →
      Completes .scrubDone s fun t =>
        (∀ a ∈ s.scrub, ∀ i, i < 0x200000 → t.mem.read (a + i) = 0#8)
        ∧ (∀ a ∈ s.scrub, a % 32 = 0 → ∀ i, i < 0x200000 → t.granAt (a + i) = Gran.clean)
        ∧ (∀ b, (∀ a ∈ s.scrub, ¬(a ≤ b ∧ b < a + 0x200000)) → t.mem.read b = s.mem.read b)
        ∧ t.scrub = [] ∧ t.bit A.scrubStatus 0 = false ∧ t.bit A.scrubStatus 1 = true ∧ (∀ a, a ≠ A.scrubStatus → t.reg a = s.reg a))
    ∧ (∀ x, s.inv = some x →
      Completes .invalidationComplete s fun t =>
        (s.invPending x = true → t = s)
        ∧ (s.invPending x = false → (∀ r c b, r < 48 → (s.rg r).job ≠ .closing c b) →
          t.inv = none ∧ t.bit A.invStatus 0 = false ∧ (∀ a, a ≠ A.invStatus → t.reg a = s.reg a) ∧ SameMemory s t)
        ∧ (∀ r c, s.invPending x = false → r < 48 → (s.rg r).job = .closing c true → (∀ r' c' b, r' < 48 → r' ≠ r → (s.rg r').job ≠ .closing c' b) →
          (t.rg r).job = .none ∧ t.bit A.assignStatus 0 = false ∧ t.cx c = Ctx.init ∧ t.inv = none ∧ SameMemory s t)
        ∧ (∀ r c, s.invPending x = false → r < 48 → (s.rg r).job = .closing c false → (∀ r' c' b, r' < 48 → r' ≠ r → (s.rg r').job ≠ .closing c' b) →
          (t.rg r).job = .closing c true ∧ t.inv = some (c, true, 0) ∧ t.bit A.invStatus 0 = true ∧ SameMemory s t))

/-- R444, R447 to R449, R424, R503: a maquette load ends LOADED with the set, or REJECTED. A committed activation clears ACTIVATING, flips
RUNNING_SLOT unless the prior image came back, commits a record and makes SPDM transcripts stale; one that times out once sets FALLBACK. A staging
that ends leaves the image in its slot, BUSY 0 and DONE 1. A message taken from the inbox leaves BUSY 0 and DONE 1. -/
def Obligations.RalradsWorkEnds : Prop :=
  ∀ (s : State), s.up = true →
    (s.maqState = 1 →
      Completes .maqLoadDone s fun t =>
        (∀ x, s.setAt (1 - s.activeSet) = .ok x → t.maqState = 2 ∧ t.maq = some x ∧ t.active = s.active)
        ∧ (∀ e, s.setAt (1 - s.activeSet) = .error e → e < 16 → t.maqState = 3 ∧ t.fieldN A.maqStatus 4 4 = e ∧ t.maq = s.maq)
        ∧ (∀ a, a ≠ A.maqStatus → t.reg a = s.reg a) ∧ SameMemory s t)
    ∧ (s.activating = true → s.portsIdle = true →
      Completes .fwCommit s fun t =>
        t.activating = false ∧ t.bit A.fwStatus 0 = false ∧ t.spdm.record = s.spdm.record + 1 ∧ t.spdm.stale = s.spdm.version
        ∧ t.runningSlot = (if s.firm.prior then s.runningSlot else 1 - s.runningSlot) ∧ t.mem = s.mem
        ∧ (s.firm.persist = false → t.flash = s.flash))
    ∧ (s.activating = true → s.firm.prior = false →
      Completes .fwActivateTimeout s fun t =>
        t.bit A.fwStatus 1 = true ∧ t.firm.prior = true ∧ t.activating = true ∧ t.runningSlot = s.runningSlot
        ∧ (∀ a, a ≠ A.fwStatus → t.reg a = s.reg a) ∧ SameMemory s t)
    ∧ (∀ w bs, s.firm.stage = some (w, bs) →
      Completes .stageDone s fun t =>
        t.staging = false ∧ t.bit A.stageStatus 1 = true ∧ t.firm.stage = none ∧ t.mem = s.mem
        ∧ (w < 2 → ∀ i, i < bs.length → Sparse.get 0xFF#8 t.flash (flashSlot w + i) = nth 0#8 bs i))
    ∧ (∀ bs, s.taking = some bs →
      Completes .mboxInTaken s fun t =>
        t.taking = none ∧ t.bit A.mboxInStatus 0 = false ∧ t.bit A.mboxInStatus 1 = true ∧ (∀ a, a ≠ A.mboxInStatus → t.reg a = s.reg a)
        ∧ SameMemory s t)

/-! ### Membership, samples, self-test, snapshots and collectives -/

/-- R335, R318, R270, R428, R518: grace that runs out puts a member in QUARANTINE. A change of a peer record gives every module the port that leads to
it, else E(b), unless software routes explicitly. A device's events are counted. A sample takes every counter as it stands; a W1S bit whose action is
over reads 0 from then on (the model's choice of when, log 99). -/
def Obligations.PlinthEventsAct : Prop :=
  ∀ (s : State),
    (s.up = true → s.isMember = true → s.bit A.member 48 = true →
      Completes .graceExpiry s fun t =>
        t.fieldN A.member 12 2 = 2 ∧ t.modNum = s.modNum ∧ t.fabEpoch = s.fabEpoch ∧ (∀ a, a ≠ A.member → t.reg a = s.reg a) ∧ SameMemory s t)
    ∧ (s.up = true → s.activating = false → s.portsIdle = true → s.routeDue = true → s.isMember = true → s.bit A.routeCtrl 0 = false →
      Completes .defaultRoutingUpdate s fun t =>
        (∀ m, m < 4096 → ∃ p, t.routeOf m = some p ∧ (p ∈ s.peerPorts m ∨ s.peerPorts m = [] ∧ p = s.fieldN A.bpos 0 3))
        ∧ t.routeDue = false ∧ (∀ a, (∀ w, w < 512 → a ≠ A.route w) → t.reg a = s.reg a) ∧ SameMemory s t)
    ∧ (∀ p n m, p < 4 → s.up = true → s.bit (A.cxlStatus p) 5 = true → 0 < n + m →
      Completes (.cxlEventRecord p n m) s fun t =>
        t.reg (A.cxlEvents p) = BitVec.ofNat 64 (satAdd 48 (s.regN (A.cxlEvents p)) (n + m))
        ∧ t.health.tally.ce = s.health.tally.ce + n ∧ t.health.tally.ue = s.health.tally.ue + m
        ∧ (∀ a, a ≠ A.cxlEvents p → t.reg a = s.reg a) ∧ SameMemory s t)
    ∧ (s.portsIdle = true → Completes .counterSample s fun t =>
        (∀ a, isCounterAt a = true → (∀ r k, a ≠ A.seqBeat r k) → Sparse.get 0 t.sampled a = s.reg a) ∧ t.timeNs = s.timeNs + 1000000
        ∧ (∀ x ∈ s.w1sOver, t.bit x.1 x.2 = false)
        ∧ (∀ a, (∀ x ∈ s.w1sOver, a ≠ x.1) → (∀ k, k < 20 → a ≠ A.hbmStatus k) → t.reg a = s.reg a) ∧ t.clusters = s.clusters ∧ SameMemory s t)

/-- R466 to R468: a slice that may run takes the lowest pending kind, leaves the queue of pending ones without it, and overwrites its save area only.
A slice that completes marks its kind run, and failed with the kind's bit where it failed, and the cluster works on. -/
def Obligations.SelfTestSlicesRun : Prop :=
  ∀ (s : State) (r k : Nat), r < 48 → k < 9 →
    (∀ kind save, Slices.lowest (s.cl r k).slices.pend = some (kind, save) → s.sliceMayRun r k = true → s.sliceQuiet r k save = true →
      Completes (.bistSlice r k) s fun t =>
        (t.cl r k).slices.running = some (kind, save) ∧ (∀ y ∈ (t.cl r k).slices.pend, y.1 ≠ kind)
        ∧ (∀ a, ¬(rbAddr r (0x200000 * save) ≤ a ∧ a < rbAddr r (0x200000 * save) + 0x200000) → t.mem.read a = s.mem.read a)
        ∧ (t.cl r k).queues = (s.cl r k).queues ∧ (∀ r' k', otherCluster r k r' k' → t.cl r' k' = s.cl r' k') ∧ (∀ a, t.reg a = s.reg a))
    ∧ (∀ kind save failed cols, s.up = true → s.portsIdle = true → (s.cl r k).slices.running = some (kind, save) → kind < 8 →
      Completes (.sliceComplete r k failed cols) s fun t =>
        (t.cl r k).slices.running = none ∧ t.bit (A.hltCluster (9 * r + k)) (8 + kind) = true
        ∧ (failed = true → t.bit (A.hltCluster (9 * r + k)) kind = true)
        ∧ (failed = false → kind ≠ 0 → t.rg r = s.rg r ∧ ∀ a, a ≠ A.hltCluster (9 * r + k) → t.reg a = s.reg a)
        ∧ (kind = 0 → ∀ c, c < 64 → cols.testBit c = true → t.bit (A.colFail (9 * r + k)) c = true)
        ∧ (t.cl r k).queues = (s.cl r k).queues ∧ SameMemory s t)

/-- R389, R392, R393, R55: a step of the copier with a destination in the context's own space, whose next class 3 request may be accepted: the first
pending part pends no more and COPIED counts it; a part whose source faults is skipped and counted; with the last part the snapshot is complete. -/
def Obligations.SnapshotPartIsCopied : Prop :=
  ∀ (s : State) (c : Nat) (e : Env) (i : Nat) (a : Option Nat) (rest : List (Nat × Option Nat)), c < 16 →
    s.up = true → s.portsIdle = true → s.fieldN (A.snapStatus c) 0 3 = 2 → s.bit (A.snapCtl c) 2 = false →
    (∀ x ∈ s.sent, x.region ≠ snapHome c) → (s.cx c).snap.pend = (i, a) :: rest → s.partReady c i a = true →
    Completes (.snapPartCopy c e) s fun t =>
      (t.cx c).snap.pend = rest.filter (fun y => y.1 != i)
      ∧ t.fieldN (A.snapStatus c) 3 20 = (s.fieldN (A.snapStatus c) 3 20 + 1) % 2 ^ 20
      ∧ ((rest ≠ [] ∧ ∀ y ∈ rest, y.1 ≠ i) → t.fieldN (A.snapStatus c) 0 3 = 2)
      ∧ (∀ f, s.ctxPlace c (nth 0 (s.cx c).snap.parts i) = .bad f → s.fieldN (A.snapStatus c) 3 20 ≠ 0 →
        t.reg A.snapSkipped = BitVec.ofNat 64 (satAdd 48 (s.regN A.snapSkipped) 1))
      ∧ (rest = [] → t.fieldN (A.snapStatus c) 0 3 = 3)
      ∧ (∀ r k, t.cl r k = s.cl r k)

/-- R350, R351, R353, R357, R367: a RECV whose right input is complete by its deadline decides with it; one whose deadline has come first decides
without it and counts the exclusion. Either way its receiver's parity bit flips, what it had received counts no more, and the command has decided; it
ends in this step where its record's places are none at a bank and nothing holds them, else once its accesses there have been served. -/
def Obligations.RecvDecides : Prop :=
  ∀ (s : State) (r k id ns : Nat) (e : Env) (l : Lri) (bidx level left out c : Nat) (cls : Nat) (b : Bucket), r < 48 → k < 9 → s.up = true →
    s.recvOf r k id = some (l, bidx, b, level) → MvOp.ofCmd l.cmd = some (.coll bidx 1 level cls left out) → (s.rg r).owner = some c → c < 16 → l.q < 4 →
    ∀ i incl, (i = .recvRightComplete r k id ns e ∧ incl = true ∧ s.rightComplete r bidx level b = true ∧ (∀ d, b.deadlineAt level = some d → ns ≤ d)
        ∨ i = .recvDeadline r k id ns e ∧ incl = false
          ∧ ∃ d, b.deadlineAt level = some d ∧ d ≤ ns ∧ (s.rightComplete r bidx level b = false ∨ d < ns)) →
      Completes i s fun t =>
        Sparse.get 0 (t.cx c).prx (parityKey bidx 0 level) = 1 - Sparse.get 0 (s.cx c).prx (parityKey bidx 0 level)
        ∧ (t.cx c).gotAt bidx level 0 level = [] ∧ (∀ x ∈ (t.cl r k).lris, x.id = id → x.mv.dec.isSome = true)
        ∧ t.reg (A.redExcluded c) = (if incl then s.reg (A.redExcluded c) else BitVec.ofNat 64 (satAdd 48 (s.regN (A.redExcluded c)) 1))
        ∧ (∀ rd wr, s.decPlaces r l = some (b, rd, wr) → chipLines (rd ++ wr) = [] → s.untimedLeft (decHome r k) id = false →
          (∀ x ∈ rd ++ wr, s.placeHeld x = false ∧ s.recalHeld x = false) → s.snapWaits wr = false → ∀ x ∈ (t.cl r k).lris, x.id ≠ id)

/-! ### Links -/

/-- R307, R308, R337: on a port that is up, the expected flit intact moves the receiver on, and a data flit's body counts; the first flit that fails
makes it discard and ask for a replay by the SEQ it expects; while it discards, a flit of another SEQ is dropped; the expected flit failing in the 16th
replay in a row takes an Eokoby port down. A retry request sends the kept flits from the one it names on again, counted; one more after 16 replays from
one flit takes the port down. -/
def Obligations.FlitsAreSequenced : Prop :=
  ∀ (s : State) (p : Nat), p < 10 → s.up = true → s.linkUp p = true →
    (∀ f : Flit, f.bytes.length = 256 →
      (flitIntact f = true → f.fecBad = 0 → flitSeq f = (s.link p).rxSeq →
        Completes (.flitReceive p f) s fun t =>
          (t.link p).rxSeq = ((s.link p).rxSeq + 1) % 4096 ∧ (t.link p).discard = false ∧ (t.link p).fails = 0
          ∧ (p < 8 → flitType f = 0 → t.regN (A.rxBytes p) * 4096 + Sparse.get 0 t.hidden (A.rxBytes p)
            = min (s.regN (A.rxBytes p) * 4096 + Sparse.get 0 s.hidden (A.rxBytes p) + 242) (2 ^ 60 - 1))
          ∧ (∀ q, q < 10 → q ≠ p → t.link q = s.link q) ∧ SameMemory s t)
      ∧ ((flitIntact f = false ∨ f.fecBad ≠ 0 ∨ flitSeq f ≠ (s.link p).rxSeq) → (s.link p).discard = false →
        Completes (.flitReceive p f) s fun t =>
          (t.link p).rxSeq = (s.link p).rxSeq ∧ (t.link p).discard = true ∧ OutMsg.flit p 2 (s.link p).rxSeq ∈ t.outbox ∧ SameMemory s t)
      ∧ (flitSeq f ≠ (s.link p).rxSeq → (s.link p).discard = true →
        Completes (.flitReceive p f) s fun t => t.links = s.links ∧ t.outbox = s.outbox ∧ SameMemory s t)
      ∧ (p < 8 → flitSeq f = (s.link p).rxSeq → (flitIntact f = false ∨ f.fecBad ≠ 0) → (s.link p).discard = true → 15 ≤ (s.link p).fails →
        Completes (.flitReceive p f) s fun t => t.portUp p = false ∧ (t.link p).lost = true
          ∧ t.reg (A.linkDowns p) = BitVec.ofNat 64 (satAdd 48 (s.regN (A.linkDowns p)) 1)))
    ∧ (∀ seq, ((s.link p).reqs = 0 ∨ (s.link p).reqSeq ≠ seq % 4096 ∨ (s.link p).reqs < 16) →
      Completes (.flitReplay p seq) s fun t =>
        OutMsg.replay p ((s.link p).since seq) ∈ t.outbox ∧ (t.link p).reqSeq = seq % 4096 ∧ (t.link p).kept = (s.link p).kept
        ∧ (p < 8 → (s.link p).since seq ≠ [] → t.reg (A.retry p) = BitVec.ofNat 64 (satAdd 48 (s.regN (A.retry p)) ((s.link p).since seq).length))
        ∧ (∀ a, a ≠ A.retry p → a ≠ A.mlmRetry (p - 8) → t.reg a = s.reg a) ∧ SameMemory s t)
    ∧ (∀ seq, p < 8 → 16 ≤ (s.link p).reqs → (s.link p).reqSeq = seq % 4096 →
      Completes (.flitReplay p seq) s fun t => t.portUp p = false ∧ (t.link p).lost = true)

/-- R306, R308 to R311, R268, R493 to R496: an enabled Eokoby port that is down comes up with 8 or 4 lanes, records its peer and sends its own link
control flit, no credit of its lanes being owed; one that is not up again in time stays down. A link control flit refreshes the record, is answered by
the module's own, and returns the credits of each lane, of a Muolmorn port these alone. A link that goes down is counted; a CXL port reads as
absent; a Muolmorn port loses its session, and trains again with 16 or 8 lanes. -/
def Obligations.PortsTrainAndFall : Prop :=
  ∀ (s : State) (p : Nat), s.up = true →
    (∀ lanes rtt l, p < 8 → s.active.ekbEn.testBit p = true → s.portUp p = false → (s.link p).dead = false → (lanes = 8 ∨ lanes = 4) →
      l.modNum < 4096 → s.portsIdle = true →
      Completes (.portTrainingComplete p lanes rtt l) s fun t =>
        t.fieldN (A.portStatus p) 0 2 = (if lanes = 8 then 2 else 1) ∧ t.bit (A.portStatus p) 2 = l.member
        ∧ t.fieldN (A.portStatus p) 3 12 = l.modNum ∧ t.regN (A.rtt p) = min rtt 65535 ∧ (t.link p).unpaid = noCredits
        ∧ (∃ c, OutMsg.control p c ∈ t.outbox ∧ c.port = p)
        ∧ (∀ a, a ≠ A.portStatus p → a ≠ A.rtt p → t.reg a = s.reg a) ∧ SameMemory s t)
    ∧ (p < 8 → s.portUp p = false → (s.link p).lost = true →
      Completes (.portRetrainTimeout p) s fun t => (t.link p).dead = true ∧ (t.link p).lost = false ∧ (∀ a, t.reg a = s.reg a) ∧ SameMemory s t)
    ∧ (∀ l, p < 8 → s.portUp p = true → l.modNum < 4096 → s.portsIdle = true →
      Completes (.linkControlFlit p l) s fun t =>
        t.fieldN (A.portStatus p) 0 2 = s.fieldN (A.portStatus p) 0 2 ∧ t.bit (A.portStatus p) 2 = l.member
        ∧ t.fieldN (A.portStatus p) 3 12 = l.modNum ∧ (∃ c, OutMsg.control p c ∈ t.outbox ∧ c.port = p)
        ∧ ((s.link p).queue = [] → (t.link p).unpaid = numberFrom (fun i n => n - nth 0 l.credits i) 0 (s.link p).unpaid)
        ∧ (∀ a, a ≠ A.portStatus p → a ≠ A.txBytes p → a ≠ A.transitFlits p → t.reg a = s.reg a) ∧ SameMemory s t)
    ∧ (∀ l, p < 2 → s.linkUp (8 + p) = true → s.portsIdle = true →
      Completes (.linkControlFlit (8 + p) l) s fun t =>
        ((s.link (8 + p)).queue = [] → (t.link (8 + p)).unpaid = numberFrom (fun i n => n - nth 0 l.credits i) 0 (s.link (8 + p)).unpaid)
        ∧ (∀ a, t.reg a = s.reg a) ∧ SameMemory s t)
    ∧ (p < 8 → s.portUp p = true →
      Completes (.linkGoesDown 0 p) s fun t =>
        t.portUp p = false ∧ (t.link p).lost = true ∧ t.reg (A.linkDowns p) = BitVec.ofNat 64 (satAdd 48 (s.regN (A.linkDowns p)) 1)
        ∧ t.health.tally.downs = s.health.tally.downs + 1 ∧ SameMemory s t)
    ∧ (p < 4 → Completes (.linkGoesDown 1 p) s fun t =>
        t.bit (A.cxlStatus p) 0 = false ∧ (∀ a, a ≠ A.cxlStatus p → t.reg a = s.reg a) ∧ SameMemory s t)
    ∧ (p < 2 → s.linkUp (8 + p) = true →
      Completes (.linkGoesDown 2 p) s fun t =>
        t.linkUp (8 + p) = false ∧ t.session (65536 + p) = none ∧ t.reg (A.mlmDowns p) = BitVec.ofNat 64 (satAdd 48 (s.regN (A.mlmDowns p)) 1)
        ∧ SameMemory s t)
    ∧ (∀ lanes, p < 2 → s.active.mlmEn.testBit p = true → s.linkUp (8 + p) = false → (lanes = 16 ∨ lanes = 8) →
      Completes (.mlmPortRetrain p lanes) s fun t =>
        t.regN (A.mlmStatus p) = (if lanes = 16 then 2 else 1) ∧ (∀ a, a ≠ A.mlmStatus p → t.reg a = s.reg a) ∧ SameMemory s t)

/-! ### Packets over Eokoby -/

/-- R312, R313, R315, R317, R319, R333, R335, R402, R414, R415: what the checks do with an arriving packet of any row, once it has left its lane's
buffer. Outside membership it is dropped and counted; so is one of another epoch, and a newer epoch is noted; one for another module goes on with one
hop more, or is dropped for its hops or for want of a route; one of a type not in use, or with a field that must be 0 and is not, is dropped; in
firmware-protected mode so is one with ENC 1, in data-protected mode one without, or without a session, or with a tag that fails, or a counter already
taken, and a key exchange with ENC 1. -/
def Obligations.ArrivalIsChecked : Prop :=
  ∀ (s d : State) (i : Instr) (ty : Nat) (x : Pkt),
    (packetRow i = some (ty, x) ∧ (x.ptype = ty ∨ s.typeKnown x.ptype = false) ∨ i = .packetTransit x ∧ ty = 0) →
    x.ok = true → s.ingressOpen ty = true → (ty = 0x20 ∨ ty = 0x21 → s.portsIdle = true) → d = Drained s x →
    (s.isMember = false → exec i s = .next (d.bump A.notMember 1))
    ∧ (s.isMember = true → x.epoch ≠ s.fabEpoch → newerEpoch x.epoch s.fabEpoch = false → exec i s = .next (d.bump A.epochOld 1))
    ∧ (s.isMember = true → x.epoch ≠ s.fabEpoch → newerEpoch x.epoch s.fabEpoch = true → s.bit A.member 48 = false →
      Completes i s fun t => t.bit A.member 48 = true ∧ t.fieldN A.member 32 16 = x.epoch ∧ t.fabEpoch = s.fabEpoch ∧ t.modNum = s.modNum
        ∧ t.reg A.epochNew = BitVec.ofNat 64 (satAdd 48 (s.regN A.epochNew) 1) ∧ SameMemory s t)
    ∧ (s.isMember = true → x.epoch = s.fabEpoch → x.dst ≠ s.modNum →
      (31 ≤ x.hops → exec i s = .next (d.bump A.hopsDrop 1))
      ∧ (x.hops < 31 → s.egress x.dst = none → exec i s = .next (d.bump A.routeDrop 1))
      ∧ (∀ p, x.hops < 31 → s.egress x.dst = some p →
        Completes i s fun t => (∃ y, t.outbox = .packet p y :: s.outbox ∧ y.hops = x.hops + 1 ∧ y.dst = x.dst ∧ y.src = x.src ∧ y.data = x.data
          ∧ y.ptype = x.ptype ∧ y.tag = x.tag) ∧ SameMemory s t))
    ∧ (s.isMember = true → x.epoch = s.fabEpoch → x.dst = s.modNum → ty ≠ 0 →
      ((s.typeKnown x.ptype = false ∨ x.reserved ≠ 0) → exec i s = .next (d.bump A.badPkt 1))
      ∧ (s.typeKnown x.ptype = true → fieldsBad x = false →
        (s.dataProt = false → x.enc = true → exec i s = .next (d.bump A.badPkt 1))
        ∧ (s.dataProt = true → ty < 0x20 → x.enc = false → exec i s = .next (d.bump A.plainDrop 1))
        ∧ (s.dataProt = true → 0x20 ≤ ty → x.enc = true → exec i s = .next (d.bump A.gcmFail 1))
        ∧ (s.dataProt = true → ty < 0x20 → x.enc = true →
          (s.session x.src = none → exec i s = .next (d.bump A.gcmFail 1))
          ∧ (∀ y, s.session x.src = some y → x.tagOk = false → exec i s = .next (d.bump A.gcmFail 1))
          ∧ (∀ y, s.session x.src = some y → x.tagOk = true → y.accepts x.ctr = false → exec i s = .next (d.bump A.replayDrop 1)))))

/-- R49, R57, R322 to R326, R329, R350, R353, R366: a request that the checks let pass, that names a context here and that nothing keeps from being
accepted is done and answered where its bytes lie in plain granules of HBM: a read answers with the bytes, a write and a collective store theirs and
leave every other byte, an atomic applies its operation; a collective's bytes count as held. One whose bytes lie in a region's own memory is accepted
and waits for its accesses at the banks. One whose job no context holds is answered REFUSED; a collective that R366 refuses is answered so and counted;
one of another parity is counted late, answered, and not stored. -/
def Obligations.RemoteRequestsAct : Prop :=
  ∀ (s s1 s2 : State) (x : Pkt) (e : Env) (c p a : Nat) (ls : List Loc), x.pmask = none → NoErrors e →
    s1.egress x.src = some p → (s1.dataProt = false ∨ (s1.session x.src).isSome = true) →
    (Accepts s 1 x s1 → s1.ctxOfJob x.job = some c → s1.walksWait c (spanFrom x.addr x.len) = false →
      s1.ingressAt c false (spanFrom x.addr x.len) = (.ok ls, s2) → Enters s1 x.cls false ls →
      (PlainPlaces s1 a x.len ls → Completes (.rdReq x e) s fun t =>
        Answered t p 2 0 x ((List.range x.len).map fun i => s1.mem.read (a + i)) ∧ SameMemory s1 t)
      ∧ (chipLines ls ≠ [] → Completes (.rdReq x e) s fun t =>
        (∃ h ∈ t.heldPkts, h.pkt = x ∧ h.locs = some ls ∧ t.untimedLeft ingressHome h.serial = true) ∧ SameMemory s1 t))
    ∧ (Accepts s 3 x s1 → s1.ctxOfJob x.job = some c → s1.walksWait c (spanFrom x.addr x.data.length) = false →
      s1.ingressAt c true (spanFrom x.addr x.data.length) = (.ok ls, s2) → Enters s1 x.cls true ls → PlainPlaces s1 a x.data.length ls →
      Completes (.wr x e) s fun t => Answered t p 4 0 x [] ∧ (∀ i, i < x.data.length → t.mem.read (a + i) = nth 0#8 x.data i)
        ∧ ∀ b, (b < a ∨ a + x.data.length ≤ b) → t.mem.read b = s1.mem.read b)
    ∧ (Accepts s 5 x s1 → s1.ctxOfJob x.job = some c → s1.walksWait c (spanFrom x.addr 4) = false → x.data.length = 4 →
      bitAt x.aux 4 = false → field x.aux 0 3 < 6 →
      s1.ingressAt c true (spanFrom x.addr 4) = (.ok ls, s2) → Enters s1 x.cls true ls → PlainPlaces s1 a 4 ls →
      Completes (.atom x e) s fun t => Answered t p 6 0 x []
        ∧ bytesToNat ((List.range 4).map fun i => t.mem.read (a + i))
          = atomOp (field x.aux 0 3) (bitAt x.aux 3) 32 (bytesToNat ((List.range 4).map fun i => s1.mem.read (a + i))) (bytesToNat x.data) % 2 ^ 32
        ∧ ∀ b, (b < a ∨ a + 4 ≤ b) → t.mem.read b = s1.mem.read b)
    ∧ (∀ i ty up, (i = .collUp x e ∧ ty = 0x10 ∧ up = true ∨ i = .collDown x e ∧ ty = 0x11 ∧ up = false) → Accepts s ty x s1 →
      (s1.collRefused x up e = none →
        Completes i s fun t => Answered t p 0x12 1 x [] ∧ t.reg A.redRefused = BitVec.ofNat 64 (satAdd 48 (s1.regN A.redRefused) 1)
          ∧ SameMemory s1 t)
      ∧ ∀ b, s1.collRefused x up e = some (c, b) →
        (s1.collLate x up c = true →
          Completes i s fun t => Answered t p 0x12 0 x [] ∧ t.reg (A.redLate c) = BitVec.ofNat 64 (satAdd 48 (s1.regN (A.redLate c)) 1)
            ∧ SameMemory s1 t)
        ∧ (∀ vas, vas = spanFrom ((if up then b.stageAt (field x.aux 24 4) else b.result) + x.addr) x.data.length →
          s1.collLate x up c = false → s1.walksWait c vas = false → s1.ingressAt c true vas = (.ok ls, s2) → Enters s1 x.cls true ls →
          PlainPlaces s1 a x.data.length ls → (up = false → s1.rdownOf c (field x.aux 0 8) = none) →
          Completes i s fun t => Answered t p 0x12 0 x [] ∧ (∀ j, j < x.data.length → t.mem.read (a + j) = nth 0#8 x.data j)
            ∧ (∀ j, (j < a ∨ a + x.data.length ≤ j) → t.mem.read j = s1.mem.read j)
            ∧ ∀ key dir, key = (if up then field x.aux 24 4 else 16) → dir = (if up then 0 else 1) →
              (t.cx c).gotAt (field x.aux 0 8) key dir (field x.aux 24 4)
                = addSpan x.addr (x.addr + x.data.length) ((s1.cx c).gotAt (field x.aux 0 8) key dir (field x.aux 24 4))))
    ∧ (∀ i ty, (i = .rdReq x e ∧ ty = 1 ∨ i = .wr x e ∧ ty = 3 ∨ i = .atom x e ∧ ty = 5) → Accepts s ty x s1 → s1.ctxOfJob x.job = none →
      Completes i s fun t => Answered t p (ty + 1) 1 x [] ∧ SameMemory s1 t)

/-- R324, R327: a completion marks the packet that it answers with its status, data and mask, and counts one that is refused or faulted; one that
answers none changes nothing. -/
def Obligations.CompletionsAreTaken : Prop :=
  ∀ (s s1 : State) (i : Instr) (ty : Nat) (x : Pkt),
    (i = .rdData x ∧ ty = 2 ∨ i = .wrCpl x ∧ ty = 4 ∨ i = .atomCpl x ∧ ty = 6 ∨ i = .collCpl x ∧ ty = 0x12) → Accepts s ty x s1 →
    ((s1.sent.find? fun y => y.tag == x.tag && y.peer == x.src && !y.done) = none → exec i s = .next s1)
    ∧ (∀ y, (s1.sent.find? fun y => y.tag == x.tag && y.peer == x.src && !y.done) = some y →
      Completes i s fun t =>
        { y with done := true, status := x.status, data := x.data, mask := x.pmask.getD 0 } ∈ t.sent
        ∧ (∀ z ∈ s1.sent, ¬(z.tag = y.tag ∧ z.peer = y.peer) → z ∈ t.sent) ∧ t.sent.length = s1.sent.length
        ∧ t.reg A.remoteRefused
          = (if x.status = 0 then s1.reg A.remoteRefused else BitVec.ofNat 64 (satAdd 48 (s1.regN A.remoteRefused) 1))
        ∧ (∀ a, a ≠ A.remoteRefused → t.reg a = s1.reg a) ∧ SameMemory s1 t)

/-- R287, R292, R299, R324, R417: FLAG_INC adds to the node counter it names of the job's region. A child's arrival waits at the fabric node; the
parent's release goes on down from it. A key exchange ends with a session at the responder whose number is higher, and at the initiator; one whose
certificate fails opens none and is counted. -/
def Obligations.ArmatureAndKeyPacketsAct : Prop :=
  ∀ (s s1 : State) (x : Pkt) (c : Nat),
    (Accepts s 7 x s1 → s1.ctxOfJob x.job = some c → ∀ g, s1.logRegion c (field x.aux 9 6) = some g →
      Completes (.flagInc x) s fun t =>
        ((t.rg g).ctr (field x.aux 0 9)).count = min (((s1.rg g).ctr (field x.aux 0 9)).count + field x.addr 0 24) ctrMax
        ∧ ((t.rg g).ctr (field x.aux 0 9)).matched = ((s1.rg g).ctr (field x.aux 0 9)).matched
        ∧ (∀ g', g' ≠ g → t.rg g' = s1.rg g') ∧ (∀ r k, t.cl r k = s1.cl r k) ∧ SameMemory s1 t)
    ∧ (Accepts s 8 x s1 → s1.ctxOfJob x.job = some c → (s1.bars.find? (s1.counting (.fabric c) (barOf x).bid)) = none →
      Completes (.barArrive x) s fun t =>
        ∃ y, t.bars = s1.bars ++ [y] ∧ y.node = .fabric c ∧ y.f = barOf x ∧ y.count = 1 ∧ y.froms = [x.src] ∧ SameMemory s1 t)
    ∧ (Accepts s 9 x s1 → s1.ctxOfJob x.job = some c → ∀ y,
      (s1.bars.find? fun z => z.node == .fabric c && z.f == barOf x && z.sent) = some y → s1.brokenNode (.fabric c) (barOf x).bid = false →
      (∀ z ∈ s1.rels, ¬(z.node = .fabric c ∧ z.f = barOf x)) →
      Completes (.barRelease x) s fun t => t.rels = s1.rels ++ [⟨.fabric c, barOf x, c, max y.stamp s1.ticks⟩] ∧ t.bars = s1.bars ∧ SameMemory s1 t)
    ∧ (Accepts s 0x20 x s1 → s.portsIdle = true → s1.activating = false → x.src < s1.modNum →
      (s1.rngOk = true → Completes (.kexHello x true) s fun t => (t.session x.src).isSome = true ∧ SameMemory s1 t)
      ∧ Completes (.kexHello x false) s fun t =>
          t.sessions = s1.sessions ∧ t.reg A.kexFail = BitVec.ofNat 64 (satAdd 48 (s1.regN A.kexFail) 1) ∧ SameMemory s1 t)
    ∧ (Accepts s 0x21 x s1 → s.portsIdle = true → s1.activating = false → ∀ y,
      (s1.kexs.find? fun y => y.peer == x.src && !y.failed && y.priv != 0) = some y →
      (Completes (.kexReply x true) s fun t => (t.session x.src).isSome = true ∧ (∀ z ∈ t.kexs, z.peer ≠ x.src) ∧ SameMemory s1 t)
      ∧ Completes (.kexReply x false) s fun t =>
          t.sessions = s1.sessions ∧ t.reg A.kexFail = BitVec.ofNat 64 (satAdd 48 (s1.regN A.kexFail) 1) ∧ SameMemory s1 t)

/-! ### The companion -/

/-- R425, R494, R495, R500, R512: a request of the companion on plain granules of memory, with nothing that holds it back, is done and answered: a read
with the bytes, a write stores its bytes and leaves every granule it does not touch, an atomic applies its operation. A read of eight aligned bytes of
control space is answered with what the party of the view reads. Outside the targets a request is answered FAULT and counted. A key exchange opens the
port's session; during an activation it waits. -/
def Obligations.CompanionRequestsAct : Prop :=
  ∀ (s s1 : State) (m : Nat) (x : Pkt) (e : Env), m < 2 → (s1.dataProt = false ∨ (s1.session (65536 + m)).isSome = true) → x.pmask = none → NoErrors e →
    (Admits s m 1 x s1 → inCsr x.addr x.len = false → s1.mlmMem x.addr x.len = true → s1.mlmWaits x x.len = false →
      (∀ i, i < x.len → s1.granAt (x.addr + i) = Gran.clean) →
      Completes (.mlmRdReq m x e) s fun t =>
        AnsweredMlm t m 2 0 x ((List.range x.len).map fun i => s1.mem.read (x.addr + i)) ∧ SameMemory s1 t)
    ∧ (Admits s m 1 x s1 → inCsr x.addr x.len = true → x.len = 8 → ∀ p o, viewOf (x.addr - csrBase) = (p, o) → o % 8 = 0 →
      Completes (.mlmRdReq m x e) s fun t => AnsweredMlm t m 2 0 x (natToBytes 8 (s1.csrRead p o).1) ∧ SameMemory s1 t)
    ∧ (Admits s m 3 x s1 → inCsr x.addr x.data.length = false → s1.mlmMem x.addr x.data.length = true → s1.mlmWaits x x.data.length = false →
      Completes (.mlmWr m x e) s fun t =>
        AnsweredMlm t m 4 0 x [] ∧ (∀ i, i < x.data.length → t.mem.read (x.addr + i) = nth 0#8 x.data i)
        ∧ (∀ b, (∀ i, i < x.data.length → granOf (x.addr + i) ≠ granOf b) → t.mem.read b = s1.mem.read b ∧ t.granAt b = s1.granAt b))
    ∧ (Admits s m 5 x s1 → inCsr x.addr 4 = false → x.data.length = 4 → bitAt x.aux 4 = false → field x.aux 0 3 < 6 → s1.mlmMem x.addr 4 = true →
      s1.mlmWaits x 4 = false → (∀ i, i < 4 → s1.granAt (x.addr + i) = Gran.clean) →
      Completes (.mlmAtom m x e) s fun t =>
        AnsweredMlm t m 6 0 x []
        ∧ bytesToNat ((List.range 4).map fun i => t.mem.read (x.addr + i))
          = atomOp (field x.aux 0 3) (bitAt x.aux 3) 32 (bytesToNat ((List.range 4).map fun i => s1.mem.read (x.addr + i))) (bytesToNat x.data) % 2 ^ 32
        ∧ (∀ b, (∀ i, i < 4 → granOf (x.addr + i) ≠ granOf b) → t.mem.read b = s1.mem.read b))
    ∧ (∀ i ty n, (i = .mlmRdReq m x e ∧ ty = 1 ∧ n = x.len ∨ i = .mlmWr m x e ∧ ty = 3 ∧ n = x.data.length
          ∨ i = .mlmAtom m x e ∧ ty = 5 ∧ n = x.data.length) → Admits s m ty x s1 → inCsr x.addr n = false → s1.mlmMem x.addr n = false →
      Completes i s fun t => AnsweredMlm t m (ty + 1) 2 x [] ∧ t.reg A.mlmInFaults = BitVec.ofNat 64 (satAdd 48 (s1.regN A.mlmInFaults) 1)
        ∧ SameMemory s1 t)
    ∧ (x.ok = true → s.mlmOpen m = true → s.dataProt = true → x.ptype = 0x20 → x.enc = false → x.reserved = 0 →
      (s.activating = false → x.data.length = 56 → s.session (65536 + m) = none → s.rngOk = true →
        Completes (.mlmKexHello m x) s fun t =>
          (t.session (65536 + m)).isSome = true ∧ t.bit (A.mlmStatus m) 2 = true ∧ (∀ a, a ≠ A.mlmStatus m → t.reg a = s.reg a) ∧ SameMemory s t)
      ∧ (s.activating = true → Completes (.mlmKexHello m x) s fun t =>
          (∃ h ∈ t.heldMlm, h.port = m ∧ h.pkt = x) ∧ t.sessions = s.sessions ∧ (∀ a, t.reg a = s.reg a) ∧ SameMemory s t))

/-! ### Debug port -/

/-- R508, R4: with VIN present, IDCODE selects the register that captures 0xB, 0x4820, 0x001; the three instructions that drive pins do so only while PORST_N is low and
else act as BYPASS; SAMPLE/PRELOAD loads the boundary register and drives nothing; any code that is not listed captures 0. None of them touches
anything but the port. R426, R508: a CSRACC with go reads a register as the operator, or writes it as the operator, and its next capture is done with
the value; one that is refused captures 0 and denied. A MEMACC captures the 32 bytes of an HBM granule as stored, and is denied where no memory lies.
-/
def Obligations.DebugPortActs : Prop :=
  (∀ (s : State) (i : Instr) (o : Nat) (b g : Bool) (w : Reg64) (bits : List Bool),
    (i = .csracc o b g w ∨ i = .memacc o g ∨ i = .idcode ∨ i = .extest bits ∨ i = .extestPulse bits ∨ i = .extestTrain bits ∨ i = .samplePreload bits
      ∨ i = .bypass o) → s.boot = .off → exec i s = .next s)
  ∧ (∀ (s : State) (bits : List Bool), s.boot ≠ .off →
      (Completes .idcode s fun t => t = { s with dbg := t.dbg } ∧ t.dbg.ir = 2 ∧ t.dbg.driven = false
        ∧ t.capture = 0xB * 2 ^ 28 + 0x4820 * 2 ^ 12 + 1)
      ∧ (∀ i code, (i = .extest bits ∧ code = 0 ∨ i = .extestPulse bits ∧ code = 3 ∨ i = .extestTrain bits ∧ code = 4) →
        Completes i s fun t => t = { s with dbg := t.dbg }
          ∧ (s.pins.porst = false → t.dbg.ir = code ∧ t.dbg.bscan = bits ∧ t.dbg.driven = true)
          ∧ (s.pins.porst = true → t.dbg.ir = 0xFF ∧ t.dbg.driven = false ∧ t.dbg.bscan = s.dbg.bscan ∧ t.capture = 0))
      ∧ (Completes (.samplePreload bits) s fun t => t = { s with dbg := t.dbg } ∧ t.dbg.ir = 1 ∧ t.dbg.bscan = bits ∧ t.dbg.driven = false)
      ∧ ∀ code, 4 < code → code ≠ 0x10 → code ≠ 0x11 → code < 256 →
        Completes (.bypass code) s fun t => t = { s with dbg := t.dbg } ∧ t.dbg.driven = false ∧ t.capture = 0)
  ∧ (∀ (s : State) (o : Nat) (w : Reg64), s.boot ≠ .off → o < 2 ^ 40 → o % 8 = 0 →
      (s.csrDenied .operator o false w.toNat = false →
        Completes (.csracc o false true w) s fun t =>
          t.capture = (s.csrRead .operator o).1 % 2 ^ 64 + 2 ^ 106 ∧ (∀ a, t.reg a = s.reg a) ∧ SameMemory s t)
      ∧ (∀ d, Reaches s .operator o d w.toNat → d.acc ≠ .ro → d.wo = false → d.isCounter = false → d.kind ≠ .power → actionReg o = false →
        Completes (.csracc o true true w) s fun t =>
          t.capture = w.toNat + 2 ^ 106
          ∧ (∀ i, i < 64 → t.bit o i
            = (if d.w1c.testBit i && w.toNat.testBit i && !(s.justSet o d).testBit i then false else if d.rw.testBit i then w.toNat.testBit i else s.bit o i))
          ∧ (∀ b, b ≠ o → t.reg b = s.reg b) ∧ SameMemory s t)
      ∧ (∀ d, s.csrOpen .operator o true = true → isSfuWindow o = false → inView .operator o = true → regAt o = some d → s.inGated d = false →
        s.mayWrite .operator o d w.toNat = false →
        Completes (.csracc o true true w) s fun t =>
          t.capture = 2 ^ 106 + 2 ^ 107 ∧ t.reg A.denied = BitVec.ofNat 64 (satAdd 48 (s.regN A.denied) 1)
          ∧ (∀ a, a ≠ A.denied → t.reg a = s.reg a) ∧ SameMemory s t)
      ∧ (∀ g, g < 2 ^ 52 → g % 32 = 0 → s.alive = true →
        Completes (.memacc g true) s fun t =>
          (isHbm g = true → s.stackUp g = true → t.dbg.memData = s.granSeen g none ∧ t.dbg.memDone = true ∧ t.dbg.memDeny = false)
          ∧ (s.memaccOk g = false → t.dbg.memData = List.replicate 32 0#8 ∧ t.dbg.memDeny = true
            ∧ t.reg A.denied = BitVec.ofNat 64 (satAdd 48 (s.regN A.denied) 1))
          ∧ SameMemory s t))

/-! ### SPDM -/

/-- R422 (codes and framing are the model's, log 71): GET_VERSION begins a transcript and answers 1.3; GET_CAPABILITIES, NEGOTIATE_ALGORITHMS (agreed
only with Ed448 and SHA3-512), GET_DIGESTS and GET_CERTIFICATE (a portion of slot 0's chain) follow in turn, each recorded; a request out of turn is
answered UnexpectedRequest, one that R422 does not list UnsupportedRequest with its code. -/
def Obligations.SpdmAnswersInTurn : Prop :=
  ∀ (s : State), s.up = true → s.activating = false → s.spdm.mail = false →
    (Completes .getVersion s fun t => Replied s t 0x10 4 0 0 ∧ t.spdm.version = true ∧ t.spdm.caps = false ∧ t.spdm.algs = false
      ∧ t.spdm.stale = false ∧ (∀ a, t.reg a = s.reg a) ∧ SameMemory s t)
    ∧ (s.spdm.stale = false →
      (Completes .getCapabilities s fun t =>
        (s.spdm.version = true → Replied s t 0x13 0x61 0 0 ∧ t.spdm.caps = true ∧ s.spdm.script.length < t.spdm.script.length)
        ∧ (s.spdm.version = false → Replied s t 0x13 0x7F 4 0 ∧ t.spdm = s.spdm) ∧ (∀ a, t.reg a = s.reg a) ∧ SameMemory s t)
      ∧ (∀ asym hash, Completes (.negotiateAlgorithms asym hash) s fun t =>
        (s.spdm.caps = true → Replied s t 0x13 0x63 0 0 ∧ t.spdm.algs = (asym.testBit 10 && hash.testBit 5))
        ∧ (s.spdm.caps = false → Replied s t 0x13 0x7F 4 0 ∧ t.spdm = s.spdm) ∧ (∀ a, t.reg a = s.reg a) ∧ SameMemory s t)
      ∧ (Completes .getDigests s fun t =>
        (s.spdm.algs = true → t.outbox = .spdm (spdmHead 0x13 1 0 1 ++ sha3 s.slotZero) :: s.outbox)
        ∧ (s.spdm.algs = false → Replied s t 0x13 0x7F 4 0) ∧ (∀ a, t.reg a = s.reg a) ∧ SameMemory s t)
      ∧ (∀ slot off len, Completes (.getCertificate slot off len) s fun t =>
        (s.spdm.algs = true → slot = 0 → off < s.slotZero.length →
          t.outbox = .spdm (spdmHead 0x13 2 0 0 ++ natToBytes 2 ((s.slotZero.drop off).take len).length
            ++ natToBytes 2 (s.slotZero.length - off - ((s.slotZero.drop off).take len).length) ++ (s.slotZero.drop off).take len) :: s.outbox)
        ∧ (s.spdm.algs = true → (slot ≠ 0 ∨ s.slotZero.length ≤ off) → Replied s t 0x13 0x7F 1 0) ∧ (∀ a, t.reg a = s.reg a) ∧ SameMemory s t)
      ∧ (∀ code, spdmRequest (.spdmUnsupportedRequest code) = true →
        Completes (.spdmUnsupportedRequest code) s fun t => Replied s t 0x13 0x7F 7 (code % 256) ∧ t.spdm = s.spdm ∧ (∀ a, t.reg a = s.reg a)
          ∧ SameMemory s t))

/-- R420, R422, R423: with the identity key a CHALLENGE and a signed GET_MEASUREMENTS are answered and end their transcript; without it they are
answered Unspecified. A record that has changed since a transcript's first measurements answers RequestResynch; an index that R422 does not list
answers InvalidRequest; an unsigned answer holds the transcript to the record it showed. -/
def Obligations.SpdmSigns : Prop :=
  ∀ (s : State), s.up = true → s.activating = false → s.spdm.mail = false → s.spdm.stale = false → s.spdm.algs = true →
    (∀ kind nonce, Completes (.challenge 0 kind nonce) s fun t =>
        (s.idOk = true → Replied s t 0x13 3 0 1 ∧ t.spdm.script = [] ∧ t.drbg = (s.drbg + 1) % 1048576)
        ∧ (s.idOk = false → Replied s t 0x13 0x7F 5 0 ∧ t.spdm = s.spdm) ∧ (∀ a, t.reg a = s.reg a) ∧ SameMemory s t)
    ∧ (∀ index sgn nonce, Completes (.getMeasurements index sgn nonce) s fun t =>
        ((∃ n, s.spdm.began = some n ∧ n ≠ s.spdm.record) → Replied s t 0x13 0x7F 0x43 0 ∧ t.spdm.began = none)
        ∧ ((∀ n, s.spdm.began = some n → n = s.spdm.record) →
          (10 < index → index ≠ 0xFF → Replied s t 0x13 0x7F 1 0)
          ∧ ((index ≤ 10 ∨ index = 0xFF) →
            (sgn = true → s.idOk = false → Replied s t 0x13 0x7F 5 0)
            ∧ (sgn = true → s.idOk = true → Replied s t 0x13 0x60 (if index = 0 then 10 else 0) 0 ∧ t.spdm.began = none ∧ t.spdm.script = [])
            ∧ (sgn = false → Replied s t 0x13 0x60 (if index = 0 then 10 else 0) 0 ∧ t.spdm.began = some s.spdm.record)))
        ∧ (∀ a, t.reg a = s.reg a) ∧ SameMemory s t)

/-- R424: before the first record, halted and in recovery no request is answered. During an activation every one receives Busy, counted; a transcript
that an activation has overtaken receives RequestResynch. -/
def Obligations.SpdmAroundResets : Prop :=
  ∀ (s : State) (i : Instr), spdmRequest i = true →
    (s.up = false → exec i s = .next s)
    ∧ (s.up = true → s.activating = true → s.spdm.mail = false →
      Completes i s fun t => Replied s t 0x13 0x7F 3 0 ∧ t.reg A.spdmBusy = BitVec.ofNat 64 (satAdd 48 (s.regN A.spdmBusy) 1)
        ∧ (∀ a, a ≠ A.spdmBusy → t.reg a = s.reg a) ∧ t.spdm = s.spdm ∧ SameMemory s t)
    ∧ (s.up = true → s.activating = false → s.spdm.stale = true → s.spdm.mail = false → i ≠ .getVersion →
      Completes i s fun t => Replied s t 0x13 0x7F 0x43 0 ∧ t.spdm = s.spdm ∧ (∀ a, t.reg a = s.reg a) ∧ SameMemory s t)

/-! ### I3C -/

/-- R507 (codes beyond the spec's are the model's, log 70): from the release of PORST_N, SETDASA of the static address 0x50 + BPOS and ENTDAA without
an address give the dynamic one; RSTDAA takes it; events are enabled and disabled; MCTP control sets and tells the endpoint ID. While PORST_N is low
or VIN is gone none answers. Effecter 1 writes the power cap as the operator. -/
def Obligations.I3cTargetActs : Prop :=
  ∀ (s : State),
    (∀ i, ((∃ a d, i = .setdasa a d) ∨ (∃ d, i = .entdaa d) ∨ (∃ c, i = .mandatoryCommonCommand c) ∨ ∃ c e, i = .mctpControlMessage c e) →
      (s.pins.porst = false ∨ s.boot = .off) → exec i s = .next s)
    ∧ (s.pins.porst = true → s.boot ≠ .off →
      (∀ d, d < 128 → Completes (.setdasa (0x50 + s.pins.bpos) d) s fun t => t.i3c.dyn = some d ∧ t = { s with i3c := t.i3c })
      ∧ (∀ a d, a ≠ 0x50 + s.pins.bpos → exec (.setdasa a d) s = .next s)
      ∧ (∀ d, d < 128 → s.i3c.dyn = none → Completes (.entdaa d) s fun t => t.i3c.dyn = some d ∧ t = { s with i3c := t.i3c })
      ∧ (∀ d x, s.i3c.dyn = some x → exec (.entdaa d) s = .next s)
      ∧ (Completes (.mandatoryCommonCommand 0x06) s fun t => t.i3c.dyn = none ∧ t = { s with i3c := t.i3c })
      ∧ (∀ c, c = 0x00 ∨ c = 0x80 → Completes (.mandatoryCommonCommand c) s fun t => t.i3c.events = true ∧ t = { s with i3c := t.i3c })
      ∧ (∀ c, c = 0x01 ∨ c = 0x81 → Completes (.mandatoryCommonCommand c) s fun t => t.i3c.events = false ∧ t = { s with i3c := t.i3c })
      ∧ (∀ e, e < 256 → Completes (.mctpControlMessage 1 e) s fun t =>
          t.i3c.eid = e ∧ t.outbox = .i3c 0x101 e :: s.outbox ∧ (∀ a, t.reg a = s.reg a) ∧ SameMemory s t)
      ∧ (∀ e, Completes (.mctpControlMessage 2 e) s fun t => t = s.send (.i3c 0x102 s.i3c.eid)))
    ∧ (∀ v, v < 2048 → s.up = true → Completes (.pldmEffecterSet 1 v) s fun t =>
        t.regN A.govCtrl = max 600 (min 1600 v) ∧ (∀ a, a ≠ A.govCtrl → t.reg a = s.reg a) ∧ t.outbox = .i3c 0x200 0 :: s.outbox ∧ SameMemory s t)
    ∧ (∀ n v, n ≠ 1 → s.up = true → Completes (.pldmEffecterSet n v) s fun t => t = s.send (.i3c 0x200 0x80))

/-! ### Reset and invariants -/

/-- R3, R43, R61, R336, R396, R481, R485, R506: registers whose reset value is not 0, and some that read 0; no unit holds anything; the queue of
commands is empty. R20: right after reset memory is in its canonical form (the model's, log 4) and nothing is owned. -/
def Obligations.ResetLeaves : Prop :=
  (State.reset.regN A.ident = 0x02B1204820 ∧ State.reset.regN A.govCtrl = 0x640 ∧ State.reset.regN A.grace = 0x64
    ∧ State.reset.regN A.riskGain = 0x1010101010 ∧ State.reset.fieldN A.bistCtrl 1 8 = 0x78 ∧ State.reset.fieldN A.hltHeartbeat 32 3 = 1
    ∧ State.reset.regN A.mboxOutCfg = 4 ∧ (∀ r, r < 48 → State.reset.regN (A.admShare r) = 0x04280C04) ∧ State.reset.regN A.member = 0
    ∧ State.reset.regN A.secStatus = 0 ∧ State.reset.regN A.bootStatus = 0
    ∧ State.reset.pending = [] ∧ State.reset.boot = .porst ∧ State.reset.anyOwned = false ∧ State.reset.sessions = [] ∧ State.reset.mem = []
    ∧ (∀ r k, State.reset.cl r k = Cluster.init) ∧ (∀ r, State.reset.rg r = Region.init) ∧ ∀ c, State.reset.cx c = Ctx.init)
  ∧ (Canonical State.reset ∧ ContextsNamed State.reset)

/-- The canonical form of memory (the model's, log 4) is kept by every step from every state: addresses strictly rising, no byte listed that equals
what an unlisted one reads as. -/
def Obligations.MemoryStaysCanonical : Prop :=
  ∀ s t : State, Canonical s → step s = .next t → Canonical t

/-- R20: the owner of a region stays one of the sixteen contexts: every step from every state in which that holds keeps it. -/
def Obligations.OwnersStayContexts : Prop :=
  ∀ s t : State, ContextsNamed s → (∀ i ∈ s.pending, Instr.wf i = true) → step s = .next t → ContextsNamed t
end

