-- ==== Sys2Proof/Laws/Sparse.lean ====
section
/-!
SUPPORT. Sys2Proof/Laws/Sparse.lean: reads after writes of sparse data, and that every operation on it, and on memory, keeps
the canonical form.
-/
namespace Sys2Proof.Machine

/-! ### Read after write -/

theorem Sparse.get_after {α : Type} (d : α) (a : Nat) (m : Sparse α) (b : Nat) (h : a < b) :
    Sparse.get d (Sparse.after a m) b = Sparse.get d m b := by
  induction m with
  | nil => rfl
  | cons e m ih =>
    obtain ⟨k, v⟩ := e
    simp only [Sparse.after]
    split
    · next hk => rw [ih]; simp only [Sparse.get]; rw [if_neg (by omega), if_neg (by omega)]
    · rfl

theorem Sparse.get_after_le {α : Type} (d : α) (a : Nat) (m : Sparse α) (b : Nat) (h : b ≤ a) :
    Sparse.get d (Sparse.after a m) b = d := by
  induction m with
  | nil => rfl
  | cons e m ih =>
    obtain ⟨k, v⟩ := e
    simp only [Sparse.after]
    split
    · exact ih
    · next hk => simp only [Sparse.get]; rw [if_neg (by omega), if_pos (by omega)]

theorem Sparse.get_set_same {α : Type} [DecidableEq α] (d : α) (m : Sparse α) (a : Nat) (v : α) :
    Sparse.get d (Sparse.set d m a v) a = v := by
  induction m with
  | nil => simp only [Sparse.set]; split <;> simp_all [Sparse.get]
  | cons e m ih =>
    obtain ⟨k, w⟩ := e
    simp only [Sparse.set]
    split
    · split
      · simp only [Sparse.get]; rw [if_neg (by omega), if_pos (by assumption)]; exact Eq.symm ‹_›
      · simp [Sparse.get]
    · split
      · split
        · rw [Sparse.get_after_le d a m a (Nat.le_refl a)]; exact Eq.symm ‹_›
        · simp [Sparse.get]
      · simp only [Sparse.get]; rw [if_neg (by omega), if_neg (by omega)]; exact ih

theorem Sparse.get_set_ne {α : Type} [DecidableEq α] (d : α) (m : Sparse α) (a b : Nat) (v : α) (h : b ≠ a) :
    Sparse.get d (Sparse.set d m a v) b = Sparse.get d m b := by
  induction m with
  | nil => simp only [Sparse.set]; split <;> simp [Sparse.get]; intro e; exact absurd e.symm h
  | cons e m ih =>
    obtain ⟨k, w⟩ := e
    simp only [Sparse.set]
    split
    · split
      · rfl
      · simp only [Sparse.get]; rw [if_neg (Ne.symm h)]
        split
        · split
          · omega
          · split
            · rfl
            · omega
        · rfl
    · split
      · next hk =>
        subst hk
        split
        · rcases Nat.lt_trichotomy b a with hb | hb | hb
          · rw [Sparse.get_after_le d a m b (by omega)]; simp only [Sparse.get]; rw [if_neg (by omega), if_pos hb]
          · exact absurd hb h
          · rw [Sparse.get_after d a m b hb]; simp only [Sparse.get]; rw [if_neg (by omega), if_neg (by omega)]
        · simp only [Sparse.get]; rw [if_neg (Ne.symm h), if_neg (Ne.symm h)]
      · simp only [Sparse.get, ih]

theorem Sparse.get_set {α : Type} [DecidableEq α] (d : α) (m : Sparse α) (a b : Nat) (v : α) :
    Sparse.get d (Sparse.set d m a v) b = if b = a then v else Sparse.get d m b := by
  split
  · next h => rw [h, Sparse.get_set_same]
  · next h => exact Sparse.get_set_ne d m a b v h

/-! ### The canonical form -/

theorem Sparse.above_trans {α : Type} {a b : Nat} {m : Sparse α} (h : a ≤ b) (hm : Sparse.above b m = true) : Sparse.above a m = true := by
  cases m with
  | nil => rfl
  | cons e m => obtain ⟨k, v⟩ := e; simp only [Sparse.above, decide_eq_true_eq] at *; omega

theorem Sparse.wf_cons {α : Type} [DecidableEq α] {d : α} {k : Nat} {v : α} {m : Sparse α} :
    Sparse.wf d ((k, v) :: m) = true ↔ v ≠ d ∧ Sparse.above k m = true ∧ Sparse.wf d m = true := by
  simp only [Sparse.wf, Bool.and_eq_true, decide_eq_true_eq, and_assoc]

theorem Sparse.after_of_above {α : Type} {a : Nat} {m : Sparse α} (h : Sparse.above a m = true) : Sparse.after a m = m := by
  cases m with
  | nil => rfl
  | cons e m =>
    obtain ⟨k, v⟩ := e
    simp only [Sparse.above, decide_eq_true_eq] at h
    simp only [Sparse.after]
    rw [if_neg (by omega)]

theorem Sparse.above_set {α : Type} [DecidableEq α] {d : α} {a b : Nat} {v : α} {m : Sparse α} (hb : b < a)
    (hw : Sparse.wf d m = true) (hm : Sparse.above b m = true) : Sparse.above b (Sparse.set d m a v) = true := by
  cases m with
  | nil => simp only [Sparse.set]; split <;> simp [Sparse.above, hb]
  | cons e m =>
    obtain ⟨k, w⟩ := e
    have hw' := Sparse.wf_cons.mp hw
    simp only [Sparse.above, decide_eq_true_eq] at hm
    simp only [Sparse.set]
    split
    · split <;> simp [Sparse.above, hb, hm]
    · split
      · next hak =>
        split
        · rw [Sparse.after_of_above (hak ▸ hw'.2.1)]; exact Sparse.above_trans (by omega) hw'.2.1
        · simp [Sparse.above, hb]
      · simp [Sparse.above, hm]

/-- Writing keeps the canonical form. -/
theorem Sparse.set_wf {α : Type} [DecidableEq α] {d : α} {m : Sparse α} (a : Nat) (v : α) (h : Sparse.wf d m = true) :
    Sparse.wf d (Sparse.set d m a v) = true := by
  induction m with
  | nil => simp only [Sparse.set]; split <;> simp_all [Sparse.wf, Sparse.above]
  | cons e m ih =>
    obtain ⟨k, w⟩ := e
    have hw := Sparse.wf_cons.mp h
    simp only [Sparse.set]
    split
    · split
      · exact h
      · next hk hv => exact Sparse.wf_cons.mpr ⟨hv, by simp [Sparse.above, hk], h⟩
    · split
      · next hak =>
        split
        · next hk => rw [Sparse.after_of_above (hak ▸ hw.2.1)]; exact hw.2.2
        · next hv => exact Sparse.wf_cons.mpr ⟨hv, hak ▸ hw.2.1, hw.2.2⟩
      · exact Sparse.wf_cons.mpr ⟨hw.1, Sparse.above_set (by omega) hw.2.2 hw.2.1, ih hw.2.2⟩

theorem Sparse.above_eraseFrom {α : Type} {p : Nat → Bool} {n : Nat} (m : Sparse α) : ∀ b, b < n → Sparse.above b (Sparse.eraseFrom p n m) = true := by
  induction m generalizing n with
  | nil => intro b _; rfl
  | cons e m ih =>
    obtain ⟨k, v⟩ := e
    intro b hb
    simp only [Sparse.eraseFrom]
    split
    · exact ih b hb
    · split
      · exact ih b (by omega)
      · simp only [Sparse.above, decide_eq_true_eq]; omega

theorem Sparse.eraseFrom_wf {α : Type} [DecidableEq α] {d : α} {p : Nat → Bool} {m : Sparse α} (n : Nat) (h : Sparse.wf d m = true) :
    Sparse.wf d (Sparse.eraseFrom p n m) = true := by
  induction m generalizing n with
  | nil => rfl
  | cons e m ih =>
    obtain ⟨k, v⟩ := e
    have hw := Sparse.wf_cons.mp h
    simp only [Sparse.eraseFrom]
    split
    · exact ih n hw.2.2
    · split
      · exact ih (k + 1) hw.2.2
      · exact Sparse.wf_cons.mpr ⟨hw.1, Sparse.above_eraseFrom m k (by omega), ih (k + 1) hw.2.2⟩

/-- Dropping entries keeps the canonical form. -/
theorem Sparse.erase_wf {α : Type} [DecidableEq α] {d : α} {m : Sparse α} (p : Nat → Bool) (h : Sparse.wf d m = true) :
    Sparse.wf d (Sparse.erase p m) = true := Sparse.eraseFrom_wf 0 h

/-! ### Reads after entries are dropped -/

theorem Sparse.get_eraseFrom {α : Type} {d : α} (p : Nat → Bool) (a n : Nat) (m : Sparse α) :
    Sparse.get d (Sparse.eraseFrom p n m) a = if p a = true ∨ a < n then d else Sparse.get d m a := by
  induction m generalizing n with
  | nil => simp [Sparse.eraseFrom, Sparse.get]
  | cons e m ih =>
    obtain ⟨k, v⟩ := e
    simp only [Sparse.eraseFrom, Sparse.get]
    split
    · rw [ih n]
      split
      · rfl
      · next hk h => rw [if_neg (by omega), if_neg (by omega)]
    · next hk =>
      split
      · next hp =>
        rw [ih (k + 1)]
        by_cases hka : k = a
        · subst hka; simp [hp]
        · by_cases hlt : a < k
          · simp [hka, hlt, show a < k + 1 by omega]
          · simp [hka, hlt, show ¬ a < k + 1 by omega, show ¬ a < n by omega]
      · next hp =>
        simp only [Sparse.get, ih (k + 1)]
        by_cases hka : k = a
        · subst hka; simp [hp, hk]
        · by_cases hlt : a < k
          · simp [hka, hlt]
          · simp [hka, hlt, show ¬ a < k + 1 by omega, show ¬ a < n by omega]

/-- What is dropped reads as the default, the rest as before, whatever the list. -/
theorem Sparse.get_erase {α : Type} {d : α} (m : Sparse α) (p : Nat → Bool) (a : Nat) :
    Sparse.get d (Sparse.erase p m) a = if p a then d else Sparse.get d m a := by
  simp [Sparse.erase, Sparse.get_eraseFrom]

/-! ### Memory -/

theorem Memory.read_write (m : Memory) (a b : Nat) (v : BitVec 8) : (m.write a v).read b = if b = a then v else m.read b :=
  Sparse.get_set 0#8 m a b v

theorem Memory.write_wf {m : Memory} (a : Nat) (v : BitVec 8) (h : m.wf = true) : (m.write a v).wf = true := Sparse.set_wf a v h

theorem Memory.writeBytes_wf {m : Memory} (a : Nat) (bs : List (BitVec 8)) (h : m.wf = true) : (m.writeBytes a bs).wf = true := by
  induction bs generalizing m a with
  | nil => exact h
  | cons b bs ih => exact ih (a + 1) (Memory.write_wf a b h)

theorem Memory.zeroRange_wf {m : Memory} (a n : Nat) (h : m.wf = true) : (m.zeroRange a n).wf = true := Sparse.erase_wf _ h

/-- A write of consecutive bytes leaves every other byte alone. -/
theorem Memory.read_writeBytes_outside (m : Memory) (a : Nat) (bs : List (BitVec 8)) (b : Nat) (h : b < a ∨ a + bs.length ≤ b) :
    (m.writeBytes a bs).read b = m.read b := by
  induction bs generalizing m a with
  | nil => rfl
  | cons x bs ih =>
    simp only [List.length_cons] at h
    simp only [Memory.writeBytes]
    rw [ih (m.write a x) (a + 1) (by omega), Memory.read_write, if_neg (by omega)]

/-- Byte `i` of what was written. -/
theorem Memory.read_writeBytes (m : Memory) (a : Nat) (bs : List (BitVec 8)) (i : Nat) (h : i < bs.length) :
    (m.writeBytes a bs).read (a + i) = bs[i] := by
  induction bs generalizing m a i with
  | nil => exact absurd h (by simp)
  | cons x bs ih =>
    simp only [Memory.writeBytes]
    cases i with
    | zero =>
      rw [Memory.read_writeBytes_outside (m.write a x) (a + 1) bs (a + 0) (by omega), Memory.read_write]
      simp
    | succ i =>
      have h' : i < bs.length := by simpa using h
      have := ih (m.write a x) (a + 1) i h'
      rw [show a + (i + 1) = a + 1 + i by omega, this]
      rfl

theorem Memory.read_zeroRange (m : Memory) (a n b : Nat) :
    (m.zeroRange a n).read b = if a ≤ b ∧ b < a + n then 0#8 else m.read b := by
  simp [Memory.zeroRange, Memory.read, Sparse.get_erase]

end Sys2Proof.Machine
end

