-- ==== Sys2Proof/Laws/State.lean ====
section
/-!
SUPPORT. Sys2Proof/Laws/State.lean: what each update of the state leaves in each field, and what the readers of registers and units
find after it. No later proof unfolds a record update.
-/
namespace Sys2Proof.Machine

/-! ### Fields after `setReg` -/

@[simp] theorem State.setReg_pending (s : State) (a : Nat) (w : Reg64) : (s.setReg a w).pending = s.pending := rfl
@[simp] theorem State.setReg_mem (s : State) (a : Nat) (w : Reg64) : (s.setReg a w).mem = s.mem := rfl
@[simp] theorem State.setReg_gran (s : State) (a : Nat) (w : Reg64) : (s.setReg a w).gran = s.gran := rfl
@[simp] theorem State.setReg_flash (s : State) (a : Nat) (w : Reg64) : (s.setReg a w).flash = s.flash := rfl
@[simp] theorem State.setReg_hidden (s : State) (a : Nat) (w : Reg64) : (s.setReg a w).hidden = s.hidden := rfl
@[simp] theorem State.setReg_sampled (s : State) (a : Nat) (w : Reg64) : (s.setReg a w).sampled = s.sampled := rfl
@[simp] theorem State.setReg_counted (s : State) (a : Nat) (w : Reg64) : (s.setReg a w).counted = s.counted := rfl
@[simp] theorem State.setReg_clusters (s : State) (a : Nat) (w : Reg64) : (s.setReg a w).clusters = s.clusters := rfl
@[simp] theorem State.setReg_regions (s : State) (a : Nat) (w : Reg64) : (s.setReg a w).regions = s.regions := rfl
@[simp] theorem State.setReg_ctxs (s : State) (a : Nat) (w : Reg64) : (s.setReg a w).ctxs = s.ctxs := rfl
@[simp] theorem State.setReg_bars (s : State) (a : Nat) (w : Reg64) : (s.setReg a w).bars = s.bars := rfl
@[simp] theorem State.setReg_rels (s : State) (a : Nat) (w : Reg64) : (s.setReg a w).rels = s.rels := rfl
@[simp] theorem State.setReg_boot (s : State) (a : Nat) (w : Reg64) : (s.setReg a w).boot = s.boot := rfl
@[simp] theorem State.setReg_active (s : State) (a : Nat) (w : Reg64) : (s.setReg a w).active = s.active := rfl
@[simp] theorem State.setReg_maq (s : State) (a : Nat) (w : Reg64) : (s.setReg a w).maq = s.maq := rfl
@[simp] theorem State.setReg_firm (s : State) (a : Nat) (w : Reg64) : (s.setReg a w).firm = s.firm := rfl
@[simp] theorem State.setReg_sent (s : State) (a : Nat) (w : Reg64) : (s.setReg a w).sent = s.sent := rfl
@[simp] theorem State.setReg_nextTag (s : State) (a : Nat) (w : Reg64) : (s.setReg a w).nextTag = s.nextTag := rfl
@[simp] theorem State.setReg_ingress (s : State) (a : Nat) (w : Reg64) : (s.setReg a w).ingress = s.ingress := rfl
@[simp] theorem State.setReg_heldPkts (s : State) (a : Nat) (w : Reg64) : (s.setReg a w).heldPkts = s.heldPkts := rfl
@[simp] theorem State.setReg_nextHeld (s : State) (a : Nat) (w : Reg64) : (s.setReg a w).nextHeld = s.nextHeld := rfl
@[simp] theorem State.setReg_heldMlm (s : State) (a : Nat) (w : Reg64) : (s.setReg a w).heldMlm = s.heldMlm := rfl
@[simp] theorem State.setReg_sessions (s : State) (a : Nat) (w : Reg64) : (s.setReg a w).sessions = s.sessions := rfl
@[simp] theorem State.setReg_kexs (s : State) (a : Nat) (w : Reg64) : (s.setReg a w).kexs = s.kexs := rfl
@[simp] theorem State.setReg_links (s : State) (a : Nat) (w : Reg64) : (s.setReg a w).links = s.links := rfl
@[simp] theorem State.setReg_routeDue (s : State) (a : Nat) (w : Reg64) : (s.setReg a w).routeDue = s.routeDue := rfl
@[simp] theorem State.setReg_health (s : State) (a : Nat) (w : Reg64) : (s.setReg a w).health = s.health := rfl
@[simp] theorem State.setReg_wdog (s : State) (a : Nat) (w : Reg64) : (s.setReg a w).wdog = s.wdog := rfl
@[simp] theorem State.setReg_spdm (s : State) (a : Nat) (w : Reg64) : (s.setReg a w).spdm = s.spdm := rfl
@[simp] theorem State.setReg_dbg (s : State) (a : Nat) (w : Reg64) : (s.setReg a w).dbg = s.dbg := rfl
@[simp] theorem State.setReg_i3c (s : State) (a : Nat) (w : Reg64) : (s.setReg a w).i3c = s.i3c := rfl
@[simp] theorem State.setReg_pins (s : State) (a : Nat) (w : Reg64) : (s.setReg a w).pins = s.pins := rfl
@[simp] theorem State.setReg_inv (s : State) (a : Nat) (w : Reg64) : (s.setReg a w).inv = s.inv := rfl
@[simp] theorem State.setReg_scrub (s : State) (a : Nat) (w : Reg64) : (s.setReg a w).scrub = s.scrub := rfl
@[simp] theorem State.setReg_dieReset (s : State) (a : Nat) (w : Reg64) : (s.setReg a w).dieReset = s.dieReset := rfl
@[simp] theorem State.setReg_rails (s : State) (a : Nat) (w : Reg64) : (s.setReg a w).rails = s.rails := rfl
@[simp] theorem State.setReg_admDown (s : State) (a : Nat) (w : Reg64) : (s.setReg a w).admDown = s.admDown := rfl
@[simp] theorem State.setReg_recal (s : State) (a : Nat) (w : Reg64) : (s.setReg a w).recal = s.recal := rfl
@[simp] theorem State.setReg_patrol (s : State) (a : Nat) (w : Reg64) : (s.setReg a w).patrol = s.patrol := rfl
@[simp] theorem State.setReg_scrubLine (s : State) (a : Nat) (w : Reg64) : (s.setReg a w).scrubLine = s.scrubLine := rfl
@[simp] theorem State.setReg_nextKey (s : State) (a : Nat) (w : Reg64) : (s.setReg a w).nextKey = s.nextKey := rfl
@[simp] theorem State.setReg_drbg (s : State) (a : Nat) (w : Reg64) : (s.setReg a w).drbg = s.drbg := rfl
@[simp] theorem State.setReg_identity (s : State) (a : Nat) (w : Reg64) : (s.setReg a w).identity = s.identity := rfl
@[simp] theorem State.setReg_inbox (s : State) (a : Nat) (w : Reg64) : (s.setReg a w).inbox = s.inbox := rfl
@[simp] theorem State.setReg_taking (s : State) (a : Nat) (w : Reg64) : (s.setReg a w).taking = s.taking := rfl
@[simp] theorem State.setReg_heldMsgs (s : State) (a : Nat) (w : Reg64) : (s.setReg a w).heldMsgs = s.heldMsgs := rfl
@[simp] theorem State.setReg_mboxSeq (s : State) (a : Nat) (w : Reg64) : (s.setReg a w).mboxSeq = s.mboxSeq := rfl
@[simp] theorem State.setReg_timeNs (s : State) (a : Nat) (w : Reg64) : (s.setReg a w).timeNs = s.timeNs := rfl
@[simp] theorem State.setReg_powerOns (s : State) (a : Nat) (w : Reg64) : (s.setReg a w).powerOns = s.powerOns := rfl
@[simp] theorem State.setReg_sensors (s : State) (a : Nat) (w : Reg64) : (s.setReg a w).sensors = s.sensors := rfl
@[simp] theorem State.setReg_outbox (s : State) (a : Nat) (w : Reg64) : (s.setReg a w).outbox = s.outbox := rfl
@[simp] theorem State.setReg_freeCtr (s : State) (a : Nat) (w : Reg64) : (s.setReg a w).freeCtr = s.freeCtr := rfl
@[simp] theorem State.setReg_ticks (s : State) (a : Nat) (w : Reg64) : (s.setReg a w).ticks = s.ticks := rfl

/-! ### Fields after `setCl` -/

@[simp] theorem State.setCl_pending (s : State) (r k : Nat) (c : Cluster) : (s.setCl r k c).pending = s.pending := rfl
@[simp] theorem State.setCl_mem (s : State) (r k : Nat) (c : Cluster) : (s.setCl r k c).mem = s.mem := rfl
@[simp] theorem State.setCl_gran (s : State) (r k : Nat) (c : Cluster) : (s.setCl r k c).gran = s.gran := rfl
@[simp] theorem State.setCl_flash (s : State) (r k : Nat) (c : Cluster) : (s.setCl r k c).flash = s.flash := rfl
@[simp] theorem State.setCl_regs (s : State) (r k : Nat) (c : Cluster) : (s.setCl r k c).regs = s.regs := rfl
@[simp] theorem State.setCl_hidden (s : State) (r k : Nat) (c : Cluster) : (s.setCl r k c).hidden = s.hidden := rfl
@[simp] theorem State.setCl_sampled (s : State) (r k : Nat) (c : Cluster) : (s.setCl r k c).sampled = s.sampled := rfl
@[simp] theorem State.setCl_counted (s : State) (r k : Nat) (c : Cluster) : (s.setCl r k c).counted = s.counted := rfl
@[simp] theorem State.setCl_regions (s : State) (r k : Nat) (c : Cluster) : (s.setCl r k c).regions = s.regions := rfl
@[simp] theorem State.setCl_ctxs (s : State) (r k : Nat) (c : Cluster) : (s.setCl r k c).ctxs = s.ctxs := rfl
@[simp] theorem State.setCl_bars (s : State) (r k : Nat) (c : Cluster) : (s.setCl r k c).bars = s.bars := rfl
@[simp] theorem State.setCl_rels (s : State) (r k : Nat) (c : Cluster) : (s.setCl r k c).rels = s.rels := rfl
@[simp] theorem State.setCl_boot (s : State) (r k : Nat) (c : Cluster) : (s.setCl r k c).boot = s.boot := rfl
@[simp] theorem State.setCl_active (s : State) (r k : Nat) (c : Cluster) : (s.setCl r k c).active = s.active := rfl
@[simp] theorem State.setCl_maq (s : State) (r k : Nat) (c : Cluster) : (s.setCl r k c).maq = s.maq := rfl
@[simp] theorem State.setCl_firm (s : State) (r k : Nat) (c : Cluster) : (s.setCl r k c).firm = s.firm := rfl
@[simp] theorem State.setCl_sent (s : State) (r k : Nat) (c : Cluster) : (s.setCl r k c).sent = s.sent := rfl
@[simp] theorem State.setCl_nextTag (s : State) (r k : Nat) (c : Cluster) : (s.setCl r k c).nextTag = s.nextTag := rfl
@[simp] theorem State.setCl_ingress (s : State) (r k : Nat) (c : Cluster) : (s.setCl r k c).ingress = s.ingress := rfl
@[simp] theorem State.setCl_heldPkts (s : State) (r k : Nat) (c : Cluster) : (s.setCl r k c).heldPkts = s.heldPkts := rfl
@[simp] theorem State.setCl_nextHeld (s : State) (r k : Nat) (c : Cluster) : (s.setCl r k c).nextHeld = s.nextHeld := rfl
@[simp] theorem State.setCl_heldMlm (s : State) (r k : Nat) (c : Cluster) : (s.setCl r k c).heldMlm = s.heldMlm := rfl
@[simp] theorem State.setCl_sessions (s : State) (r k : Nat) (c : Cluster) : (s.setCl r k c).sessions = s.sessions := rfl
@[simp] theorem State.setCl_kexs (s : State) (r k : Nat) (c : Cluster) : (s.setCl r k c).kexs = s.kexs := rfl
@[simp] theorem State.setCl_links (s : State) (r k : Nat) (c : Cluster) : (s.setCl r k c).links = s.links := rfl
@[simp] theorem State.setCl_routeDue (s : State) (r k : Nat) (c : Cluster) : (s.setCl r k c).routeDue = s.routeDue := rfl
@[simp] theorem State.setCl_health (s : State) (r k : Nat) (c : Cluster) : (s.setCl r k c).health = s.health := rfl
@[simp] theorem State.setCl_wdog (s : State) (r k : Nat) (c : Cluster) : (s.setCl r k c).wdog = s.wdog := rfl
@[simp] theorem State.setCl_spdm (s : State) (r k : Nat) (c : Cluster) : (s.setCl r k c).spdm = s.spdm := rfl
@[simp] theorem State.setCl_dbg (s : State) (r k : Nat) (c : Cluster) : (s.setCl r k c).dbg = s.dbg := rfl
@[simp] theorem State.setCl_i3c (s : State) (r k : Nat) (c : Cluster) : (s.setCl r k c).i3c = s.i3c := rfl
@[simp] theorem State.setCl_pins (s : State) (r k : Nat) (c : Cluster) : (s.setCl r k c).pins = s.pins := rfl
@[simp] theorem State.setCl_inv (s : State) (r k : Nat) (c : Cluster) : (s.setCl r k c).inv = s.inv := rfl
@[simp] theorem State.setCl_scrub (s : State) (r k : Nat) (c : Cluster) : (s.setCl r k c).scrub = s.scrub := rfl
@[simp] theorem State.setCl_dieReset (s : State) (r k : Nat) (c : Cluster) : (s.setCl r k c).dieReset = s.dieReset := rfl
@[simp] theorem State.setCl_rails (s : State) (r k : Nat) (c : Cluster) : (s.setCl r k c).rails = s.rails := rfl
@[simp] theorem State.setCl_admDown (s : State) (r k : Nat) (c : Cluster) : (s.setCl r k c).admDown = s.admDown := rfl
@[simp] theorem State.setCl_recal (s : State) (r k : Nat) (c : Cluster) : (s.setCl r k c).recal = s.recal := rfl
@[simp] theorem State.setCl_patrol (s : State) (r k : Nat) (c : Cluster) : (s.setCl r k c).patrol = s.patrol := rfl
@[simp] theorem State.setCl_scrubLine (s : State) (r k : Nat) (c : Cluster) : (s.setCl r k c).scrubLine = s.scrubLine := rfl
@[simp] theorem State.setCl_nextKey (s : State) (r k : Nat) (c : Cluster) : (s.setCl r k c).nextKey = s.nextKey := rfl
@[simp] theorem State.setCl_drbg (s : State) (r k : Nat) (c : Cluster) : (s.setCl r k c).drbg = s.drbg := rfl
@[simp] theorem State.setCl_identity (s : State) (r k : Nat) (c : Cluster) : (s.setCl r k c).identity = s.identity := rfl
@[simp] theorem State.setCl_inbox (s : State) (r k : Nat) (c : Cluster) : (s.setCl r k c).inbox = s.inbox := rfl
@[simp] theorem State.setCl_taking (s : State) (r k : Nat) (c : Cluster) : (s.setCl r k c).taking = s.taking := rfl
@[simp] theorem State.setCl_heldMsgs (s : State) (r k : Nat) (c : Cluster) : (s.setCl r k c).heldMsgs = s.heldMsgs := rfl
@[simp] theorem State.setCl_mboxSeq (s : State) (r k : Nat) (c : Cluster) : (s.setCl r k c).mboxSeq = s.mboxSeq := rfl
@[simp] theorem State.setCl_timeNs (s : State) (r k : Nat) (c : Cluster) : (s.setCl r k c).timeNs = s.timeNs := rfl
@[simp] theorem State.setCl_powerOns (s : State) (r k : Nat) (c : Cluster) : (s.setCl r k c).powerOns = s.powerOns := rfl
@[simp] theorem State.setCl_sensors (s : State) (r k : Nat) (c : Cluster) : (s.setCl r k c).sensors = s.sensors := rfl
@[simp] theorem State.setCl_outbox (s : State) (r k : Nat) (c : Cluster) : (s.setCl r k c).outbox = s.outbox := rfl
@[simp] theorem State.setCl_freeCtr (s : State) (r k : Nat) (c : Cluster) : (s.setCl r k c).freeCtr = s.freeCtr := rfl
@[simp] theorem State.setCl_ticks (s : State) (r k : Nat) (c : Cluster) : (s.setCl r k c).ticks = s.ticks := rfl

/-! ### Fields after `setRg` -/

@[simp] theorem State.setRg_pending (s : State) (r : Nat) (g : Region) : (s.setRg r g).pending = s.pending := rfl
@[simp] theorem State.setRg_mem (s : State) (r : Nat) (g : Region) : (s.setRg r g).mem = s.mem := rfl
@[simp] theorem State.setRg_gran (s : State) (r : Nat) (g : Region) : (s.setRg r g).gran = s.gran := rfl
@[simp] theorem State.setRg_flash (s : State) (r : Nat) (g : Region) : (s.setRg r g).flash = s.flash := rfl
@[simp] theorem State.setRg_regs (s : State) (r : Nat) (g : Region) : (s.setRg r g).regs = s.regs := rfl
@[simp] theorem State.setRg_hidden (s : State) (r : Nat) (g : Region) : (s.setRg r g).hidden = s.hidden := rfl
@[simp] theorem State.setRg_sampled (s : State) (r : Nat) (g : Region) : (s.setRg r g).sampled = s.sampled := rfl
@[simp] theorem State.setRg_counted (s : State) (r : Nat) (g : Region) : (s.setRg r g).counted = s.counted := rfl
@[simp] theorem State.setRg_clusters (s : State) (r : Nat) (g : Region) : (s.setRg r g).clusters = s.clusters := rfl
@[simp] theorem State.setRg_ctxs (s : State) (r : Nat) (g : Region) : (s.setRg r g).ctxs = s.ctxs := rfl
@[simp] theorem State.setRg_bars (s : State) (r : Nat) (g : Region) : (s.setRg r g).bars = s.bars := rfl
@[simp] theorem State.setRg_rels (s : State) (r : Nat) (g : Region) : (s.setRg r g).rels = s.rels := rfl
@[simp] theorem State.setRg_boot (s : State) (r : Nat) (g : Region) : (s.setRg r g).boot = s.boot := rfl
@[simp] theorem State.setRg_active (s : State) (r : Nat) (g : Region) : (s.setRg r g).active = s.active := rfl
@[simp] theorem State.setRg_maq (s : State) (r : Nat) (g : Region) : (s.setRg r g).maq = s.maq := rfl
@[simp] theorem State.setRg_firm (s : State) (r : Nat) (g : Region) : (s.setRg r g).firm = s.firm := rfl
@[simp] theorem State.setRg_sent (s : State) (r : Nat) (g : Region) : (s.setRg r g).sent = s.sent := rfl
@[simp] theorem State.setRg_nextTag (s : State) (r : Nat) (g : Region) : (s.setRg r g).nextTag = s.nextTag := rfl
@[simp] theorem State.setRg_ingress (s : State) (r : Nat) (g : Region) : (s.setRg r g).ingress = s.ingress := rfl
@[simp] theorem State.setRg_heldPkts (s : State) (r : Nat) (g : Region) : (s.setRg r g).heldPkts = s.heldPkts := rfl
@[simp] theorem State.setRg_nextHeld (s : State) (r : Nat) (g : Region) : (s.setRg r g).nextHeld = s.nextHeld := rfl
@[simp] theorem State.setRg_heldMlm (s : State) (r : Nat) (g : Region) : (s.setRg r g).heldMlm = s.heldMlm := rfl
@[simp] theorem State.setRg_sessions (s : State) (r : Nat) (g : Region) : (s.setRg r g).sessions = s.sessions := rfl
@[simp] theorem State.setRg_kexs (s : State) (r : Nat) (g : Region) : (s.setRg r g).kexs = s.kexs := rfl
@[simp] theorem State.setRg_links (s : State) (r : Nat) (g : Region) : (s.setRg r g).links = s.links := rfl
@[simp] theorem State.setRg_routeDue (s : State) (r : Nat) (g : Region) : (s.setRg r g).routeDue = s.routeDue := rfl
@[simp] theorem State.setRg_health (s : State) (r : Nat) (g : Region) : (s.setRg r g).health = s.health := rfl
@[simp] theorem State.setRg_wdog (s : State) (r : Nat) (g : Region) : (s.setRg r g).wdog = s.wdog := rfl
@[simp] theorem State.setRg_spdm (s : State) (r : Nat) (g : Region) : (s.setRg r g).spdm = s.spdm := rfl
@[simp] theorem State.setRg_dbg (s : State) (r : Nat) (g : Region) : (s.setRg r g).dbg = s.dbg := rfl
@[simp] theorem State.setRg_i3c (s : State) (r : Nat) (g : Region) : (s.setRg r g).i3c = s.i3c := rfl
@[simp] theorem State.setRg_pins (s : State) (r : Nat) (g : Region) : (s.setRg r g).pins = s.pins := rfl
@[simp] theorem State.setRg_inv (s : State) (r : Nat) (g : Region) : (s.setRg r g).inv = s.inv := rfl
@[simp] theorem State.setRg_scrub (s : State) (r : Nat) (g : Region) : (s.setRg r g).scrub = s.scrub := rfl
@[simp] theorem State.setRg_dieReset (s : State) (r : Nat) (g : Region) : (s.setRg r g).dieReset = s.dieReset := rfl
@[simp] theorem State.setRg_rails (s : State) (r : Nat) (g : Region) : (s.setRg r g).rails = s.rails := rfl
@[simp] theorem State.setRg_admDown (s : State) (r : Nat) (g : Region) : (s.setRg r g).admDown = s.admDown := rfl
@[simp] theorem State.setRg_recal (s : State) (r : Nat) (g : Region) : (s.setRg r g).recal = s.recal := rfl
@[simp] theorem State.setRg_patrol (s : State) (r : Nat) (g : Region) : (s.setRg r g).patrol = s.patrol := rfl
@[simp] theorem State.setRg_scrubLine (s : State) (r : Nat) (g : Region) : (s.setRg r g).scrubLine = s.scrubLine := rfl
@[simp] theorem State.setRg_nextKey (s : State) (r : Nat) (g : Region) : (s.setRg r g).nextKey = s.nextKey := rfl
@[simp] theorem State.setRg_drbg (s : State) (r : Nat) (g : Region) : (s.setRg r g).drbg = s.drbg := rfl
@[simp] theorem State.setRg_identity (s : State) (r : Nat) (g : Region) : (s.setRg r g).identity = s.identity := rfl
@[simp] theorem State.setRg_inbox (s : State) (r : Nat) (g : Region) : (s.setRg r g).inbox = s.inbox := rfl
@[simp] theorem State.setRg_taking (s : State) (r : Nat) (g : Region) : (s.setRg r g).taking = s.taking := rfl
@[simp] theorem State.setRg_heldMsgs (s : State) (r : Nat) (g : Region) : (s.setRg r g).heldMsgs = s.heldMsgs := rfl
@[simp] theorem State.setRg_mboxSeq (s : State) (r : Nat) (g : Region) : (s.setRg r g).mboxSeq = s.mboxSeq := rfl
@[simp] theorem State.setRg_timeNs (s : State) (r : Nat) (g : Region) : (s.setRg r g).timeNs = s.timeNs := rfl
@[simp] theorem State.setRg_powerOns (s : State) (r : Nat) (g : Region) : (s.setRg r g).powerOns = s.powerOns := rfl
@[simp] theorem State.setRg_sensors (s : State) (r : Nat) (g : Region) : (s.setRg r g).sensors = s.sensors := rfl
@[simp] theorem State.setRg_outbox (s : State) (r : Nat) (g : Region) : (s.setRg r g).outbox = s.outbox := rfl
@[simp] theorem State.setRg_freeCtr (s : State) (r : Nat) (g : Region) : (s.setRg r g).freeCtr = s.freeCtr := rfl
@[simp] theorem State.setRg_ticks (s : State) (r : Nat) (g : Region) : (s.setRg r g).ticks = s.ticks := rfl

/-! ### Fields after `setCx` -/

@[simp] theorem State.setCx_pending (s : State) (c : Nat) (x : Ctx) : (s.setCx c x).pending = s.pending := rfl
@[simp] theorem State.setCx_mem (s : State) (c : Nat) (x : Ctx) : (s.setCx c x).mem = s.mem := rfl
@[simp] theorem State.setCx_gran (s : State) (c : Nat) (x : Ctx) : (s.setCx c x).gran = s.gran := rfl
@[simp] theorem State.setCx_flash (s : State) (c : Nat) (x : Ctx) : (s.setCx c x).flash = s.flash := rfl
@[simp] theorem State.setCx_regs (s : State) (c : Nat) (x : Ctx) : (s.setCx c x).regs = s.regs := rfl
@[simp] theorem State.setCx_hidden (s : State) (c : Nat) (x : Ctx) : (s.setCx c x).hidden = s.hidden := rfl
@[simp] theorem State.setCx_sampled (s : State) (c : Nat) (x : Ctx) : (s.setCx c x).sampled = s.sampled := rfl
@[simp] theorem State.setCx_counted (s : State) (c : Nat) (x : Ctx) : (s.setCx c x).counted = s.counted := rfl
@[simp] theorem State.setCx_clusters (s : State) (c : Nat) (x : Ctx) : (s.setCx c x).clusters = s.clusters := rfl
@[simp] theorem State.setCx_regions (s : State) (c : Nat) (x : Ctx) : (s.setCx c x).regions = s.regions := rfl
@[simp] theorem State.setCx_bars (s : State) (c : Nat) (x : Ctx) : (s.setCx c x).bars = s.bars := rfl
@[simp] theorem State.setCx_rels (s : State) (c : Nat) (x : Ctx) : (s.setCx c x).rels = s.rels := rfl
@[simp] theorem State.setCx_boot (s : State) (c : Nat) (x : Ctx) : (s.setCx c x).boot = s.boot := rfl
@[simp] theorem State.setCx_active (s : State) (c : Nat) (x : Ctx) : (s.setCx c x).active = s.active := rfl
@[simp] theorem State.setCx_maq (s : State) (c : Nat) (x : Ctx) : (s.setCx c x).maq = s.maq := rfl
@[simp] theorem State.setCx_firm (s : State) (c : Nat) (x : Ctx) : (s.setCx c x).firm = s.firm := rfl
@[simp] theorem State.setCx_sent (s : State) (c : Nat) (x : Ctx) : (s.setCx c x).sent = s.sent := rfl
@[simp] theorem State.setCx_nextTag (s : State) (c : Nat) (x : Ctx) : (s.setCx c x).nextTag = s.nextTag := rfl
@[simp] theorem State.setCx_ingress (s : State) (c : Nat) (x : Ctx) : (s.setCx c x).ingress = s.ingress := rfl
@[simp] theorem State.setCx_heldPkts (s : State) (c : Nat) (x : Ctx) : (s.setCx c x).heldPkts = s.heldPkts := rfl
@[simp] theorem State.setCx_nextHeld (s : State) (c : Nat) (x : Ctx) : (s.setCx c x).nextHeld = s.nextHeld := rfl
@[simp] theorem State.setCx_heldMlm (s : State) (c : Nat) (x : Ctx) : (s.setCx c x).heldMlm = s.heldMlm := rfl
@[simp] theorem State.setCx_sessions (s : State) (c : Nat) (x : Ctx) : (s.setCx c x).sessions = s.sessions := rfl
@[simp] theorem State.setCx_kexs (s : State) (c : Nat) (x : Ctx) : (s.setCx c x).kexs = s.kexs := rfl
@[simp] theorem State.setCx_links (s : State) (c : Nat) (x : Ctx) : (s.setCx c x).links = s.links := rfl
@[simp] theorem State.setCx_routeDue (s : State) (c : Nat) (x : Ctx) : (s.setCx c x).routeDue = s.routeDue := rfl
@[simp] theorem State.setCx_health (s : State) (c : Nat) (x : Ctx) : (s.setCx c x).health = s.health := rfl
@[simp] theorem State.setCx_wdog (s : State) (c : Nat) (x : Ctx) : (s.setCx c x).wdog = s.wdog := rfl
@[simp] theorem State.setCx_spdm (s : State) (c : Nat) (x : Ctx) : (s.setCx c x).spdm = s.spdm := rfl
@[simp] theorem State.setCx_dbg (s : State) (c : Nat) (x : Ctx) : (s.setCx c x).dbg = s.dbg := rfl
@[simp] theorem State.setCx_i3c (s : State) (c : Nat) (x : Ctx) : (s.setCx c x).i3c = s.i3c := rfl
@[simp] theorem State.setCx_pins (s : State) (c : Nat) (x : Ctx) : (s.setCx c x).pins = s.pins := rfl
@[simp] theorem State.setCx_inv (s : State) (c : Nat) (x : Ctx) : (s.setCx c x).inv = s.inv := rfl
@[simp] theorem State.setCx_scrub (s : State) (c : Nat) (x : Ctx) : (s.setCx c x).scrub = s.scrub := rfl
@[simp] theorem State.setCx_dieReset (s : State) (c : Nat) (x : Ctx) : (s.setCx c x).dieReset = s.dieReset := rfl
@[simp] theorem State.setCx_rails (s : State) (c : Nat) (x : Ctx) : (s.setCx c x).rails = s.rails := rfl
@[simp] theorem State.setCx_admDown (s : State) (c : Nat) (x : Ctx) : (s.setCx c x).admDown = s.admDown := rfl
@[simp] theorem State.setCx_recal (s : State) (c : Nat) (x : Ctx) : (s.setCx c x).recal = s.recal := rfl
@[simp] theorem State.setCx_patrol (s : State) (c : Nat) (x : Ctx) : (s.setCx c x).patrol = s.patrol := rfl
@[simp] theorem State.setCx_scrubLine (s : State) (c : Nat) (x : Ctx) : (s.setCx c x).scrubLine = s.scrubLine := rfl
@[simp] theorem State.setCx_nextKey (s : State) (c : Nat) (x : Ctx) : (s.setCx c x).nextKey = s.nextKey := rfl
@[simp] theorem State.setCx_drbg (s : State) (c : Nat) (x : Ctx) : (s.setCx c x).drbg = s.drbg := rfl
@[simp] theorem State.setCx_identity (s : State) (c : Nat) (x : Ctx) : (s.setCx c x).identity = s.identity := rfl
@[simp] theorem State.setCx_inbox (s : State) (c : Nat) (x : Ctx) : (s.setCx c x).inbox = s.inbox := rfl
@[simp] theorem State.setCx_taking (s : State) (c : Nat) (x : Ctx) : (s.setCx c x).taking = s.taking := rfl
@[simp] theorem State.setCx_heldMsgs (s : State) (c : Nat) (x : Ctx) : (s.setCx c x).heldMsgs = s.heldMsgs := rfl
@[simp] theorem State.setCx_mboxSeq (s : State) (c : Nat) (x : Ctx) : (s.setCx c x).mboxSeq = s.mboxSeq := rfl
@[simp] theorem State.setCx_timeNs (s : State) (c : Nat) (x : Ctx) : (s.setCx c x).timeNs = s.timeNs := rfl
@[simp] theorem State.setCx_powerOns (s : State) (c : Nat) (x : Ctx) : (s.setCx c x).powerOns = s.powerOns := rfl
@[simp] theorem State.setCx_sensors (s : State) (c : Nat) (x : Ctx) : (s.setCx c x).sensors = s.sensors := rfl
@[simp] theorem State.setCx_outbox (s : State) (c : Nat) (x : Ctx) : (s.setCx c x).outbox = s.outbox := rfl
@[simp] theorem State.setCx_freeCtr (s : State) (c : Nat) (x : Ctx) : (s.setCx c x).freeCtr = s.freeCtr := rfl
@[simp] theorem State.setCx_ticks (s : State) (c : Nat) (x : Ctx) : (s.setCx c x).ticks = s.ticks := rfl

/-! ### Fields after `send` -/

@[simp] theorem State.send_pending (s : State) (m : OutMsg) : (s.send m).pending = s.pending := rfl
@[simp] theorem State.send_mem (s : State) (m : OutMsg) : (s.send m).mem = s.mem := rfl
@[simp] theorem State.send_gran (s : State) (m : OutMsg) : (s.send m).gran = s.gran := rfl
@[simp] theorem State.send_flash (s : State) (m : OutMsg) : (s.send m).flash = s.flash := rfl
@[simp] theorem State.send_regs (s : State) (m : OutMsg) : (s.send m).regs = s.regs := rfl
@[simp] theorem State.send_hidden (s : State) (m : OutMsg) : (s.send m).hidden = s.hidden := rfl
@[simp] theorem State.send_sampled (s : State) (m : OutMsg) : (s.send m).sampled = s.sampled := rfl
@[simp] theorem State.send_counted (s : State) (m : OutMsg) : (s.send m).counted = s.counted := rfl
@[simp] theorem State.send_clusters (s : State) (m : OutMsg) : (s.send m).clusters = s.clusters := rfl
@[simp] theorem State.send_regions (s : State) (m : OutMsg) : (s.send m).regions = s.regions := rfl
@[simp] theorem State.send_ctxs (s : State) (m : OutMsg) : (s.send m).ctxs = s.ctxs := rfl
@[simp] theorem State.send_bars (s : State) (m : OutMsg) : (s.send m).bars = s.bars := rfl
@[simp] theorem State.send_rels (s : State) (m : OutMsg) : (s.send m).rels = s.rels := rfl
@[simp] theorem State.send_boot (s : State) (m : OutMsg) : (s.send m).boot = s.boot := rfl
@[simp] theorem State.send_active (s : State) (m : OutMsg) : (s.send m).active = s.active := rfl
@[simp] theorem State.send_maq (s : State) (m : OutMsg) : (s.send m).maq = s.maq := rfl
@[simp] theorem State.send_firm (s : State) (m : OutMsg) : (s.send m).firm = s.firm := rfl
@[simp] theorem State.send_sent (s : State) (m : OutMsg) : (s.send m).sent = s.sent := rfl
@[simp] theorem State.send_nextTag (s : State) (m : OutMsg) : (s.send m).nextTag = s.nextTag := rfl
@[simp] theorem State.send_ingress (s : State) (m : OutMsg) : (s.send m).ingress = s.ingress := rfl
@[simp] theorem State.send_heldPkts (s : State) (m : OutMsg) : (s.send m).heldPkts = s.heldPkts := rfl
@[simp] theorem State.send_nextHeld (s : State) (m : OutMsg) : (s.send m).nextHeld = s.nextHeld := rfl
@[simp] theorem State.send_heldMlm (s : State) (m : OutMsg) : (s.send m).heldMlm = s.heldMlm := rfl
@[simp] theorem State.send_sessions (s : State) (m : OutMsg) : (s.send m).sessions = s.sessions := rfl
@[simp] theorem State.send_kexs (s : State) (m : OutMsg) : (s.send m).kexs = s.kexs := rfl
@[simp] theorem State.send_links (s : State) (m : OutMsg) : (s.send m).links = s.links := rfl
@[simp] theorem State.send_routeDue (s : State) (m : OutMsg) : (s.send m).routeDue = s.routeDue := rfl
@[simp] theorem State.send_health (s : State) (m : OutMsg) : (s.send m).health = s.health := rfl
@[simp] theorem State.send_wdog (s : State) (m : OutMsg) : (s.send m).wdog = s.wdog := rfl
@[simp] theorem State.send_spdm (s : State) (m : OutMsg) : (s.send m).spdm = s.spdm := rfl
@[simp] theorem State.send_dbg (s : State) (m : OutMsg) : (s.send m).dbg = s.dbg := rfl
@[simp] theorem State.send_i3c (s : State) (m : OutMsg) : (s.send m).i3c = s.i3c := rfl
@[simp] theorem State.send_pins (s : State) (m : OutMsg) : (s.send m).pins = s.pins := rfl
@[simp] theorem State.send_inv (s : State) (m : OutMsg) : (s.send m).inv = s.inv := rfl
@[simp] theorem State.send_scrub (s : State) (m : OutMsg) : (s.send m).scrub = s.scrub := rfl
@[simp] theorem State.send_dieReset (s : State) (m : OutMsg) : (s.send m).dieReset = s.dieReset := rfl
@[simp] theorem State.send_rails (s : State) (m : OutMsg) : (s.send m).rails = s.rails := rfl
@[simp] theorem State.send_admDown (s : State) (m : OutMsg) : (s.send m).admDown = s.admDown := rfl
@[simp] theorem State.send_recal (s : State) (m : OutMsg) : (s.send m).recal = s.recal := rfl
@[simp] theorem State.send_patrol (s : State) (m : OutMsg) : (s.send m).patrol = s.patrol := rfl
@[simp] theorem State.send_scrubLine (s : State) (m : OutMsg) : (s.send m).scrubLine = s.scrubLine := rfl
@[simp] theorem State.send_nextKey (s : State) (m : OutMsg) : (s.send m).nextKey = s.nextKey := rfl
@[simp] theorem State.send_drbg (s : State) (m : OutMsg) : (s.send m).drbg = s.drbg := rfl
@[simp] theorem State.send_identity (s : State) (m : OutMsg) : (s.send m).identity = s.identity := rfl
@[simp] theorem State.send_inbox (s : State) (m : OutMsg) : (s.send m).inbox = s.inbox := rfl
@[simp] theorem State.send_taking (s : State) (m : OutMsg) : (s.send m).taking = s.taking := rfl
@[simp] theorem State.send_heldMsgs (s : State) (m : OutMsg) : (s.send m).heldMsgs = s.heldMsgs := rfl
@[simp] theorem State.send_mboxSeq (s : State) (m : OutMsg) : (s.send m).mboxSeq = s.mboxSeq := rfl
@[simp] theorem State.send_timeNs (s : State) (m : OutMsg) : (s.send m).timeNs = s.timeNs := rfl
@[simp] theorem State.send_powerOns (s : State) (m : OutMsg) : (s.send m).powerOns = s.powerOns := rfl
@[simp] theorem State.send_sensors (s : State) (m : OutMsg) : (s.send m).sensors = s.sensors := rfl
@[simp] theorem State.send_freeCtr (s : State) (m : OutMsg) : (s.send m).freeCtr = s.freeCtr := rfl
@[simp] theorem State.send_ticks (s : State) (m : OutMsg) : (s.send m).ticks = s.ticks := rfl

/-! ### Fields after `setGran` -/

@[simp] theorem State.setGran_pending (s : State) (a : Nat) (g : Gran) : (s.setGran a g).pending = s.pending := rfl
@[simp] theorem State.setGran_mem (s : State) (a : Nat) (g : Gran) : (s.setGran a g).mem = s.mem := rfl
@[simp] theorem State.setGran_flash (s : State) (a : Nat) (g : Gran) : (s.setGran a g).flash = s.flash := rfl
@[simp] theorem State.setGran_regs (s : State) (a : Nat) (g : Gran) : (s.setGran a g).regs = s.regs := rfl
@[simp] theorem State.setGran_hidden (s : State) (a : Nat) (g : Gran) : (s.setGran a g).hidden = s.hidden := rfl
@[simp] theorem State.setGran_sampled (s : State) (a : Nat) (g : Gran) : (s.setGran a g).sampled = s.sampled := rfl
@[simp] theorem State.setGran_counted (s : State) (a : Nat) (g : Gran) : (s.setGran a g).counted = s.counted := rfl
@[simp] theorem State.setGran_clusters (s : State) (a : Nat) (g : Gran) : (s.setGran a g).clusters = s.clusters := rfl
@[simp] theorem State.setGran_regions (s : State) (a : Nat) (g : Gran) : (s.setGran a g).regions = s.regions := rfl
@[simp] theorem State.setGran_ctxs (s : State) (a : Nat) (g : Gran) : (s.setGran a g).ctxs = s.ctxs := rfl
@[simp] theorem State.setGran_bars (s : State) (a : Nat) (g : Gran) : (s.setGran a g).bars = s.bars := rfl
@[simp] theorem State.setGran_rels (s : State) (a : Nat) (g : Gran) : (s.setGran a g).rels = s.rels := rfl
@[simp] theorem State.setGran_boot (s : State) (a : Nat) (g : Gran) : (s.setGran a g).boot = s.boot := rfl
@[simp] theorem State.setGran_active (s : State) (a : Nat) (g : Gran) : (s.setGran a g).active = s.active := rfl
@[simp] theorem State.setGran_maq (s : State) (a : Nat) (g : Gran) : (s.setGran a g).maq = s.maq := rfl
@[simp] theorem State.setGran_firm (s : State) (a : Nat) (g : Gran) : (s.setGran a g).firm = s.firm := rfl
@[simp] theorem State.setGran_sent (s : State) (a : Nat) (g : Gran) : (s.setGran a g).sent = s.sent := rfl
@[simp] theorem State.setGran_nextTag (s : State) (a : Nat) (g : Gran) : (s.setGran a g).nextTag = s.nextTag := rfl
@[simp] theorem State.setGran_ingress (s : State) (a : Nat) (g : Gran) : (s.setGran a g).ingress = s.ingress := rfl
@[simp] theorem State.setGran_heldPkts (s : State) (a : Nat) (g : Gran) : (s.setGran a g).heldPkts = s.heldPkts := rfl
@[simp] theorem State.setGran_nextHeld (s : State) (a : Nat) (g : Gran) : (s.setGran a g).nextHeld = s.nextHeld := rfl
@[simp] theorem State.setGran_heldMlm (s : State) (a : Nat) (g : Gran) : (s.setGran a g).heldMlm = s.heldMlm := rfl
@[simp] theorem State.setGran_sessions (s : State) (a : Nat) (g : Gran) : (s.setGran a g).sessions = s.sessions := rfl
@[simp] theorem State.setGran_kexs (s : State) (a : Nat) (g : Gran) : (s.setGran a g).kexs = s.kexs := rfl
@[simp] theorem State.setGran_links (s : State) (a : Nat) (g : Gran) : (s.setGran a g).links = s.links := rfl
@[simp] theorem State.setGran_routeDue (s : State) (a : Nat) (g : Gran) : (s.setGran a g).routeDue = s.routeDue := rfl
@[simp] theorem State.setGran_health (s : State) (a : Nat) (g : Gran) : (s.setGran a g).health = s.health := rfl
@[simp] theorem State.setGran_wdog (s : State) (a : Nat) (g : Gran) : (s.setGran a g).wdog = s.wdog := rfl
@[simp] theorem State.setGran_spdm (s : State) (a : Nat) (g : Gran) : (s.setGran a g).spdm = s.spdm := rfl
@[simp] theorem State.setGran_dbg (s : State) (a : Nat) (g : Gran) : (s.setGran a g).dbg = s.dbg := rfl
@[simp] theorem State.setGran_i3c (s : State) (a : Nat) (g : Gran) : (s.setGran a g).i3c = s.i3c := rfl
@[simp] theorem State.setGran_pins (s : State) (a : Nat) (g : Gran) : (s.setGran a g).pins = s.pins := rfl
@[simp] theorem State.setGran_inv (s : State) (a : Nat) (g : Gran) : (s.setGran a g).inv = s.inv := rfl
@[simp] theorem State.setGran_scrub (s : State) (a : Nat) (g : Gran) : (s.setGran a g).scrub = s.scrub := rfl
@[simp] theorem State.setGran_dieReset (s : State) (a : Nat) (g : Gran) : (s.setGran a g).dieReset = s.dieReset := rfl
@[simp] theorem State.setGran_rails (s : State) (a : Nat) (g : Gran) : (s.setGran a g).rails = s.rails := rfl
@[simp] theorem State.setGran_admDown (s : State) (a : Nat) (g : Gran) : (s.setGran a g).admDown = s.admDown := rfl
@[simp] theorem State.setGran_recal (s : State) (a : Nat) (g : Gran) : (s.setGran a g).recal = s.recal := rfl
@[simp] theorem State.setGran_patrol (s : State) (a : Nat) (g : Gran) : (s.setGran a g).patrol = s.patrol := rfl
@[simp] theorem State.setGran_scrubLine (s : State) (a : Nat) (g : Gran) : (s.setGran a g).scrubLine = s.scrubLine := rfl
@[simp] theorem State.setGran_nextKey (s : State) (a : Nat) (g : Gran) : (s.setGran a g).nextKey = s.nextKey := rfl
@[simp] theorem State.setGran_drbg (s : State) (a : Nat) (g : Gran) : (s.setGran a g).drbg = s.drbg := rfl
@[simp] theorem State.setGran_identity (s : State) (a : Nat) (g : Gran) : (s.setGran a g).identity = s.identity := rfl
@[simp] theorem State.setGran_inbox (s : State) (a : Nat) (g : Gran) : (s.setGran a g).inbox = s.inbox := rfl
@[simp] theorem State.setGran_taking (s : State) (a : Nat) (g : Gran) : (s.setGran a g).taking = s.taking := rfl
@[simp] theorem State.setGran_heldMsgs (s : State) (a : Nat) (g : Gran) : (s.setGran a g).heldMsgs = s.heldMsgs := rfl
@[simp] theorem State.setGran_mboxSeq (s : State) (a : Nat) (g : Gran) : (s.setGran a g).mboxSeq = s.mboxSeq := rfl
@[simp] theorem State.setGran_timeNs (s : State) (a : Nat) (g : Gran) : (s.setGran a g).timeNs = s.timeNs := rfl
@[simp] theorem State.setGran_powerOns (s : State) (a : Nat) (g : Gran) : (s.setGran a g).powerOns = s.powerOns := rfl
@[simp] theorem State.setGran_sensors (s : State) (a : Nat) (g : Gran) : (s.setGran a g).sensors = s.sensors := rfl
@[simp] theorem State.setGran_outbox (s : State) (a : Nat) (g : Gran) : (s.setGran a g).outbox = s.outbox := rfl
@[simp] theorem State.setGran_freeCtr (s : State) (a : Nat) (g : Gran) : (s.setGran a g).freeCtr = s.freeCtr := rfl
@[simp] theorem State.setGran_ticks (s : State) (a : Nat) (g : Gran) : (s.setGran a g).ticks = s.ticks := rfl

/-! ### Fields after `bump` -/

@[simp] theorem State.bump_pending (s : State) (a n : Nat) : (s.bump a n).pending = s.pending := by unfold State.bump; split <;> rfl
@[simp] theorem State.bump_mem (s : State) (a n : Nat) : (s.bump a n).mem = s.mem := by unfold State.bump; split <;> rfl
@[simp] theorem State.bump_gran (s : State) (a n : Nat) : (s.bump a n).gran = s.gran := by unfold State.bump; split <;> rfl
@[simp] theorem State.bump_flash (s : State) (a n : Nat) : (s.bump a n).flash = s.flash := by unfold State.bump; split <;> rfl
@[simp] theorem State.bump_hidden (s : State) (a n : Nat) : (s.bump a n).hidden = s.hidden := by unfold State.bump; split <;> rfl
@[simp] theorem State.bump_sampled (s : State) (a n : Nat) : (s.bump a n).sampled = s.sampled := by unfold State.bump; split <;> rfl
@[simp] theorem State.bump_clusters (s : State) (a n : Nat) : (s.bump a n).clusters = s.clusters := by unfold State.bump; split <;> rfl
@[simp] theorem State.bump_regions (s : State) (a n : Nat) : (s.bump a n).regions = s.regions := by unfold State.bump; split <;> rfl
@[simp] theorem State.bump_ctxs (s : State) (a n : Nat) : (s.bump a n).ctxs = s.ctxs := by unfold State.bump; split <;> rfl
@[simp] theorem State.bump_bars (s : State) (a n : Nat) : (s.bump a n).bars = s.bars := by unfold State.bump; split <;> rfl
@[simp] theorem State.bump_rels (s : State) (a n : Nat) : (s.bump a n).rels = s.rels := by unfold State.bump; split <;> rfl
@[simp] theorem State.bump_boot (s : State) (a n : Nat) : (s.bump a n).boot = s.boot := by unfold State.bump; split <;> rfl
@[simp] theorem State.bump_active (s : State) (a n : Nat) : (s.bump a n).active = s.active := by unfold State.bump; split <;> rfl
@[simp] theorem State.bump_maq (s : State) (a n : Nat) : (s.bump a n).maq = s.maq := by unfold State.bump; split <;> rfl
@[simp] theorem State.bump_firm (s : State) (a n : Nat) : (s.bump a n).firm = s.firm := by unfold State.bump; split <;> rfl
@[simp] theorem State.bump_sent (s : State) (a n : Nat) : (s.bump a n).sent = s.sent := by unfold State.bump; split <;> rfl
@[simp] theorem State.bump_nextTag (s : State) (a n : Nat) : (s.bump a n).nextTag = s.nextTag := by unfold State.bump; split <;> rfl
@[simp] theorem State.bump_ingress (s : State) (a n : Nat) : (s.bump a n).ingress = s.ingress := by unfold State.bump; split <;> rfl
@[simp] theorem State.bump_heldPkts (s : State) (a n : Nat) : (s.bump a n).heldPkts = s.heldPkts := by unfold State.bump; split <;> rfl
@[simp] theorem State.bump_nextHeld (s : State) (a n : Nat) : (s.bump a n).nextHeld = s.nextHeld := by unfold State.bump; split <;> rfl
@[simp] theorem State.bump_heldMlm (s : State) (a n : Nat) : (s.bump a n).heldMlm = s.heldMlm := by unfold State.bump; split <;> rfl
@[simp] theorem State.bump_sessions (s : State) (a n : Nat) : (s.bump a n).sessions = s.sessions := by unfold State.bump; split <;> rfl
@[simp] theorem State.bump_kexs (s : State) (a n : Nat) : (s.bump a n).kexs = s.kexs := by unfold State.bump; split <;> rfl
@[simp] theorem State.bump_links (s : State) (a n : Nat) : (s.bump a n).links = s.links := by unfold State.bump; split <;> rfl
@[simp] theorem State.bump_routeDue (s : State) (a n : Nat) : (s.bump a n).routeDue = s.routeDue := by unfold State.bump; split <;> rfl
@[simp] theorem State.bump_health (s : State) (a n : Nat) : (s.bump a n).health = s.health := by unfold State.bump; split <;> rfl
@[simp] theorem State.bump_wdog (s : State) (a n : Nat) : (s.bump a n).wdog = s.wdog := by unfold State.bump; split <;> rfl
@[simp] theorem State.bump_spdm (s : State) (a n : Nat) : (s.bump a n).spdm = s.spdm := by unfold State.bump; split <;> rfl
@[simp] theorem State.bump_dbg (s : State) (a n : Nat) : (s.bump a n).dbg = s.dbg := by unfold State.bump; split <;> rfl
@[simp] theorem State.bump_i3c (s : State) (a n : Nat) : (s.bump a n).i3c = s.i3c := by unfold State.bump; split <;> rfl
@[simp] theorem State.bump_pins (s : State) (a n : Nat) : (s.bump a n).pins = s.pins := by unfold State.bump; split <;> rfl
@[simp] theorem State.bump_inv (s : State) (a n : Nat) : (s.bump a n).inv = s.inv := by unfold State.bump; split <;> rfl
@[simp] theorem State.bump_scrub (s : State) (a n : Nat) : (s.bump a n).scrub = s.scrub := by unfold State.bump; split <;> rfl
@[simp] theorem State.bump_dieReset (s : State) (a n : Nat) : (s.bump a n).dieReset = s.dieReset := by unfold State.bump; split <;> rfl
@[simp] theorem State.bump_rails (s : State) (a n : Nat) : (s.bump a n).rails = s.rails := by unfold State.bump; split <;> rfl
@[simp] theorem State.bump_admDown (s : State) (a n : Nat) : (s.bump a n).admDown = s.admDown := by unfold State.bump; split <;> rfl
@[simp] theorem State.bump_recal (s : State) (a n : Nat) : (s.bump a n).recal = s.recal := by unfold State.bump; split <;> rfl
@[simp] theorem State.bump_patrol (s : State) (a n : Nat) : (s.bump a n).patrol = s.patrol := by unfold State.bump; split <;> rfl
@[simp] theorem State.bump_scrubLine (s : State) (a n : Nat) : (s.bump a n).scrubLine = s.scrubLine := by unfold State.bump; split <;> rfl
@[simp] theorem State.bump_nextKey (s : State) (a n : Nat) : (s.bump a n).nextKey = s.nextKey := by unfold State.bump; split <;> rfl
@[simp] theorem State.bump_drbg (s : State) (a n : Nat) : (s.bump a n).drbg = s.drbg := by unfold State.bump; split <;> rfl
@[simp] theorem State.bump_identity (s : State) (a n : Nat) : (s.bump a n).identity = s.identity := by unfold State.bump; split <;> rfl
@[simp] theorem State.bump_inbox (s : State) (a n : Nat) : (s.bump a n).inbox = s.inbox := by unfold State.bump; split <;> rfl
@[simp] theorem State.bump_taking (s : State) (a n : Nat) : (s.bump a n).taking = s.taking := by unfold State.bump; split <;> rfl
@[simp] theorem State.bump_heldMsgs (s : State) (a n : Nat) : (s.bump a n).heldMsgs = s.heldMsgs := by unfold State.bump; split <;> rfl
@[simp] theorem State.bump_mboxSeq (s : State) (a n : Nat) : (s.bump a n).mboxSeq = s.mboxSeq := by unfold State.bump; split <;> rfl
@[simp] theorem State.bump_timeNs (s : State) (a n : Nat) : (s.bump a n).timeNs = s.timeNs := by unfold State.bump; split <;> rfl
@[simp] theorem State.bump_powerOns (s : State) (a n : Nat) : (s.bump a n).powerOns = s.powerOns := by unfold State.bump; split <;> rfl
@[simp] theorem State.bump_sensors (s : State) (a n : Nat) : (s.bump a n).sensors = s.sensors := by unfold State.bump; split <;> rfl
@[simp] theorem State.bump_outbox (s : State) (a n : Nat) : (s.bump a n).outbox = s.outbox := by unfold State.bump; split <;> rfl
@[simp] theorem State.bump_freeCtr (s : State) (a n : Nat) : (s.bump a n).freeCtr = s.freeCtr := by unfold State.bump; split <;> rfl
@[simp] theorem State.bump_ticks (s : State) (a n : Nat) : (s.bump a n).ticks = s.ticks := by unfold State.bump; split <;> rfl

/-! ### Fields after `bumpUnits` -/

@[simp] theorem State.bumpUnits_pending (s : State) (a n : Nat) : (s.bumpUnits a n).pending = s.pending := by unfold State.bumpUnits; split <;> rfl
@[simp] theorem State.bumpUnits_mem (s : State) (a n : Nat) : (s.bumpUnits a n).mem = s.mem := by unfold State.bumpUnits; split <;> rfl
@[simp] theorem State.bumpUnits_gran (s : State) (a n : Nat) : (s.bumpUnits a n).gran = s.gran := by unfold State.bumpUnits; split <;> rfl
@[simp] theorem State.bumpUnits_flash (s : State) (a n : Nat) : (s.bumpUnits a n).flash = s.flash := by unfold State.bumpUnits; split <;> rfl
@[simp] theorem State.bumpUnits_sampled (s : State) (a n : Nat) : (s.bumpUnits a n).sampled = s.sampled := by unfold State.bumpUnits; split <;> rfl
@[simp] theorem State.bumpUnits_clusters (s : State) (a n : Nat) : (s.bumpUnits a n).clusters = s.clusters := by unfold State.bumpUnits; split <;> rfl
@[simp] theorem State.bumpUnits_regions (s : State) (a n : Nat) : (s.bumpUnits a n).regions = s.regions := by unfold State.bumpUnits; split <;> rfl
@[simp] theorem State.bumpUnits_ctxs (s : State) (a n : Nat) : (s.bumpUnits a n).ctxs = s.ctxs := by unfold State.bumpUnits; split <;> rfl
@[simp] theorem State.bumpUnits_bars (s : State) (a n : Nat) : (s.bumpUnits a n).bars = s.bars := by unfold State.bumpUnits; split <;> rfl
@[simp] theorem State.bumpUnits_rels (s : State) (a n : Nat) : (s.bumpUnits a n).rels = s.rels := by unfold State.bumpUnits; split <;> rfl
@[simp] theorem State.bumpUnits_boot (s : State) (a n : Nat) : (s.bumpUnits a n).boot = s.boot := by unfold State.bumpUnits; split <;> rfl
@[simp] theorem State.bumpUnits_active (s : State) (a n : Nat) : (s.bumpUnits a n).active = s.active := by unfold State.bumpUnits; split <;> rfl
@[simp] theorem State.bumpUnits_maq (s : State) (a n : Nat) : (s.bumpUnits a n).maq = s.maq := by unfold State.bumpUnits; split <;> rfl
@[simp] theorem State.bumpUnits_firm (s : State) (a n : Nat) : (s.bumpUnits a n).firm = s.firm := by unfold State.bumpUnits; split <;> rfl
@[simp] theorem State.bumpUnits_sent (s : State) (a n : Nat) : (s.bumpUnits a n).sent = s.sent := by unfold State.bumpUnits; split <;> rfl
@[simp] theorem State.bumpUnits_nextTag (s : State) (a n : Nat) : (s.bumpUnits a n).nextTag = s.nextTag := by unfold State.bumpUnits; split <;> rfl
@[simp] theorem State.bumpUnits_ingress (s : State) (a n : Nat) : (s.bumpUnits a n).ingress = s.ingress := by unfold State.bumpUnits; split <;> rfl
@[simp] theorem State.bumpUnits_heldPkts (s : State) (a n : Nat) : (s.bumpUnits a n).heldPkts = s.heldPkts := by unfold State.bumpUnits; split <;> rfl
@[simp] theorem State.bumpUnits_nextHeld (s : State) (a n : Nat) : (s.bumpUnits a n).nextHeld = s.nextHeld := by unfold State.bumpUnits; split <;> rfl
@[simp] theorem State.bumpUnits_heldMlm (s : State) (a n : Nat) : (s.bumpUnits a n).heldMlm = s.heldMlm := by unfold State.bumpUnits; split <;> rfl
@[simp] theorem State.bumpUnits_sessions (s : State) (a n : Nat) : (s.bumpUnits a n).sessions = s.sessions := by unfold State.bumpUnits; split <;> rfl
@[simp] theorem State.bumpUnits_kexs (s : State) (a n : Nat) : (s.bumpUnits a n).kexs = s.kexs := by unfold State.bumpUnits; split <;> rfl
@[simp] theorem State.bumpUnits_links (s : State) (a n : Nat) : (s.bumpUnits a n).links = s.links := by unfold State.bumpUnits; split <;> rfl
@[simp] theorem State.bumpUnits_routeDue (s : State) (a n : Nat) : (s.bumpUnits a n).routeDue = s.routeDue := by unfold State.bumpUnits; split <;> rfl
@[simp] theorem State.bumpUnits_health (s : State) (a n : Nat) : (s.bumpUnits a n).health = s.health := by unfold State.bumpUnits; split <;> rfl
@[simp] theorem State.bumpUnits_wdog (s : State) (a n : Nat) : (s.bumpUnits a n).wdog = s.wdog := by unfold State.bumpUnits; split <;> rfl
@[simp] theorem State.bumpUnits_spdm (s : State) (a n : Nat) : (s.bumpUnits a n).spdm = s.spdm := by unfold State.bumpUnits; split <;> rfl
@[simp] theorem State.bumpUnits_dbg (s : State) (a n : Nat) : (s.bumpUnits a n).dbg = s.dbg := by unfold State.bumpUnits; split <;> rfl
@[simp] theorem State.bumpUnits_i3c (s : State) (a n : Nat) : (s.bumpUnits a n).i3c = s.i3c := by unfold State.bumpUnits; split <;> rfl
@[simp] theorem State.bumpUnits_pins (s : State) (a n : Nat) : (s.bumpUnits a n).pins = s.pins := by unfold State.bumpUnits; split <;> rfl
@[simp] theorem State.bumpUnits_inv (s : State) (a n : Nat) : (s.bumpUnits a n).inv = s.inv := by unfold State.bumpUnits; split <;> rfl
@[simp] theorem State.bumpUnits_scrub (s : State) (a n : Nat) : (s.bumpUnits a n).scrub = s.scrub := by unfold State.bumpUnits; split <;> rfl
@[simp] theorem State.bumpUnits_dieReset (s : State) (a n : Nat) : (s.bumpUnits a n).dieReset = s.dieReset := by unfold State.bumpUnits; split <;> rfl
@[simp] theorem State.bumpUnits_rails (s : State) (a n : Nat) : (s.bumpUnits a n).rails = s.rails := by unfold State.bumpUnits; split <;> rfl
@[simp] theorem State.bumpUnits_admDown (s : State) (a n : Nat) : (s.bumpUnits a n).admDown = s.admDown := by unfold State.bumpUnits; split <;> rfl
@[simp] theorem State.bumpUnits_recal (s : State) (a n : Nat) : (s.bumpUnits a n).recal = s.recal := by unfold State.bumpUnits; split <;> rfl
@[simp] theorem State.bumpUnits_patrol (s : State) (a n : Nat) : (s.bumpUnits a n).patrol = s.patrol := by unfold State.bumpUnits; split <;> rfl
@[simp] theorem State.bumpUnits_scrubLine (s : State) (a n : Nat) : (s.bumpUnits a n).scrubLine = s.scrubLine := by unfold State.bumpUnits; split <;> rfl
@[simp] theorem State.bumpUnits_nextKey (s : State) (a n : Nat) : (s.bumpUnits a n).nextKey = s.nextKey := by unfold State.bumpUnits; split <;> rfl
@[simp] theorem State.bumpUnits_drbg (s : State) (a n : Nat) : (s.bumpUnits a n).drbg = s.drbg := by unfold State.bumpUnits; split <;> rfl
@[simp] theorem State.bumpUnits_identity (s : State) (a n : Nat) : (s.bumpUnits a n).identity = s.identity := by unfold State.bumpUnits; split <;> rfl
@[simp] theorem State.bumpUnits_inbox (s : State) (a n : Nat) : (s.bumpUnits a n).inbox = s.inbox := by unfold State.bumpUnits; split <;> rfl
@[simp] theorem State.bumpUnits_taking (s : State) (a n : Nat) : (s.bumpUnits a n).taking = s.taking := by unfold State.bumpUnits; split <;> rfl
@[simp] theorem State.bumpUnits_heldMsgs (s : State) (a n : Nat) : (s.bumpUnits a n).heldMsgs = s.heldMsgs := by unfold State.bumpUnits; split <;> rfl
@[simp] theorem State.bumpUnits_mboxSeq (s : State) (a n : Nat) : (s.bumpUnits a n).mboxSeq = s.mboxSeq := by unfold State.bumpUnits; split <;> rfl
@[simp] theorem State.bumpUnits_timeNs (s : State) (a n : Nat) : (s.bumpUnits a n).timeNs = s.timeNs := by unfold State.bumpUnits; split <;> rfl
@[simp] theorem State.bumpUnits_powerOns (s : State) (a n : Nat) : (s.bumpUnits a n).powerOns = s.powerOns := by unfold State.bumpUnits; split <;> rfl
@[simp] theorem State.bumpUnits_sensors (s : State) (a n : Nat) : (s.bumpUnits a n).sensors = s.sensors := by unfold State.bumpUnits; split <;> rfl
@[simp] theorem State.bumpUnits_outbox (s : State) (a n : Nat) : (s.bumpUnits a n).outbox = s.outbox := by unfold State.bumpUnits; split <;> rfl
@[simp] theorem State.bumpUnits_freeCtr (s : State) (a n : Nat) : (s.bumpUnits a n).freeCtr = s.freeCtr := by unfold State.bumpUnits; split <;> rfl
@[simp] theorem State.bumpUnits_ticks (s : State) (a n : Nat) : (s.bumpUnits a n).ticks = s.ticks := by unfold State.bumpUnits; split <;> rfl

/-! ### Derived updates as the ones above -/

@[simp] theorem State.modCl_eq (s : State) (r k : Nat) (f : Cluster → Cluster) : s.modCl r k f = s.setCl r k (f (s.cl r k)) := rfl
@[simp] theorem State.modRg_eq (s : State) (r : Nat) (f : Region → Region) : s.modRg r f = s.setRg r (f (s.rg r)) := rfl
@[simp] theorem State.modCx_eq (s : State) (c : Nat) (f : Ctx → Ctx) : s.modCx c f = s.setCx c (f (s.cx c)) := rfl
@[simp] theorem State.setQ_eq (s : State) (r k q : Nat) (x : Queue) : s.setQ r k q x = s.setCl r k ((s.cl r k).setQ q x) := rfl
@[simp] theorem State.setFld_eq (s : State) (a lo len v : Nat) : s.setFld a lo len v = s.setReg a (setField (s.reg a) lo len v) := rfl
@[simp] theorem State.setB_eq (s : State) (a i : Nat) (b : Bool) : s.setB a i b = s.setReg a (setBit (s.reg a) i b) := rfl
@[simp] theorem State.orReg_eq (s : State) (a v : Nat) : s.orReg a v = s.setReg a (s.reg a ||| BitVec.ofNat 64 v) := rfl

/-! ### Registers -/

theorem State.reg_setReg (s : State) (a b : Nat) (w : Reg64) : (s.setReg a w).reg b = if b = a then w else s.reg b :=
  Sparse.get_set 0 s.regs a b w
@[simp] theorem State.reg_setReg_same (s : State) (a : Nat) (w : Reg64) : (s.setReg a w).reg a = w := Sparse.get_set_same 0 s.regs a w
theorem State.reg_setReg_ne (s : State) {a b : Nat} (w : Reg64) (h : b ≠ a) : (s.setReg a w).reg b = s.reg b :=
  Sparse.get_set_ne 0 s.regs a b w h

/-- R513: what a counter reads after `n` more events. -/
theorem State.reg_bump (s : State) (a b n : Nat) :
    (s.bump a n).reg b = if b = a ∧ n ≠ 0 then BitVec.ofNat 64 (satAdd 48 (s.regN a) n) else s.reg b := by
  unfold State.bump
  by_cases h : n = 0
  · simp [h]
  · rw [if_neg h]
    show (s.setReg a _).reg b = _
    simp [h, State.reg_setReg]

theorem State.reg_bump_ne (s : State) {a b : Nat} (n : Nat) (h : b ≠ a) : (s.bump a n).reg b = s.reg b := by
  rw [State.reg_bump, if_neg (by simp [h])]

theorem State.reg_bumpUnits_ne (s : State) {a b : Nat} (n : Nat) (h : b ≠ a) : (s.bumpUnits a n).reg b = s.reg b := by
  unfold State.bumpUnits
  split
  · rfl
  · exact Sparse.get_set_ne 0 s.regs a b _ h

/-! ### Units -/

theorem State.cl_setCl (s : State) (r k r' k' : Nat) (c : Cluster) :
    (s.setCl r k c).cl r' k' = if 9 * r' + k' = 9 * r + k then c else s.cl r' k' := Sparse.get_set _ _ _ _ _
@[simp] theorem State.cl_setCl_same (s : State) (r k : Nat) (c : Cluster) : (s.setCl r k c).cl r k = c := Sparse.get_set_same _ _ _ _
theorem State.cl_setCl_ne (s : State) {r k r' k' : Nat} (c : Cluster) (h : 9 * r' + k' ≠ 9 * r + k) :
    (s.setCl r k c).cl r' k' = s.cl r' k' := Sparse.get_set_ne _ _ _ _ _ h
theorem State.rg_setRg (s : State) (r r' : Nat) (g : Region) : (s.setRg r g).rg r' = if r' = r then g else s.rg r' :=
  Sparse.get_set _ _ _ _ _
@[simp] theorem State.rg_setRg_same (s : State) (r : Nat) (g : Region) : (s.setRg r g).rg r = g := Sparse.get_set_same _ _ _ _
theorem State.rg_setRg_ne (s : State) {r r' : Nat} (g : Region) (h : r' ≠ r) : (s.setRg r g).rg r' = s.rg r' :=
  Sparse.get_set_ne _ _ _ _ _ h
theorem State.cx_setCx (s : State) (c c' : Nat) (x : Ctx) : (s.setCx c x).cx c' = if c' = c then x else s.cx c' :=
  Sparse.get_set _ _ _ _ _
@[simp] theorem State.cx_setCx_same (s : State) (c : Nat) (x : Ctx) : (s.setCx c x).cx c = x := Sparse.get_set_same _ _ _ _
theorem State.cx_setCx_ne (s : State) {c c' : Nat} (x : Ctx) (h : c' ≠ c) : (s.setCx c x).cx c' = s.cx c' :=
  Sparse.get_set_ne _ _ _ _ _ h

/-! ### Readers past updates of other fields -/

@[simp] theorem State.cl_setReg (s : State) (a : Nat) (w : Reg64) (r' k' : Nat) : (s.setReg a w).cl r' k' = s.cl r' k' := rfl
@[simp] theorem State.rg_setReg (s : State) (a : Nat) (w : Reg64) (r' : Nat) : (s.setReg a w).rg r' = s.rg r' := rfl
@[simp] theorem State.cx_setReg (s : State) (a : Nat) (w : Reg64) (c' : Nat) : (s.setReg a w).cx c' = s.cx c' := rfl
@[simp] theorem State.reg_setCl (s : State) (r k : Nat) (c : Cluster) (b : Nat) : (s.setCl r k c).reg b = s.reg b := rfl
@[simp] theorem State.rg_setCl (s : State) (r k : Nat) (c : Cluster) (r' : Nat) : (s.setCl r k c).rg r' = s.rg r' := rfl
@[simp] theorem State.cx_setCl (s : State) (r k : Nat) (c : Cluster) (c' : Nat) : (s.setCl r k c).cx c' = s.cx c' := rfl
@[simp] theorem State.reg_setRg (s : State) (r : Nat) (g : Region) (b : Nat) : (s.setRg r g).reg b = s.reg b := rfl
@[simp] theorem State.cl_setRg (s : State) (r : Nat) (g : Region) (r' k' : Nat) : (s.setRg r g).cl r' k' = s.cl r' k' := rfl
@[simp] theorem State.cx_setRg (s : State) (r : Nat) (g : Region) (c' : Nat) : (s.setRg r g).cx c' = s.cx c' := rfl
@[simp] theorem State.reg_setCx (s : State) (c : Nat) (x : Ctx) (b : Nat) : (s.setCx c x).reg b = s.reg b := rfl
@[simp] theorem State.cl_setCx (s : State) (c : Nat) (x : Ctx) (r' k' : Nat) : (s.setCx c x).cl r' k' = s.cl r' k' := rfl
@[simp] theorem State.rg_setCx (s : State) (c : Nat) (x : Ctx) (r' : Nat) : (s.setCx c x).rg r' = s.rg r' := rfl
@[simp] theorem State.reg_send (s : State) (m : OutMsg) (b : Nat) : (s.send m).reg b = s.reg b := rfl
@[simp] theorem State.cl_send (s : State) (m : OutMsg) (r' k' : Nat) : (s.send m).cl r' k' = s.cl r' k' := rfl
@[simp] theorem State.rg_send (s : State) (m : OutMsg) (r' : Nat) : (s.send m).rg r' = s.rg r' := rfl
@[simp] theorem State.cx_send (s : State) (m : OutMsg) (c' : Nat) : (s.send m).cx c' = s.cx c' := rfl
@[simp] theorem State.reg_setGran (s : State) (a : Nat) (g : Gran) (b : Nat) : (s.setGran a g).reg b = s.reg b := rfl
@[simp] theorem State.cl_setGran (s : State) (a : Nat) (g : Gran) (r' k' : Nat) : (s.setGran a g).cl r' k' = s.cl r' k' := rfl
@[simp] theorem State.rg_setGran (s : State) (a : Nat) (g : Gran) (r' : Nat) : (s.setGran a g).rg r' = s.rg r' := rfl
@[simp] theorem State.cx_setGran (s : State) (a : Nat) (g : Gran) (c' : Nat) : (s.setGran a g).cx c' = s.cx c' := rfl
@[simp] theorem State.cl_bump (s : State) (a n : Nat) (r' k' : Nat) : (s.bump a n).cl r' k' = s.cl r' k' := by unfold State.bump; split <;> rfl
@[simp] theorem State.rg_bump (s : State) (a n : Nat) (r' : Nat) : (s.bump a n).rg r' = s.rg r' := by unfold State.bump; split <;> rfl
@[simp] theorem State.cx_bump (s : State) (a n : Nat) (c' : Nat) : (s.bump a n).cx c' = s.cx c' := by unfold State.bump; split <;> rfl
@[simp] theorem State.cl_bumpUnits (s : State) (a n : Nat) (r' k' : Nat) : (s.bumpUnits a n).cl r' k' = s.cl r' k' := by unfold State.bumpUnits; split <;> rfl
@[simp] theorem State.rg_bumpUnits (s : State) (a n : Nat) (r' : Nat) : (s.bumpUnits a n).rg r' = s.rg r' := by unfold State.bumpUnits; split <;> rfl
@[simp] theorem State.cx_bumpUnits (s : State) (a n : Nat) (c' : Nat) : (s.bumpUnits a n).cx c' = s.cx c' := by unfold State.bumpUnits; split <;> rfl

/-! ### Fields of registers and lists -/

theorem nth_setNth {α : Type} (d v : α) (l : List α) (i j : Nat) (h : i < l.length) :
    nth d (setNth v l i) j = if j = i then v else nth d l j := by
  induction l generalizing i j with
  | nil => simp at h
  | cons x xs ih =>
    cases i with
    | zero => cases j <;> simp [setNth, nth]
    | succ i =>
      cases j with
      | zero => simp [setNth, nth]
      | succ j => simp only [setNth, nth, ih i j (by simpa using h)]; simp

theorem length_setNth {α : Type} (v : α) (l : List α) (i : Nat) : (setNth v l i).length = l.length := by
  induction l generalizing i with
  | nil => rfl
  | cons x xs ih => cases i <;> simp [setNth, ih]

/-- A queue reads as it was set. -/
theorem Cluster.queue_setQ (c : Cluster) (q q' : Nat) (x : Queue) (h : q' < 4) :
    (c.setQ q x).queue q' = if q' = q then x else c.queue q' := by
  have : q' = 0 ∨ q' = 1 ∨ q' = 2 ∨ q' = 3 := by omega
  rcases this with rfl | rfl | rfl | rfl <;> rfl

@[simp] theorem Cluster.queue_setQ_same (c : Cluster) (q : Nat) (x : Queue) (h : q < 4) : (c.setQ q x).queue q = x := by
  rw [Cluster.queue_setQ c q q x h, if_pos rfl]

/-- Every bit of a register after a field of it is written. -/
theorem setField_testBit (w : BitVec 64) (lo len v j : Nat) :
    (setField w lo len v).toNat.testBit j
      = if j < 64 ∧ lo ≤ j ∧ j < lo + len then v.testBit (j - lo) else w.toNat.testBit j := by
  rw [BitVec.testBit_toNat, BitVec.testBit_toNat]
  unfold setField
  simp only [BitVec.getLsbD_or, BitVec.getLsbD_and, BitVec.getLsbD_not, BitVec.getLsbD_ofNat, Nat.testBit_shiftLeft,
    Nat.testBit_two_pow_sub_one, Nat.testBit_mod_two_pow]
  by_cases h1 : j < 64
  · by_cases h2 : lo ≤ j
    · by_cases h3 : j < lo + len
      · simp [h1, h2, h3, show j - lo < len by omega]
      · simp [h1, h2, h3, show ¬ j - lo < len by omega]
    · simp [h1, h2]
  · have := BitVec.getLsbD_of_ge w j (by omega)
    simp [h1, this]

/-- A field reads as it was written. -/
theorem regField_setField (w : BitVec 64) (lo len v : Nat) (h : lo + len ≤ 64) : regField (setField w lo len v) lo len = v % 2 ^ len := by
  apply Nat.eq_of_testBit_eq
  intro j
  unfold regField field
  rw [Nat.testBit_mod_two_pow, Nat.testBit_mod_two_pow, Nat.testBit_shiftRight, setField_testBit]
  by_cases hj : j < len
  · rw [if_pos (by omega)]; simp [hj]
  · simp [hj]

/-- A field beside the one written keeps its value. -/
theorem regField_setField_ne (w : BitVec 64) (lo len v lo' len' : Nat) (h : lo' + len' ≤ lo ∨ lo + len ≤ lo') :
    regField (setField w lo len v) lo' len' = regField w lo' len' := by
  apply Nat.eq_of_testBit_eq
  intro j
  unfold regField field
  rw [Nat.testBit_mod_two_pow, Nat.testBit_mod_two_pow, Nat.testBit_shiftRight, Nat.testBit_shiftRight, setField_testBit]
  by_cases hj : j < len'
  · rw [if_neg (by omega)]
  · simp [hj]

/-- One bit of a register after it is set or cleared. -/
theorem setBit_testBit (w : BitVec 64) (i : Nat) (b : Bool) (h : i < 64) : (setBit w i b).toNat.testBit i = b := by
  unfold setBit
  rw [setField_testBit, if_pos (by omega)]
  cases b <;> simp

/-- Another bit of it. -/
theorem setBit_testBit_ne (w : BitVec 64) (i j : Nat) (b : Bool) (h : j ≠ i) : (setBit w i b).toNat.testBit j = w.toNat.testBit j := by
  unfold setBit
  rw [setField_testBit, if_neg (by omega)]

end Sys2Proof.Machine
end

