-- ==== Sys2Proof/Laws/Csr.lean ====
section
/-!
SUPPORT. Sys2Proof/Laws/Csr.lean: what lies at the registers that command rows write, and that a write that reaches a register has
exactly its effect.
-/
namespace Sys2Proof.Machine

theorem regAt_doorbell : ∀ r, r < 48 → ∀ k, k < 9 →
    regAt (A.doorbell r k) = some ⟨0, 0, 0, true, .status, .seq, .cluster r k⟩ := by decide +kernel

theorem regAt_ldoorbell : ∀ r, r < 48 → regAt (A.ldoorbell r) = some ⟨0, 0, 0, true, .status, .seq, .region r⟩ := by decide +kernel

theorem regAt_poke : ∀ r, r < 48 → regAt (A.poke r) = some ⟨0, 0, 0, true, .status, .poke, .region r⟩ := by decide +kernel

theorem regAt_aligned {a : Nat} {d : RegDef} (h : regAt a = some d) : a % 8 = 0 := by
  by_cases h8 : a % 8 = 0
  · exact h8
  · unfold regAt at h; simp [h8] at h

/-- A write that reaches a powered register has the register's effect and no other (R425, R426, R512). -/
theorem State.csrWrite_reaches {s : State} {p : Party} {a w : Nat} {d : RegDef} (x : WriteEnv)
    (ho : s.csrOpen p a true = true) (hv : inView p a = true) (hs : isSfuWindow a = false) (hd : regAt a = some d)
    (hg : s.inGated d = false) (hm : s.mayWrite p a d w = true) : s.csrWrite p a w x = s.writeEffect p a d w x := by
  unfold State.csrWrite
  simp only [ho, hv, hs, hd, hg, hm, regAt_aligned hd]
  simp only [Bool.not_true, Bool.false_eq_true, if_false, Bool.or_false, ne_eq, not_true_eq_false, decide_false, if_true]
  cases d.home <;> rfl

end Sys2Proof.Machine
end

