-- ==== Sys2Proof/Laws/PerInstr.lean ====
section
/-!
SUPPORT. Sys2Proof/Laws/PerInstr.lean: statements made of every command's syntax, constructor by constructor.
-/
namespace Sys2Proof.Laws.Units
open Sys2Proof.Machine

/-- A well-formed row of a command stream names a region, a cluster and a queue that the module has (R19, R89). -/
def Statement (i : Instr) : Prop :=
  Instr.wf i = true → ∀ r k q sel, streamRow i = some (r, k, q, sel) → r < 48 ∧ k < 9 ∧ q < 4

theorem zero_lt : 0 < 4 := Nat.zero_lt_succ 3

theorem three_lt : 3 < 4 := Nat.lt_succ_self 3

theorem ofRow {i : Instr} {r k q : Nat} {sel : Cmd512 → Bool} (e : streamRow i = some (r, k, q, sel))
    (b : Instr.wf i = true → r < 48 ∧ k < 9 ∧ q < 4) : Statement i := by
  intro h r' k' q' sel' e'
  rw [e] at e'; cases e'; exact b h

theorem bounds {r k q : Nat} (h : (decide (r < 48) && decide (k < 9) && decide (q < 4)) = true) : r < 48 ∧ k < 9 ∧ q < 4 := by
  simp at h; omega

theorem bounds_unit {r k : Nat} (q : Nat) (hq : q < 4) (h : (decide (r < 48) && decide (k < 9)) = true) : r < 48 ∧ k < 9 ∧ q < 4 := by
  simp at h; omega

theorem bounds_engine {r k v : Nat} (h : (decide (r < 48) && decide (k < 9) && decide (v < 2)) = true) : r < 48 ∧ k < 9 ∧ 1 + v < 4 := by
  simp at h; omega

theorem nop (r k q : Nat) : Statement (.nop r k q) := ofRow rfl bounds
theorem endq (r k q : Nat) : Statement (.endq r k q) := ofRow rfl bounds
theorem wait (r k q : Nat) : Statement (.wait r k q) := ofRow rfl bounds
theorem signal (r k q : Nat) : Statement (.signal r k q) := ofRow rfl bounds
theorem barrier (r k q : Nat) : Statement (.barrier r k q) := ofRow rfl bounds
theorem stepPoint (r k q : Nat) : Statement (.stepPoint r k q) := ofRow rfl bounds
theorem evalPoint (r k q : Nat) : Statement (.evalPoint r k q) := ofRow rfl bounds
theorem evalEnd (r k q : Nat) : Statement (.evalEnd r k q) := ofRow rfl bounds
theorem mma (r k : Nat) : Statement (.mma r k) := ofRow rfl (bounds_unit 0 zero_lt)
theorem distL1 (r k : Nat) : Statement (.distL1 r k) := ofRow rfl (bounds_unit 0 zero_lt)
theorem distL2 (r k : Nat) : Statement (.distL2 r k) := ofRow rfl (bounds_unit 0 zero_lt)
theorem minplus (r k : Nat) : Statement (.minplus r k) := ofRow rfl (bounds_unit 0 zero_lt)
theorem maxplus (r k : Nat) : Statement (.maxplus r k) := ofRow rfl (bounds_unit 0 zero_lt)
theorem cmpcount (r k : Nat) : Statement (.cmpcount r k) := ofRow rfl (bounds_unit 0 zero_lt)
theorem vmap (r k v : Nat) : Statement (.vmap r k v) := ofRow rfl bounds_engine
theorem vcvt (r k v : Nat) : Statement (.vcvt r k v) := ofRow rfl bounds_engine
theorem vscan (r k v : Nat) : Statement (.vscan r k v) := ofRow rfl bounds_engine
theorem vstat (r k v : Nat) : Statement (.vstat r k v) := ofRow rfl bounds_engine
theorem vcarryStore (r k v : Nat) : Statement (.vcarryStore r k v) := ofRow rfl bounds_engine
theorem vcarryLoad (r k v : Nat) : Statement (.vcarryLoad r k v) := ofRow rfl bounds_engine
theorem rmsnorm (r k v : Nat) : Statement (.rmsnorm r k v) := ofRow rfl bounds_engine
theorem vsfu (r k v : Nat) : Statement (.vsfu r k v) := ofRow rfl bounds_engine
theorem vchisel (r k v : Nat) : Statement (.vchisel r k v) := ofRow rfl bounds_engine
theorem vredLeaf (r k v : Nat) : Statement (.vredLeaf r k v) := ofRow rfl bounds_engine
theorem vredNode (r k v : Nat) : Statement (.vredNode r k v) := ofRow rfl bounds_engine
theorem vredFinal (r k v : Nat) : Statement (.vredFinal r k v) := ofRow rfl bounds_engine
theorem vredFold (r k v : Nat) : Statement (.vredFold r k v) := ofRow rfl bounds_engine
theorem vgrainSetid (r k v : Nat) : Statement (.vgrainSetid r k v) := ofRow rfl bounds_engine
theorem vgrainRaw (r k v : Nat) : Statement (.vgrainRaw r k v) := ofRow rfl bounds_engine
theorem vgrainUniform (r k v : Nat) : Statement (.vgrainUniform r k v) := ofRow rfl bounds_engine
theorem vgrainBernoulli (r k v : Nat) : Statement (.vgrainBernoulli r k v) := ofRow rfl bounds_engine
theorem vgrainNormal (r k v : Nat) : Statement (.vgrainNormal r k v) := ofRow rfl bounds_engine
theorem mvcopy (r k : Nat) : Statement (.mvcopy r k) := ofRow rfl (bounds_unit 3 three_lt)
theorem mvset (r k : Nat) : Statement (.mvset r k) := ofRow rfl (bounds_unit 3 three_lt)
theorem mvatom (r k : Nat) : Statement (.mvatom r k) := ofRow rfl (bounds_unit 3 three_lt)
theorem mvcollUp (r k : Nat) (e : Env) : Statement (.mvcollUp r k e) := ofRow rfl (bounds_unit 3 three_lt)
theorem mvcollRecv (r k : Nat) (e : Env) : Statement (.mvcollRecv r k e) := ofRow rfl (bounds_unit 3 three_lt)
theorem mvcollDown (r k : Nat) (e : Env) : Statement (.mvcollDown r k e) := ofRow rfl (bounds_unit 3 three_lt)
theorem mvcollRdown (r k : Nat) (e : Env) : Statement (.mvcollRdown r k e) := ofRow rfl (bounds_unit 3 three_lt)
theorem ttin (r k : Nat) : Statement (.ttin r k) := ofRow rfl (bounds_unit 3 three_lt)
theorem ttout (r k : Nat) : Statement (.ttout r k) := ofRow rfl (bounds_unit 3 three_lt)
theorem descLoad (r k : Nat) : Statement (.descLoad r k) := ofRow rfl (bounds_unit 3 three_lt)
theorem seqDoorbell (p : Party) (r k qmask : Nat) : Statement (.seqDoorbell p r k qmask) := fun _ _ _ _ _ h => nomatch h
theorem seqLdoorbell (p : Party) (r lcluster qmask : Nat) : Statement (.seqLdoorbell p r lcluster qmask) := fun _ _ _ _ _ h => nomatch h
theorem startBeat (r k : Nat) : Statement (.startBeat r k) := fun _ _ _ _ _ h => nomatch h
theorem queueFetchRequest (r k q : Nat) : Statement (.queueFetchRequest r k q) := fun _ _ _ _ _ h => nomatch h
theorem queueFetchComplete (r id : Nat) (e : Env) : Statement (.queueFetchComplete r id e) := fun _ _ _ _ _ h => nomatch h
theorem clusterBeat (r k : Nat) (e : Env) : Statement (.clusterBeat r k e) := fun _ _ _ _ _ h => nomatch h
theorem stretchYield (r k : Nat) : Statement (.stretchYield r k) := fun _ _ _ _ _ h => nomatch h
theorem holdBeat (r k : Nat) : Statement (.holdBeat r k) := fun _ _ _ _ _ h => nomatch h
theorem timedDonePoint (r k id : Nat) : Statement (.timedDonePoint r k id) := fun _ _ _ _ _ h => nomatch h
theorem descLoadDone (r id : Nat) (e : Env) : Statement (.descLoadDone r id e) := fun _ _ _ _ _ h => nomatch h
theorem moverCommandStart (r k m : Nat) (e : Env) : Statement (.moverCommandStart r k m e) := fun _ _ _ _ _ h => nomatch h
theorem translationWalk (r id beats : Nat) (e : Env) : Statement (.translationWalk r id beats e) := fun _ _ _ _ _ h => nomatch h
theorem admissionAccept (r id : Nat) (e : Env) : Statement (.admissionAccept r id e) := fun _ _ _ _ _ h => nomatch h
theorem moverRequestComplete (r id : Nat) (e : Env) : Statement (.moverRequestComplete r id e) := fun _ _ _ _ _ h => nomatch h
theorem cxlRequestTimeout (r id : Nat) (e : Env) : Statement (.cxlRequestTimeout r id e) := fun _ _ _ _ _ h => nomatch h
theorem mlmWindowTimeout (r id : Nat) (e : Env) : Statement (.mlmWindowTimeout r id e) := fun _ _ _ _ _ h => nomatch h
theorem remoteRequestTimeout (r id : Nat) (e : Env) : Statement (.remoteRequestTimeout r id e) := fun _ _ _ _ _ h => nomatch h
theorem evalSwitch (r k : Nat) : Statement (.evalSwitch r k) := fun _ _ _ _ _ h => nomatch h
theorem switchBeat (r k : Nat) : Statement (.switchBeat r k) := fun _ _ _ _ _ h => nomatch h
theorem stepReturnNoSwitch (r k : Nat) : Statement (.stepReturnNoSwitch r k) := fun _ _ _ _ _ h => nomatch h
theorem evalReturn (r k : Nat) : Statement (.evalReturn r k) := fun _ _ _ _ _ h => nomatch h
theorem returnBeat (r k : Nat) : Statement (.returnBeat r k) := fun _ _ _ _ _ h => nomatch h
theorem incrementVisible (r k n : Nat) : Statement (.incrementVisible r k n) := fun _ _ _ _ _ h => nomatch h
theorem syncPoke (p : Party) (r index inc : Nat) : Statement (.syncPoke p r index inc) := fun _ _ _ _ _ h => nomatch h
theorem barrierNodeArrival (n : Nat) : Statement (.barrierNodeArrival n) := fun _ _ _ _ _ h => nomatch h
theorem barrierRelease (n : Nat) : Statement (.barrierRelease n) := fun _ _ _ _ _ h => nomatch h
theorem swapBeat : Statement .swapBeat := fun _ _ _ _ _ h => nomatch h
theorem governorInterval (x : Readings) : Statement (.governorInterval x) := fun _ _ _ _ _ h => nomatch h
theorem paceMeasurement (r k pace : Nat) : Statement (.paceMeasurement r k pace) := fun _ _ _ _ _ h => nomatch h
theorem patinaMonitor (r k patina : Nat) : Statement (.patinaMonitor r k patina) := fun _ _ _ _ _ h => nomatch h
theorem healthMonitorTick (e : Env) : Statement (.healthMonitorTick e) := fun _ _ _ _ _ h => nomatch h
theorem telemetryUpdate (x : Readings) : Statement (.telemetryUpdate x) := fun _ _ _ _ _ h => nomatch h
theorem heartbeat : Statement .heartbeat := fun _ _ _ _ _ h => nomatch h
theorem sramScrubRead (r k bank : Nat) (e : Env) : Statement (.sramScrubRead r k bank e) := fun _ _ _ _ _ h => nomatch h
theorem patrolScrub (stack : Nat) (e : Env) : Statement (.patrolScrub stack e) := fun _ _ _ _ _ h => nomatch h
theorem hbmRecalibration (e : Env) : Statement (.hbmRecalibration e) := fun _ _ _ _ _ h => nomatch h
theorem analogueCheck (temps vin vref : Nat) : Statement (.analogueCheck temps vin vref) := fun _ _ _ _ _ h => nomatch h
theorem drbgReseed (healthy : Bool) : Statement (.drbgReseed healthy) := fun _ _ _ _ _ h => nomatch h
theorem porstAssert : Statement .porstAssert := fun _ _ _ _ _ h => nomatch h
theorem porstRelease (railsGood : Bool) (hottest : Int) (e : BootEnv) : Statement (.porstRelease railsGood hottest e) := fun _ _ _ _ _ h => nomatch h
theorem bootReady (e : BootEnv) : Statement (.bootReady e) := fun _ _ _ _ _ h => nomatch h
theorem vinUndervoltage (mv us : Nat) : Statement (.vinUndervoltage mv us) := fun _ _ _ _ _ h => nomatch h
theorem vinOvervoltage (mv us : Nat) : Statement (.vinOvervoltage mv us) := fun _ _ _ _ _ h => nomatch h
theorem thermalTrip (junction hbm : Int) (us : Nat) : Statement (.thermalTrip junction hbm us) := fun _ _ _ _ _ h => nomatch h
theorem recovEdge (us : Nat) : Statement (.recovEdge us) := fun _ _ _ _ _ h => nomatch h
theorem hltRecover (p : Party) (key : Nat) (go : Bool) : Statement (.hltRecover p key go) := fun _ _ _ _ _ h => nomatch h
theorem recoveryComplete (e : BootEnv) : Statement (.recoveryComplete e) := fun _ _ _ _ _ h => nomatch h
theorem regionReset (p : Party) (r : Nat) : Statement (.regionReset p r) := fun _ _ _ _ _ h => nomatch h
theorem dieReset (p : Party) (d : Nat) : Statement (.dieReset p d) := fun _ _ _ _ _ h => nomatch h
theorem dieCoreTimeout (d ms : Nat) : Statement (.dieCoreTimeout d ms) := fun _ _ _ _ _ h => nomatch h
theorem assign (p : Party) (r c : Nat) : Statement (.assign p r c) := fun _ _ _ _ _ h => nomatch h
theorem release (p : Party) (r : Nat) : Statement (.release p r) := fun _ _ _ _ _ h => nomatch h
theorem secRotate (p : Party) (c : Nat) : Statement (.secRotate p c) := fun _ _ _ _ _ h => nomatch h
theorem sweepPageComplete (c : Nat) : Statement (.sweepPageComplete c) := fun _ _ _ _ _ h => nomatch h
theorem scrubGo (p : Party) (parts : Nat) : Statement (.scrubGo p parts) := fun _ _ _ _ _ h => nomatch h
theorem scrubDone : Statement .scrubDone := fun _ _ _ _ _ h => nomatch h
theorem memXlateInv (p : Party) (c : Nat) (all : Bool) (page : Nat) : Statement (.memXlateInv p c all page) := fun _ _ _ _ _ h => nomatch h
theorem invalidationComplete : Statement .invalidationComplete := fun _ _ _ _ _ h => nomatch h
theorem ekbJoin (p : Party) (modNum epoch : Nat) (go : Bool) : Statement (.ekbJoin p modNum epoch go) := fun _ _ _ _ _ h => nomatch h
theorem graceExpiry : Statement .graceExpiry := fun _ _ _ _ _ h => nomatch h
theorem defaultRoutingUpdate : Statement .defaultRoutingUpdate := fun _ _ _ _ _ h => nomatch h
theorem ekbCtxJobWrite (p : Party) (c job : Nat) (valid : Bool) : Statement (.ekbCtxJobWrite p c job valid) := fun _ _ _ _ _ h => nomatch h
theorem flitReceive (port : Nat) (f : Flit) : Statement (.flitReceive port f) := fun _ _ _ _ _ h => nomatch h
theorem flitReplay (port seq : Nat) : Statement (.flitReplay port seq) := fun _ _ _ _ _ h => nomatch h
theorem linkControlFlit (port : Nat) (l : LinkCtl) : Statement (.linkControlFlit port l) := fun _ _ _ _ _ h => nomatch h
theorem portTrainingComplete (port lanes rtt : Nat) (l : LinkCtl) : Statement (.portTrainingComplete port lanes rtt l) := fun _ _ _ _ _ h => nomatch h
theorem portRetrainTimeout (port : Nat) : Statement (.portRetrainTimeout port) := fun _ _ _ _ _ h => nomatch h
theorem packetTransit (x : Pkt) : Statement (.packetTransit x) := fun _ _ _ _ _ h => nomatch h
theorem rdReq (x : Pkt) (e : Env) : Statement (.rdReq x e) := fun _ _ _ _ _ h => nomatch h
theorem rdData (x : Pkt) : Statement (.rdData x) := fun _ _ _ _ _ h => nomatch h
theorem wr (x : Pkt) (e : Env) : Statement (.wr x e) := fun _ _ _ _ _ h => nomatch h
theorem wrCpl (x : Pkt) : Statement (.wrCpl x) := fun _ _ _ _ _ h => nomatch h
theorem atom (x : Pkt) (e : Env) : Statement (.atom x e) := fun _ _ _ _ _ h => nomatch h
theorem atomCpl (x : Pkt) : Statement (.atomCpl x) := fun _ _ _ _ _ h => nomatch h
theorem flagInc (x : Pkt) : Statement (.flagInc x) := fun _ _ _ _ _ h => nomatch h
theorem barArrive (x : Pkt) : Statement (.barArrive x) := fun _ _ _ _ _ h => nomatch h
theorem barRelease (x : Pkt) : Statement (.barRelease x) := fun _ _ _ _ _ h => nomatch h
theorem collUp (x : Pkt) (e : Env) : Statement (.collUp x e) := fun _ _ _ _ _ h => nomatch h
theorem collDown (x : Pkt) (e : Env) : Statement (.collDown x e) := fun _ _ _ _ _ h => nomatch h
theorem collCpl (x : Pkt) : Statement (.collCpl x) := fun _ _ _ _ _ h => nomatch h
theorem kexHello (x : Pkt) (chainOk : Bool) : Statement (.kexHello x chainOk) := fun _ _ _ _ _ h => nomatch h
theorem kexReply (x : Pkt) (chainOk : Bool) : Statement (.kexReply x chainOk) := fun _ _ _ _ _ h => nomatch h
theorem recvRightComplete (r k id : Nat) (ns : Nat) (e : Env) : Statement (.recvRightComplete r k id ns e) := fun _ _ _ _ _ h => nomatch h
theorem recvDeadline (r k id : Nat) (ns : Nat) (e : Env) : Statement (.recvDeadline r k id ns e) := fun _ _ _ _ _ h => nomatch h
theorem snapReq (p : Party) (c : Nat) (e : Env) : Statement (.snapReq p c e) := fun _ _ _ _ _ h => nomatch h
theorem snapPartCopy (c : Nat) (e : Env) : Statement (.snapPartCopy c e) := fun _ _ _ _ _ h => nomatch h
theorem maqLoad (p : Party) : Statement (.maqLoad p) := fun _ _ _ _ _ h => nomatch h
theorem maqLoadDone : Statement .maqLoadDone := fun _ _ _ _ _ h => nomatch h
theorem maqSwap (p : Party) (now : Bool) : Statement (.maqSwap p now) := fun _ _ _ _ _ h => nomatch h
theorem maqDiscard (p : Party) : Statement (.maqDiscard p) := fun _ _ _ _ _ h => nomatch h
theorem fwActivate (p : Party) (persist : Bool) : Statement (.fwActivate p persist) := fun _ _ _ _ _ h => nomatch h
theorem fwCommit : Statement .fwCommit := fun _ _ _ _ _ h => nomatch h
theorem fwActivateTimeout : Statement .fwActivateTimeout := fun _ _ _ _ _ h => nomatch h
theorem stageGo (p : Party) (len target : Nat) (e : Env) : Statement (.stageGo p len target e) := fun _ _ _ _ _ h => nomatch h
theorem stageDone : Statement .stageDone := fun _ _ _ _ _ h => nomatch h
theorem cfgBootSel (p : Party) (slot set : Nat) : Statement (.cfgBootSel p slot set) := fun _ _ _ _ _ h => nomatch h
theorem mboxInGo (p : Party) (len : Nat) : Statement (.mboxInGo p len) := fun _ _ _ _ _ h => nomatch h
theorem mboxInTaken : Statement .mboxInTaken := fun _ _ _ _ _ h => nomatch h
theorem cfgMboxOutTail (p : Party) (tail : Nat) : Statement (.cfgMboxOutTail p tail) := fun _ _ _ _ _ h => nomatch h
theorem memMlmWin (p : Party) (mode : Nat) : Statement (.memMlmWin p mode) := fun _ _ _ _ _ h => nomatch h
theorem mlmRdReq (m : Nat) (x : Pkt) (e : Env) : Statement (.mlmRdReq m x e) := fun _ _ _ _ _ h => nomatch h
theorem mlmWr (m : Nat) (x : Pkt) (e : Env) : Statement (.mlmWr m x e) := fun _ _ _ _ _ h => nomatch h
theorem mlmAtom (m : Nat) (x : Pkt) (e : Env) : Statement (.mlmAtom m x e) := fun _ _ _ _ _ h => nomatch h
theorem mlmKexHello (m : Nat) (x : Pkt) : Statement (.mlmKexHello m x) := fun _ _ _ _ _ h => nomatch h
theorem mlmPortRetrain (m lanes : Nat) : Statement (.mlmPortRetrain m lanes) := fun _ _ _ _ _ h => nomatch h
theorem pwrGovCtrlWrite (p : Party) (cap : Nat) : Statement (.pwrGovCtrlWrite p cap) := fun _ _ _ _ _ h => nomatch h
theorem ekbGraceWrite (p : Party) (ms : Nat) : Statement (.ekbGraceWrite p ms) := fun _ _ _ _ _ h => nomatch h
theorem bistReqGo (p : Party) (r clusters kinds save : Nat) : Statement (.bistReqGo p r clusters kinds save) := fun _ _ _ _ _ h => nomatch h
theorem bistReqCancel (p : Party) (r : Nat) : Statement (.bistReqCancel p r) := fun _ _ _ _ _ h => nomatch h
theorem bistSlice (r k : Nat) : Statement (.bistSlice r k) := fun _ _ _ _ _ h => nomatch h
theorem hltRetire (p : Party) (r k : Nat) : Statement (.hltRetire p r k) := fun _ _ _ _ _ h => nomatch h
theorem abistRerun (p : Party) (loopE loopM loopC : Nat) : Statement (.abistRerun p loopE loopM loopC) := fun _ _ _ _ _ h => nomatch h
theorem csracc (offset : Nat) (write go : Bool) (data : Reg64) : Statement (.csracc offset write go data) := fun _ _ _ _ _ h => nomatch h
theorem memacc (addr : Nat) (go : Bool) : Statement (.memacc addr go) := fun _ _ _ _ _ h => nomatch h
theorem idcode : Statement .idcode := fun _ _ _ _ _ h => nomatch h
theorem extest (drive : List Bool) : Statement (.extest drive) := fun _ _ _ _ _ h => nomatch h
theorem samplePreload (load : List Bool) : Statement (.samplePreload load) := fun _ _ _ _ _ h => nomatch h
theorem extestPulse (drive : List Bool) : Statement (.extestPulse drive) := fun _ _ _ _ _ h => nomatch h
theorem extestTrain (drive : List Bool) : Statement (.extestTrain drive) := fun _ _ _ _ _ h => nomatch h
theorem bypass (code : Nat) : Statement (.bypass code) := fun _ _ _ _ _ h => nomatch h
theorem getVersion : Statement .getVersion := fun _ _ _ _ _ h => nomatch h
theorem getCapabilities : Statement .getCapabilities := fun _ _ _ _ _ h => nomatch h
theorem negotiateAlgorithms (asym hash : Nat) : Statement (.negotiateAlgorithms asym hash) := fun _ _ _ _ _ h => nomatch h
theorem getDigests : Statement .getDigests := fun _ _ _ _ _ h => nomatch h
theorem getCertificate (slot offset len : Nat) : Statement (.getCertificate slot offset len) := fun _ _ _ _ _ h => nomatch h
theorem challenge (slot sumKind : Nat) (nonce : List Byte) : Statement (.challenge slot sumKind nonce) := fun _ _ _ _ _ h => nomatch h
theorem getMeasurements (index : Nat) (signed : Bool) (nonce : List Byte) : Statement (.getMeasurements index signed nonce) := fun _ _ _ _ _ h => nomatch h
theorem setdasa (static dynamic : Nat) : Statement (.setdasa static dynamic) := fun _ _ _ _ _ h => nomatch h
theorem entdaa (dynamic : Nat) : Statement (.entdaa dynamic) := fun _ _ _ _ _ h => nomatch h
theorem pldmEffecterSet (effecter value : Nat) : Statement (.pldmEffecterSet effecter value) := fun _ _ _ _ _ h => nomatch h
theorem registerWrite (p : Party) (offset : Nat) (w : Reg64) : Statement (.registerWrite p offset w) := fun _ _ _ _ _ h => nomatch h
theorem internalResetRelease (railsGood : Bool) (hottest : Int) (e : BootEnv) : Statement (.internalResetRelease railsGood hottest e) := fun _ _ _ _ _ h => nomatch h
theorem linkGoesDown (kind port : Nat) : Statement (.linkGoesDown kind port) := fun _ _ _ _ _ h => nomatch h
theorem cxlEventRecord (port corrected media : Nat) : Statement (.cxlEventRecord port corrected media) := fun _ _ _ _ _ h => nomatch h
theorem counterSample : Statement .counterSample := fun _ _ _ _ _ h => nomatch h
theorem sliceComplete (r k : Nat) (failed : Bool) (columns : Nat) : Statement (.sliceComplete r k failed columns) := fun _ _ _ _ _ h => nomatch h
theorem resetComplete (die : Bool) (n trained : Nat) : Statement (.resetComplete die n trained) := fun _ _ _ _ _ h => nomatch h
theorem regionLoadsComplete (r : Nat) (e : Env) : Statement (.regionLoadsComplete r e) := fun _ _ _ _ _ h => nomatch h
theorem spdmUnsupportedRequest (code : Nat) : Statement (.spdmUnsupportedRequest code) := fun _ _ _ _ _ h => nomatch h
theorem mctpControlMessage (command : Nat) (eid : Nat) : Statement (.mctpControlMessage command eid) := fun _ _ _ _ _ h => nomatch h
theorem mandatoryCommonCommand (code : Nat) : Statement (.mandatoryCommonCommand code) := fun _ _ _ _ _ h => nomatch h

end Sys2Proof.Laws.Units
end

