-- ==== Sys2Proof/Laws/Seq.lean ====
section
/-!
SUPPORT. Sys2Proof/Laws/Seq.lean: what an increment of a virtual flag, a done-flag and a retirement leave alone.
-/
namespace Sys2Proof.Machine

/-- What the increments of one cluster can change: registers, counters and the requests of its region. -/
structure FlagFrame (s t : State) (r k : Nat) : Prop where
  mem    : t.mem = s.mem
  gran   : t.gran = s.gran
  flash  : t.flash = s.flash
  other  : ∀ r' k', 9 * r' + k' ≠ 9 * r + k → t.cl r' k' = s.cl r' k'
  queues : (t.cl r k).queues = (s.cl r k).queues
  lris   : (t.cl r k).lris = (s.cl r k).lris
  beat   : (t.cl r k).beat = (s.cl r k).beat
  regs   : ∀ a, a ≠ A.syncSat r → a ≠ A.unmapped r → a ≠ A.foreignDrop r → t.reg a = s.reg a
  region : ∀ r', r' ≠ r → t.rg r' = s.rg r'

theorem FlagFrame.refl (s : State) (r k : Nat) : FlagFrame s s r k := by
  constructor <;> intros <;> rfl

theorem State.incOwn_frame (s : State) (r k idx inc : Nat) : FlagFrame s (s.incOwn r k idx inc) r k := by
  constructor
  all_goals simp only [State.incOwn, State.modRg_eq, State.bump_mem, State.bump_gran, State.bump_flash, State.setRg_mem, State.setRg_gran,
    State.setRg_flash, State.setCl_mem, State.setCl_gran, State.setCl_flash, State.cl_bump, State.cl_setRg, State.cl_setCl_same, State.rg_bump]
  · intro r' k' h; exact State.cl_setCl_ne _ _ h
  · intro a h _ _; rw [State.reg_bump_ne _ _ h]; rfl
  · intro r' h; exact State.rg_setRg_ne _ _ h

theorem State.incNode_frame (s : State) (r k idx inc bound : Nat) : FlagFrame s (s.incNode r idx inc bound) r k := by
  constructor
  all_goals simp only [State.incNode, State.bump_mem, State.bump_gran, State.bump_flash, State.setRg_mem, State.setRg_gran,
    State.setRg_flash, State.cl_bump, State.cl_setRg, State.rg_bump]
  · intros; trivial
  · intro a h _ _; rw [State.reg_bump_ne _ _ h]; rfl
  · intro r' h; exact State.rg_setRg_ne _ _ h

theorem State.addReq_frame (s : State) (r k : Nat) (q : Req) : FlagFrame s (s.addReq r q) r k := by
  constructor <;> try (intros; rfl)
  intro r' h; exact State.rg_setRg_ne _ _ h

theorem State.bump_frame (s : State) (r k a n : Nat) (h : a = A.syncSat r ∨ a = A.unmapped r ∨ a = A.foreignDrop r) :
    FlagFrame s (s.bump a n) r k := by
  constructor <;> try (intros; simp)
  intro b h1 h2 h3
  exact State.reg_bump_ne _ _ (by rcases h with rfl | rfl | rfl <;> assumption)

/-- An increment of a virtual flag changes counters, requests and drop counts only (R286 to R289). -/
theorem State.incFlag_frame (s : State) (r k v inc : Nat) : FlagFrame s (s.incFlag r k v inc) r k := by
  unfold State.incFlag
  split
  · exact FlagFrame.refl s r k
  · exact State.bump_frame s r k _ 1 (by simp)
  · exact State.incOwn_frame ..
  · exact State.incNode_frame ..
  · split
    · exact State.addReq_frame ..
    · exact State.bump_frame s r k _ 1 (by simp)
  all_goals exact State.addReq_frame ..

theorem State.doneFlag_frame (s : State) (r k : Nat) (c : Cmd512) : FlagFrame s (s.doneFlag r k c) r k := by
  unfold State.doneFlag
  split
  · exact State.incFlag_frame ..
  · exact FlagFrame.refl s r k

/-- SEQ_Q_RETIRED is none of the counters an increment may take. -/
theorem A.qRetired_ne (r k q : Nat) : A.qRetired r k q ≠ A.syncSat r ∧ A.qRetired r k q ≠ A.unmapped r ∧ A.qRetired r k q ≠ A.foreignDrop r := by
  simp only [A.qRetired, A.seq, A.cl, A.rtr, A.syncSat, A.unmapped, A.foreignDrop, A.rsync]
  omega

/-- What a command that passes leaves: its queue advanced, SEQ_Q_RETIRED one up, its done-flag's effects (R109, R110). -/
theorem State.passCmd_spec (s : State) (r k q : Nat) (c : Cmd512) (h : q < 4) :
    let t := s.passCmd r k q c
    t.mem = s.mem ∧ t.gran = s.gran ∧ t.flash = s.flash
    ∧ (∀ r' k', 9 * r' + k' ≠ 9 * r + k → t.cl r' k' = s.cl r' k')
    ∧ (∀ q', q' < 4 → q' ≠ q → t.queue r k q' = s.queue r k q')
    ∧ t.queue r k q = (s.queue r k q).advance (s.cl r k).beat
    ∧ (t.cl r k).lris = (s.cl r k).lris ∧ (t.cl r k).beat = (s.cl r k).beat
    ∧ t.reg (A.qRetired r k q) = BitVec.ofNat 64 (satAdd 48 (s.regN (A.qRetired r k q)) 1)
    ∧ (∀ a, a ≠ A.qRetired r k q → a ≠ A.syncSat r → a ≠ A.unmapped r → a ≠ A.foreignDrop r → t.reg a = s.reg a)
    ∧ (∀ r', r' ≠ r → t.rg r' = s.rg r') := by
  have f := State.doneFlag_frame s r k c
  have hn := A.qRetired_ne r k q
  intro t
  have ht : t = ((s.doneFlag r k c).retire r k q).advance r k q := rfl
  rw [ht]
  simp only [State.retire, State.advance, State.queue, State.modCl_eq, State.setCl_mem, State.setCl_gran, State.setCl_flash, State.bump_mem,
    State.bump_gran, State.bump_flash, State.cl_setCl_same, State.cl_bump, State.reg_setCl, State.rg_setCl, State.rg_bump]
  refine ⟨f.mem, f.gran, f.flash, ?_, ?_, ?_, ?_, ?_, ?_, ?_, ?_⟩
  · intro r' k' h'; rw [State.cl_setCl_ne _ _ h', State.cl_bump]; exact f.other r' k' h'
  · intro q' h1 h2
    rw [Cluster.queue_setQ _ _ _ _ h1, if_neg h2]
    exact congrArg (fun l => nth Queue.init l q') f.queues
  · rw [Cluster.queue_setQ_same _ _ _ h, f.beat]
    exact congrArg (fun l => (nth Queue.init l q).advance (s.cl r k).beat) f.queues
  · exact f.lris
  · exact f.beat
  · rw [State.reg_bump, if_pos ⟨rfl, by omega⟩]
    unfold State.regN
    rw [f.regs _ hn.1 hn.2.1 hn.2.2]
  · intro a h1 h2 h3 h4; rw [State.reg_bump_ne _ _ h1]; exact f.regs a h2 h3 h4
  · exact f.region

end Sys2Proof.Machine
end

