-- ==== Sys2Proof/Machine/Accuracy.lean ====
section
/-!
DEFINITION. Sys2Proof/Machine/Accuracy.lean: what the manual promises of the SFU's coefficients (R222, R223, R226, R228), as
properties of the tables that Config.sfuCoeff leaves free: monotonicity in the marked intervals and the error bounds of native
evaluations, compatibility mode and derivatives. Nothing else in the model rests on them (log 110).
-/
namespace Sys2Proof.Machine

/-! ### Values as real numbers -/

/-- The real number a finite value stands for. -/
noncomputable def FV.real : FV → ℝ
  | .fin n m e => (if n then -1 else 1) * (m : ℝ) * (2 : ℝ) ^ e
  | _ => 0

/-- The error function. -/
noncomputable def erfReal (x : ℝ) : ℝ := 2 / Real.sqrt Real.pi * ∫ t in (0 : ℝ)..x, Real.exp (-t ^ 2)

noncomputable def sigmoidReal (x : ℝ) : ℝ := 1 / (1 + Real.exp (-x))

/-- R219: the functions, by code. -/
noncomputable def sfuReal (func : Nat) (x : ℝ) : ℝ :=
  match func with
  | 0x00 => Real.exp x
  | 0x01 => (2 : ℝ) ^ x
  | 0x02 => Real.log x
  | 0x03 => Real.logb 2 x
  | 0x04 => 1 / x
  | 0x05 => Real.sqrt x
  | 0x06 => 1 / Real.sqrt x
  | 0x07 => sigmoidReal x
  | 0x08 => Real.tanh x
  | 0x09 => erfReal x
  | 0x0A => x * ((1 + erfReal (x / Real.sqrt 2)) / 2)
  | 0x0B => 0.5 * x * (1 + Real.tanh (Real.sqrt (2 / Real.pi) * (x + 0.044715 * x ^ 3)))
  | 0x0C => x * sigmoidReal x
  | 0x0D => Real.log (1 + Real.exp x)
  | 0x0E => Real.sin x
  | 0x0F => Real.cos x
  | _ => 0

/-! ### Monotonicity (R222) -/

/-- A hundred times an input is at least an integer. -/
def FV.centsFrom (x : FV) (c : Int) : Bool :=
  match x with
  | .fin n m e => cmpV (cent n m e) (FV.ofInt c) != -1
  | .inf n => !n
  | .nan _ => false

/-- Whether it is at most one. -/
def FV.centsTo (x : FV) (c : Int) : Bool :=
  match x with
  | .fin n m e => cmpV (cent n m e) (FV.ofInt c) != 1
  | .inf n => n
  | .nan _ => false

/-- An input with its sign bit clear, or set. -/
def FV.signIs (x : FV) (neg : Bool) : Bool :=
  match x with
  | .fin n _ _ => n == neg
  | .inf n => n == neg
  | .nan _ => false

/-- Intervals in which a function is marked nondecreasing. -/
def risesOn (func : Nat) : List (FV → Bool) :=
  match func with
  | 0x00 | 0x01 | 0x07 | 0x08 | 0x09 | 0x0D => [fun x => x.signIs true || x.signIs false]
  | 0x02 | 0x03 | 0x05 => [fun x => x.signIs false]
  | 0x0A | 0x0B => [fun x => x.centsFrom (-75)]
  | 0x0C => [fun x => x.centsFrom (-127)]
  | _ => []

/-- Intervals in which a function is marked nonincreasing. -/
def fallsOn (func : Nat) : List (FV → Bool) :=
  match func with
  | 0x04 => [fun x => x.signIs true, fun x => x.signIs false]
  | 0x06 => [fun x => x.signIs false]
  | 0x0C => [fun x => x.centsTo (-128)]
  | _ => []

/-- Roundings that R222 names. -/
def orderedRoundings : List Rnd := [.rne, .rtz, .rup, .rdn]

/-- The FP32 results of two evaluations, and their conversions to any format, are in order. -/
def InOrder (a b : FV) : Prop :=
  cmpV a b ≠ 1 ∧ ∀ (f : Fmt) (c : RndCtx), c.mode ∈ orderedRoundings → cmpV (roundTo f c a).v (roundTo f c b).v ≠ 1

/-- R222: no function steps backward in a marked interval. -/
def SfuMonotone : Prop :=
  ∀ (func w1 w2 : Nat), w1 < 2 ^ 32 → w2 < 2 ^ 32 →
    let x1 := decodeFmt .fp32 w1
    let x2 := decodeFmt .fp32 w2
    cmpV x1 x2 = -1 →
    (∀ p ∈ risesOn func, p x1 = true → p x2 = true → InOrder (sfuNative func x1).v (sfuNative func x2).v)
    ∧ (∀ p ∈ fallsOn func, p x1 = true → p x2 = true → InOrder (sfuNative func x2).v (sfuNative func x1).v)

/-! ### Error bounds (R223, R226, R228) -/

/-- A bound: an absolute error, and a number of ULPs beside it. -/
structure ErrBound where
  abs  : ℝ
  ulps : ℝ

/-- The spacing of a format of `mb` mantissa bits and FP32's exponents at a value. -/
noncomputable def ulpAt (mb : Int) (y : ℝ) : ℝ := (2 : ℝ) ^ (max ⌊Real.logb 2 |y|⌋ (-126) - mb)

/-- R223: the bound of an FP32 result of a native evaluation, where the table has a row. -/
noncomputable def bound32 (func : Nat) (x : ℝ) : Option ErrBound :=
  match func with
  | 0x00 => if -87.33 ≤ x ∧ x ≤ 88.72 then some ⟨0, 2⟩ else none
  | 0x01 => if -126 ≤ x ∧ x < 128 then some ⟨0, 1.5⟩ else none
  | 0x02 => if 0 < x then some ⟨0, if 0.75 ≤ x ∧ x < 1.5 then 2.5 else 2⟩ else none
  | 0x03 => if 0 < x then some ⟨0, if 0.75 ≤ x ∧ x < 1.5 then 2 else 1.5⟩ else none
  | 0x04 => if x ≠ 0 then some ⟨0, 1⟩ else none
  | 0x05 => if 0 < x then some ⟨0, 1⟩ else none
  | 0x06 => if 0 < x then some ⟨0, 1.5⟩ else none
  | 0x07 => some ⟨0, if -16 ≤ x then 2 else 3⟩
  | 0x08 | 0x09 | 0x0D => some ⟨0, 2⟩
  | 0x0A | 0x0B => some (if -0.75 ≤ x then ⟨0, 2.5⟩ else ⟨2 ^ (-30 : Int), 0⟩)
  | 0x0C => some ⟨0, if -1.28 ≤ x then 2.5 else 3⟩
  | 0x0E | 0x0F =>
    if |x| ≤ 2 ^ 12 then some ⟨2 ^ (-24 : Int), 0⟩ else if |x| < 2 ^ 22 then some ⟨2 ^ (-20 : Int), 0⟩ else none
  | _ => none

/-- R223: the bound of a BF16 result under RNE: 0.501 ULP, or the absolute error and half an ULP. -/
noncomputable def bound16 (func : Nat) (x : ℝ) : Option ErrBound :=
  (bound32 func x).map fun b => if b.abs = 0 then ⟨0, 0.501⟩ else ⟨b.abs, 0.5⟩

/-- R226: the bound of a result of compatibility mode. -/
noncomputable def boundCompat (func : Nat) (x : ℝ) : Option ErrBound :=
  match func with
  | 0x00 => if -87.33 ≤ x ∧ x ≤ 88.72 then some ⟨0, 4⟩ else none
  | 0x02 => if 0 < x then some (if 0.75 ≤ x ∧ x < 1.5 then ⟨2 ^ (-22 : Int), 0⟩ else ⟨0, 4⟩) else none
  | 0x06 => if 2 ^ (-126 : Int) ≤ x then some ⟨0, 2⟩ else none
  | 0x07 => some (if -16 ≤ x then ⟨0, 4⟩ else ⟨2 ^ (-26 : Int), 0⟩)
  | 0x08 => some (if 2 ^ (-6 : Int) ≤ |x| then ⟨0, 4⟩ else ⟨2 ^ (-30 : Int), 0⟩)
  | 0x0B => some (if -0.75 ≤ x then ⟨0, 6⟩ else ⟨2 ^ (-24 : Int), 0⟩)
  | _ => none

/-- R228: the bound of a derivative's FP32 result, from the derivative's value. -/
noncomputable def boundDeriv (d : ℝ) : ErrBound := if 2 ^ (-20 : Int) ≤ |d| then ⟨0, 3⟩ else ⟨2 ^ (-44 : Int), 0⟩

/-- A finite result of `mb` mantissa bits lies within a bound of the exact value; one that is subnormal within `sub` ULP where the
rule says so. -/
def Within (v : FV) (mb : Int) (y : ℝ) (b : ErrBound) (sub : Option ℝ) : Prop :=
  match v with
  | .fin _ _ _ =>
    let lim := match sub with
      | some u => if |y| < 2 ^ (-126 : Int) then u * (2 : ℝ) ^ (-126 - mb) else b.abs + b.ulps * ulpAt mb y
      | none => b.abs + b.ulps * ulpAt mb y
    |v.real - y| ≤ lim
  | _ => True

/-- R223: FP32 results of native evaluations, and their BF16 conversions in packed work. -/
def SfuAccurate : Prop :=
  (∀ (func w : Nat) (b : ErrBound), w < 2 ^ 32 →
    let x := decodeFmt .fp32 w
    (∃ n m e, x = .fin n m e ∧ m ≠ 0) → bound32 func x.real = some b →
    Within (sfuNative func x).v 23 (sfuReal func x.real) b (some 1))
  ∧ (∀ (func w : Nat) (b : ErrBound), w < 2 ^ 16 →
    let x := decodeFmt .bf16 w
    (∃ n m e, x = .fin n m e ∧ m ≠ 0) → bound16 func x.real = some b →
    Within (roundTo .bf16 .rne (sfuNative func x).v).v 7 (sfuReal func x.real) b (some 0.501))

/-- R226: results of compatibility mode. -/
def CompatAccurate : Prop :=
  ∀ (func w : Nat) (b : ErrBound), w < 2 ^ 32 → sfuCompatOk func = true →
    let x := decodeFmt .fp32 w
    (∃ n m e, x = .fin n m e ∧ m ≠ 0) → boundCompat func x.real = some b →
    Within (sfuCompat func x).v 23 (sfuReal func x.real) b none

/-- R228: derivatives. -/
def DerivAccurate : Prop :=
  ∀ (func w : Nat), w < 2 ^ 32 → sfuDerivOk func = true →
    let x := decodeFmt .fp32 w
    (∃ n m e, x = .fin n m e) → (func = 0xE ∨ func = 0xF → |x.real| < 2 ^ 22) →
    Within (sfuDeriv func x).v 23 (deriv (sfuReal func) x.real) (boundDeriv (deriv (sfuReal func) x.real)) none

/-- What the manual promises of this device's tables. -/
def TablesAsPromised : Prop := SfuMonotone ∧ SfuAccurate ∧ CompatAccurate ∧ DerivAccurate

end Sys2Proof.Machine
end

