-- ==== Sys2Proof/Tests/Slice0.lean ====
section
/-!
SUPPORT. Sys2Proof/Tests/Slice0.lean: for each obligation a concrete state and operands that meet its hypotheses (witness_…), single steps on small
states with results worked out from the rules (test_…), and ill-formed commands that the checks refuse.
-/
open Sys2Proof Sys2Proof.Machine
namespace Sys2Proof.Tests

section
set_option Elab.async false

/-! ### Small states and words -/

/-- An environment that adds nothing. -/
def env0 : Env := ⟨[], [], [], [], 0, false⟩

/-- READY, PORST_N released, nothing owned. -/
def ready : State :=
  { State.reset with boot := .ready, pins := ⟨true, true, true, 0, true⟩ }

/-- The command answers a next state of which `P` holds. -/
def after (i : Instr) (s : State) (P : State → Bool) : Bool :=
  match exec i s with | .next t => P t | _ => false

/-- A command: opcode, no predicate, DESC_USE with slot i naming entry i, body fields as (byte, value). -/
def cmdW (op use : Nat) (body : List (Nat × Nat)) : Cmd512 :=
  BitVec.ofNat 512 (op + 0xFFF * 2 ^ 26 + 0x0100 * 2 ^ 96 + 2 * 2 ^ 112 + use * 2 ^ 120 + sumNat (body.map fun p => p.2 * 2 ^ (8 * p.1)))

/-- A descriptor of one level: base, ESIZE code, count, stride; `sc` names its scale entry. -/
def descW (base esize n stride : Nat) (sc : Option Nat) : Desc1024 :=
  BitVec.ofNat 1024 (base + esize * 2 ^ 52 + 1 * 2 ^ 55 + n * 2 ^ 64 + stride * 2 ^ (8 * 26)
    + (match sc with | some e => (e * 2 ^ 52 + 2 ^ 60) * 2 ^ (8 * 112) | none => 0))

/-- A training queue whose first command is `c`, due in beat 0. -/
def qWith (c : Cmd512) : Queue :=
  { Queue.init with st := .issuing, train := true, len := some 9, buf := [(0, c)] }

/-- An evaluation queue whose first command is `c`. -/
def qEval (c : Cmd512) : Queue :=
  { qWith c with len := none, train := false }

/-- Cluster 0 of region 0 with queue `q` holding `x`, and descriptors in entries 0 to 5. -/
def oneQ (s : State) (q : Nat) (x : Queue) (ds : List Desc1024) : State :=
  (s.setReg (A.maShape 0 0) 64#64).setCl 0 0
    { Cluster.init.setQ q x with dcache := (numberFrom (fun i d => (i, d)) 0 ds).filter fun p => p.2 != 0#1024, begun := true }

def one (q : Nat) (c : Cmd512) (ds : List Desc1024) : State := oneQ ready q (qWith c) ds

/-- The hypotheses of a due command that its checks pass. -/
abbrev Runs (s : State) (q : Nat) (c : Cmd512) (aux : List Nat) : Prop :=
  Due s 0 0 q c ∧ s.verdict 0 0 q c = .go aux

/-- A row of the command streams with a word and descriptors that its checks pass. -/
structure Sample where
  row : Instr
  q   : Nat
  cmd : Cmd512
  ds  : List Desc1024
  s   : State

/-- The word of a sample is due and goes into flight, as far as the statement of long commands asks. -/
def Sample.good (x : Sample) : Bool :=
  let s := oneQ x.s x.q (qWith x.cmd) x.ds
  (match streamRow x.row with
    | some (r, k, q, sel) => r == 0 && k == 0 && q == x.q && sel x.cmd
    | none => false)
    && Instr.wf x.row && !isCommon (Hdr.opcode x.cmd) && x.q < 4 && s.beats 0 0 && decide (s.beginBeat 0 0 = s) && decide (Unheld s 0 0 (streamEnv x.row))
    && decide ((s.queue 0 0 x.q).st = .issuing) && decide ((s.queue 0 0 x.q).head (s.cl 0 0).beat = .cmd x.cmd)
    && (s.verdict 0 0 x.q x.cmd (streamEnv x.row)).runs

/-- Vectors of 32 elements at `b`: FP32, BF16, bytes, and one 16-bit scale word. -/
def f32 (b : Nat) : Desc1024 := descW b 4 32 4 none
def bf (b : Nat) : Desc1024 := descW b 3 32 2 none
def gx (b sc : Nat) : Desc1024 := descW b 2 32 1 (some sc)
def sw (b : Nat) : Desc1024 := descW b 3 1 2 none

def mqDs : List Desc1024 := [descW 0 3 64 2 none, descW 4096 3 64 2 none, descW 8192 4 1 4 none]
def mqBody : List (Nat × Nat) := [(17, 0x11), (20, 1), (22, 1), (24, 64)]
def mapBody (steps : List (Nat × Nat)) : List (Nat × Nat) := [(16, 0xFFFFFFFF)] ++ steps
def maps : List Desc1024 := [f32 0, f32 4096, f32 8192]

def samplesMq : List Sample :=
  [⟨.mma 0 0, 0, cmdW 0x040 7 mqBody, mqDs, ready⟩
  ,⟨.distL1 0 0, 0, cmdW 0x041 7 mqBody, mqDs, ready⟩
  ,⟨.distL2 0 0, 0, cmdW 0x042 7 mqBody, mqDs, ready⟩
  ,⟨.minplus 0 0, 0, cmdW 0x043 7 mqBody, mqDs, ready⟩
  ,⟨.maxplus 0 0, 0, cmdW 0x044 7 mqBody, mqDs, ready⟩
  ,⟨.cmpcount 0 0, 0, cmdW 0x045 7 ((18, 0x0A) :: mqBody), mqDs, ready⟩]

def samplesVe : List Sample :=
  [⟨.vmap 0 0 0, 1, cmdW 0x080 5 (mapBody []), maps, ready⟩
  ,⟨.vcvt 0 0 1, 2, cmdW 0x081 5 [], maps, ready⟩
  ,⟨.vscan 0 0 0, 1, cmdW 0x082 5 [(16, 0xFFFFFFF7)], maps, ready⟩
  ,⟨.vstat 0 0 0, 1, cmdW 0x083 5 [(16, 0xFFFFFFF7)], [f32 0, 0, descW 8192 4 1 4 none], ready⟩
  ,⟨.vcarryStore 0 0 0, 1, cmdW 0x084 4 [(20, 8)], [0, 0, f32 0], ready⟩
  ,⟨.vcarryLoad 0 0 0, 1, cmdW 0x084 1 [(16, 1), (20, 8)], [f32 0], ready⟩
  ,⟨.rmsnorm 0 0 0, 1, cmdW 0x085 5 [], maps, ready⟩
  ,⟨.vsfu 0 0 0, 1, cmdW 0x086 5 [], maps, ready⟩]

def samplesRed : List Sample :=
  [⟨.vredLeaf 0 0 0, 1, cmdW 0x088 5 [(16, 8)], [f32 0, 0, gx 8192 3, sw 12288], ready⟩
  ,⟨.vredNode 0 0 0, 1, cmdW 0x088 7 [(16, 1)], [gx 0 3, gx 4096 3, gx 8192 3, sw 12288], ready⟩
  ,⟨.vredFinal 0 0 0, 1, cmdW 0x088 5 [(16, 10)], [f32 0, 0, f32 8192], ready⟩
  ,⟨.vredFold 0 0 0, 1, cmdW 0x088 3 [(16, 3)], [gx 0 3, f32 4096, 0, sw 12288], ready⟩]

def samplesGrain : List Sample :=
  [⟨.vgrainSetid 0 0 0, 1, cmdW 0x089 0 [], [], ready⟩
  ,⟨.vgrainRaw 0 0 0, 1, cmdW 0x089 4 [(16, 1), (17, 10)], [0, 0, f32 0], ready⟩
  ,⟨.vgrainUniform 0 0 0, 1, cmdW 0x089 4 [(16, 2)], [0, 0, f32 0], ready⟩
  ,⟨.vgrainBernoulli 0 0 0, 1, cmdW 0x089 4 [(16, 3)], [0, 0, f32 0], ready⟩
  ,⟨.vgrainNormal 0 0 0, 1, cmdW 0x089 4 [(16, 4)], [0, 0, f32 0], ready⟩]

def samplesXq : List Sample :=
  [⟨.mvcopy 0 0, 3, cmdW 0x0C0 3 [], [f32 0, f32 4096], ready⟩
  ,⟨.mvset 0 0, 3, cmdW 0x0C1 2 [], [0, f32 4096], ready⟩
  ,⟨.mvatom 0 0, 3, cmdW 0x0C2 3 [], [f32 0, f32 4096], ready⟩
  ,⟨.ttin 0 0, 3, cmdW 0x0D0 1 [], [descW 0 4 4096 4 none], ready⟩
  ,⟨.ttout 0 0, 3, cmdW 0x0D1 1 [], [descW 0 4 4096 4 none], ready⟩
  ,⟨.descLoad 0 0, 3, cmdW 0x0E0 0 [(25, 1)], [], ready⟩]

/-- Region 0 with a program in chisel slot 0. -/
def withChisel : State := ready.setRg 0 { Region.init with chisel := [(0, ⟨[0x18], [], 0⟩)] }

/-- Region 0 belongs to context 0, which holds bucket 0 over four ranks with its rank table in the region buffer (all zeros). -/
def withBucket (me : Nat) : State :=
  (ready.setRg 0 { Region.init with owner := some 0, loaded := true }).setCx 0
    { Ctx.init with buckets := [(0, ⟨0, 0, false, false, false, false, 3, 64, 4, me, 100, winBase + 0x3000000, 0x200000, 0x400000, 1⟩)] }

def samplesFar : List Sample :=
  [⟨.vchisel 0 0 0, 1, cmdW 0x087 5 [(16, 0xFFFFFFF6)], maps, withChisel⟩
  ,⟨.mvcollUp 0 0 env0, 3, cmdW 0x0C3 0 [], [], withBucket 1⟩
  ,⟨.mvcollRecv 0 0 env0, 3, cmdW 0x0C3 0 [(17, 1)], [], withBucket 0⟩
  ,⟨.mvcollDown 0 0 env0, 3, cmdW 0x0C3 0 [(17, 2)], [], withBucket 0⟩
  ,⟨.mvcollRdown 0 0 env0, 3, cmdW 0x0C3 0 [(17, 3)], [], withBucket 1⟩]

/-- R101, R114: run as a row, the word of a sample is one record in flight, with its done point where it is timed. -/
def Sample.flies (x : Sample) : Bool :=
  match exec x.row (oneQ x.s x.q (qWith x.cmd) x.ds) with
  | .next t => (t.cl 0 0).lris.any (fun l => l.cmd == x.cmd && l.unit == unitOf x.q x.cmd && l.done.isSome == (TOp.ofCmd x.cmd).isSome)
      && (t.queue 0 0 x.q).pos == 1
  | _ => false

/-- A region's owner, and the context that it is being assigned to, are two of the sixteen. -/
def namedR (g : Region) : Bool :=
  (match g.owner with | some c => decide (c < 16) | none => true) && (match g.job with | .assign c => decide (c < 16) | _ => true)

theorem namedR_get {l : Sparse Region} (h : l.all (fun p => namedR p.2) = true) (r : Nat) : namedR (Sparse.get Region.init l r) = true := by
  induction l with
  | nil => rfl
  | cons p l ih =>
    simp only [List.all_cons, Bool.and_eq_true] at h
    simp only [Sparse.get]
    split
    · exact h.1
    · split
      · rfl
      · exact ih h.2

theorem contextsNamed_of {s : State} (h : s.regions.all (fun p => namedR p.2) = true) : ContextsNamed s := by
  constructor <;> intro r c hc <;> have hg : namedR (s.rg r) = true := namedR_get h r
  · simp only [namedR, hc, Bool.and_eq_true, decide_eq_true_eq] at hg; exact hg.1
  · simp only [namedR, hc, Bool.and_eq_true, decide_eq_true_eq] at hg; exact hg.2

/-! ### Witnesses: command streams -/

/-- Flag 0 of region 0 names counter 0 of each cluster of it. -/
def mapped : State := ready.setRg 0 { Region.init with map := [(0, 1)] }

def oneM (q : Nat) (c : Cmd512) : State := oneQ mapped q (qWith c) []

def cNop : Cmd512 := cmdW 0 0 []
def cEnd : Cmd512 := cmdW 1 0 []
def cWait (th : Nat) : Cmd512 := cmdW 2 0 [(20, th)]
def cSig : Cmd512 := cmdW 3 0 [(20, 5)]
def cBar : Cmd512 := cmdW 4 0 [(16, 7), (17, 1)]
def cStep : Cmd512 := cmdW 5 0 []
def cPoint : Cmd512 := cmdW 6 0 []
def cPass : Cmd512 := cmdW 7 0 []
/-- A NOP that its predicate skips: own counter 0 has reached 0. -/
def cPred : Cmd512 := cNop - BitVec.ofNat 512 (0xFFF * 2 ^ 26) + BitVec.ofNat 512 (2 ^ 38)

theorem witness_NopRetires :
    (Instr.wf (.nop 0 0 0) = true ∧ Runs (one 0 cNop []) 0 cNop [] ∧ Hdr.opcode cNop = 0)
    ∧ (Runs (oneQ ready 0 (qEval cStep) []) 0 cStep [] ∧ Hdr.opcode cStep = 5 ∧ ((oneQ ready 0 (qEval cStep) []).queue 0 0 0).evaluating = true)
    ∧ (Runs (one 0 cPoint []) 0 cPoint [] ∧ Hdr.opcode cPoint = 6 ∧ ((one 0 cPoint []).queue 0 0 0).evaluating = false)
    ∧ (Runs (one 0 cPass []) 0 cPass [] ∧ Hdr.opcode cPass = 7) := by
  unfold Runs Due; decide +kernel

theorem witness_NopRetires_budget :
    let s := (oneQ ready 0 (qEval cPoint) []).setReg (A.evalCtrl 0 0) (BitVec.ofNat 64 (2 ^ 32))
    Runs s 0 cPoint [] ∧ (s.queue 0 0 0).evaluating = true ∧ (s.cl 0 0).beat < (s.cl 0 0).switchBeat + s.fieldN (A.evalCtrl 0 0) 32 32 := by
  intro s; unfold Runs Due; decide +kernel

theorem witness_EndAndStepPointHold :
    (Instr.wf (.endq 0 0 0) = true ∧ Runs (one 0 cEnd []) 0 cEnd [] ∧ Hdr.opcode cEnd = 1 ∧ ((one 0 cEnd []).queue 0 0 0).evaluating = false)
    ∧ (Instr.wf (.stepPoint 0 0 0) = true ∧ Runs (one 0 cStep []) 0 cStep [] ∧ ((one 0 cStep []).queue 0 0 0).evaluating = false
        ∧ ((one 0 cStep []).queue 0 0 0).len = some 9 ∧ ((one 0 cStep []).queue 0 0 0).pos + 1 < 9) := by
  unfold Runs Due; decide +kernel

theorem witness_EvaluationsStop :
    (Runs (oneQ ready 0 (qEval cPass) []) 0 cPass [] ∧ Hdr.opcode cPass = 7 ∧ ((oneQ ready 0 (qEval cPass) []).queue 0 0 0).evaluating = true)
    ∧ (Runs (oneQ ready 0 (qEval cPoint) []) 0 cPoint [] ∧ ((oneQ ready 0 (qEval cPoint) []).queue 0 0 0).evaluating = true
        ∧ ((oneQ ready 0 (qEval cPoint) []).cl 0 0).switchBeat + (oneQ ready 0 (qEval cPoint) []).fieldN (A.evalCtrl 0 0) 32 32 ≤ 0) := by
  unfold Runs Due; decide +kernel

theorem witness_SignalsAndWaits :
    (Runs (oneM 0 cSig) 0 cSig [] ∧ Hdr.opcode cSig = 3 ∧ Hdr.doneEn cSig = false ∧ (oneM 0 cSig).flagRef 0 (sigFlag cSig) = .own 0)
    ∧ (Runs (oneM 0 (cWait 0)) 0 (cWait 0) [] ∧ Hdr.doneEn (cWait 0) = false ∧ (oneM 0 (cWait 0)).flagRef 0 (waitFlag (cWait 0)) = .own 0
        ∧ waitThresh (cWait 0) ≤ (oneM 0 (cWait 0)).visible 0 0 true 0)
    ∧ (Runs (oneM 0 (cWait 1)) 0 (cWait 1) [] ∧ (oneM 0 (cWait 1)).visible 0 0 true 0 < waitThresh (cWait 1)) := by
  unfold Runs Due; decide +kernel

theorem witness_BarrierArrives :
    Instr.wf (.barrier 0 0 0) = true ∧ Runs (one 0 cBar []) 0 cBar [] ∧ Hdr.opcode cBar = 4 ∧ (one 0 cBar []).bars = [] := by
  unfold Runs Due; decide +kernel

theorem witness_PredicateSkips :
    Instr.wf (.nop 0 0 0) = true ∧ Due (oneM 0 cPred) 0 0 0 cPred ∧ (Hdr.opcode cPred == 0) = true
    ∧ (oneM 0 cPred).verdict 0 0 0 cPred = .pred := by
  unfold Due; decide +kernel

/-! ### Witnesses: doorbells and clusters -/

/-- As `Reaches`, computed. -/
def reachesB (s : State) (p : Party) (a w : Nat) : Bool :=
  s.csrOpen p a true && inView p a && !isSfuWindow a
    && (match regAt a with | some d => !s.inGated d && s.mayWrite p a d w | none => false)

theorem reaches_of {s : State} {p : Party} {a w : Nat} (h : reachesB s p a w = true) : ∃ d, Reaches s p a d w := by
  unfold reachesB at h
  split at h
  · next d hd =>
    simp only [Bool.and_eq_true, Bool.not_eq_true'] at h
    exact ⟨d, h.1.1.1, h.1.1.2, h.1.2, hd, h.2.1, h.2.2⟩
  · simp at h

/-- Region 0 belongs to context 0 and is loaded; every cluster of it carries its own logical number; queues 0 and 1 name streams. -/
def owned : State :=
  ((((ready.setRg 0 { Region.init with owner := some 0, loaded := true }).setReg (A.regionShape 0) 8#64).setReg (A.qLen 0 0 0) 100#64).setReg (A.qLen 0 0 1) 100#64).setReg
    (A.qBase 0 0 0) 0x1000#64

theorem witness_DoorbellStarts :
    (Instr.wf (.seqDoorbell (.ctx 0) 0 0 3) = true ∧ owned.ringDropped 0 0 3 = false ∧ (owned.cl 0 0).retired = false ∧ owned.isGated 0 0 = false)
    ∧ (∃ d, Reaches owned (.ctx 0) (A.doorbell 0 0) d 3)
    ∧ (owned.physOf 0 0 = 0 ∧ ∃ d, Reaches owned (.ctx 0) (A.ldoorbell 0) d (3 + 0 * 16)) :=
  ⟨by decide +kernel, reaches_of (by decide +kernel), by decide +kernel, reaches_of (by decide +kernel)⟩

theorem witness_DoorbellIsDropped :
    (ready.ringDropped 0 0 3 = true ∧ (ready.cl 0 0).retired = false ∧ ∃ d, Reaches ready .ralrad (A.doorbell 0 0) d 3)
    ∧ ((ready.setCl 0 0 { Cluster.init with retired := true }).cl 0 0).retired = true :=
  ⟨⟨by decide +kernel, by decide +kernel, reaches_of (by decide +kernel)⟩, by decide +kernel⟩

/-- Queues 0 and 1 of cluster 0 are starting; `n` tells how many commands queue 1 holds of its two. -/
def starting (n : Nat) : State :=
  let q (n : Nat) : Queue := { Queue.init with st := .starting, train := true, len := some 2, buf := (List.range n).map fun i => (i, cNop) }
  ready.setCl 0 0 { (Cluster.init.setQ 0 (q 2)).setQ 1 (q n) with starts := [3] }

theorem witness_StartBeat :
    (starting 2).beats 0 0 = true ∧ ((starting 2).cl 0 0).starts = [3]
    ∧ (∀ q, q < 4 → (3 : Nat).testBit q = true → ((starting 2).queue 0 0 q).loaded = true)
    ∧ (3 : Nat).testBit 1 = true ∧ ((starting 1).queue 0 0 1).loaded = false ∧ ((starting 1).cl 0 0).starts = [3] := by
  decide +kernel

theorem test_StartBeat :
    after (.startBeat 0 0) (starting 1) (fun t => decide (t = starting 1)) = true
    ∧ after (.startBeat 0 0) (starting 2) (fun t => (t.queue 0 0 1).st == .issuing && (t.cl 0 0).starts.isEmpty) = true := by
  decide +kernel

def fetching : State :=
  (ready.setRg 0 { Region.init with owner := some 0, loaded := true }).setCl 0 0
    (Cluster.init.setQ 0 { Queue.init with st := .starting, train := true, base := 0x1000, len := some 100 })

/-- What the fetch leaves, its request accepted and its accesses served. -/
def fetched : State :=
  match exec (.queueFetchRequest 0 0 0) fetching with
  | .next t => t.modRg 0 fun g => { g with waiting := [], accepted := g.waiting.map fun q => { q with walked := true, sent := true } }
  | _ => fetching

theorem witness_QueuesFetch :
    (Instr.wf (.queueFetchRequest 0 0 0) = true ∧ fetching.beats 0 0 = true ∧ fetching.up = true ∧ (fetching.rg 0).inReset = false
      ∧ fetching.mayFetch 0 0 0 = true)
    ∧ (Instr.wf (.queueFetchComplete 0 0 env0) = true ∧ fetched.portsIdle = true
      ∧ ((fetched.acceptedReq 0 0).map fun x => (x.k, x.kind, fetched.served 0 x)) = some (0, .fetch 0 (fetched.queue 0 0 0).gen 0x1000 0 64, true)) := by
  decide +kernel

def yielding : State :=
  ready.setCl 0 0 { Cluster.init with uaccs := [⟨0, 0, 0, 16⟩], lris := [] }

def missing : State := oneQ ready 0 { qWith cNop with buf := [] } []

theorem witness_BeatsPass :
    (one 0 cNop []).beats 0 0 = true ∧ ((one 0 cNop []).cl 0 0).yields = false ∧ (one 0 cNop []).beginBeat 0 0 = one 0 cNop []
    ∧ Unheld (one 0 cNop []) 0 0 env0 ∧ (one 0 cNop []).portsIdle = true ∧ ((one 0 cNop []).cl 0 0).slipNow = []
    ∧ (missing.beats 0 0 = true ∧ missing.portsIdle = true ∧ (missing.cl 0 0).slipNow = [] ∧ (missing.cl 0 0).yields = false
       ∧ missing.beginBeat 0 0 = missing ∧ missing.holdCause 0 0 env0 = some (A.holdFetch 0 0))
    ∧ yielding.beats 0 0 = true ∧ yielding.portsIdle = true ∧ (yielding.cl 0 0).slipNow = [] ∧ (yielding.cl 0 0).yields = true := by
  decide +kernel

/-- A NOP-like timed command in flight at its done point: SETID in queue 1, issued a beat ago. -/
def atDone : State :=
  let c := cmdW 0x089 0 []
  match exec (.vgrainSetid 0 0 0) (one 1 c []) with
  | .next t => t.setCl 0 0 { t.cl 0 0 with beat := 1, elapsed := 1 }
  | _ => ready

/-- A DESC_LOAD whose request is accepted and served. -/
def descLoaded : State :=
  match exec (.descLoad 0 0) (one 3 (cmdW 0x0E0 0 [(25, 1)]) []) with
  | .next t => t.modRg 0 fun g => { g with waiting := [], accepted := g.waiting.map fun q => { q with walked := true, sent := true } }
  | _ => ready

theorem witness_CommandsInFlightEnd :
    (Instr.wf (.timedDonePoint 0 0 0) = true ∧ atDone.beats 0 0 = true
      ∧ (((atDone.cl 0 0).dueDone.find? fun x => x.id == 0).map fun l => (l.q, l.cmd)) = some (1, cmdW 0x089 0 [])
      ∧ (atDone.rg 0).owner = none)
    ∧ (Instr.wf (.descLoadDone 0 0 env0) = true ∧ descLoaded.portsIdle = true
      ∧ ((descLoaded.acceptedReq 0 0).map fun x => (x.k, x.kind, descLoaded.served 0 x)) = some (0, .desc 0, true)
      ∧ (((descLoaded.cl 0 0).lri 0).map fun l => l.q) = some 3 ∧ ∀ l ∈ (descLoaded.cl 0 0).lris, l.q < 4) := by
  decide +kernel

/-! ### Witnesses: evaluation -/

def heldQ (len : Nat) : Queue := { Queue.init with st := .held, train := true, len := some len, pos := 1, origin := 0, buf := [(1, cNop)] }

/-- Queue 0 has issued its STEP_POINT in beat 0; the cluster is in beat 1. -/
def atStep : State := ready.setCl 0 0 { Cluster.init.setQ 0 (heldQ 2) with beat := 1, elapsed := 1 }

/-- An evaluation is enabled, with a stream for queue 0. -/
def atStepEval : State := (atStep.setReg (A.evalCtrl 0 0) 1#64).setReg (A.evalBase 0 0 0) 0x2000#64

theorem witness_StepPointTurns :
    (Instr.wf (.stepReturnNoSwitch 0 0) = true ∧ atStep.beats 0 0 = true ∧ (atStep.cl 0 0).phase = .train ∧ (atStep.cl 0 0).allHeld = true
      ∧ (atStep.cl 0 0).sliceDue = false ∧ atStep.noSwitch 0 0 = true
      ∧ ∀ q ∈ (atStep.cl 0 0).queues, q.training = true → q.loaded = true)
    ∧ (Instr.wf (.evalSwitch 0 0) = true ∧ atStepEval.beats 0 0 = true ∧ (atStepEval.cl 0 0).phase = .train ∧ (atStepEval.cl 0 0).allHeld = true
      ∧ (atStepEval.cl 0 0).sliceDue = false ∧ atStepEval.noSwitch 0 0 = false
      ∧ (atStepEval.queue 0 0 0).training = true ∧ atStepEval.fieldN (A.evalBase 0 0 0) 6 46 ≠ 0) := by
  decide +kernel

/-- The evaluation queue has its 64 commands; it has stopped; training has its commands back. -/
def toEval : State :=
  ready.setCl 0 0 { Cluster.init.setQ 0 { heldQ 2 with st := .fetching, len := none, pos := 0, buf := (List.range 64).map fun i => (i, cNop) } with
    phase := .toEval, beat := 5 }
def evalDone : State :=
  ready.setCl 0 0 { Cluster.init.setQ 0 { heldQ 2 with st := .stopped, len := none } with phase := .eval, beat := 9 }
def toTrain : State :=
  ready.setCl 0 0 { Cluster.init.setQ 0 { heldQ 2 with st := .fetching, back := true, tlen := 2, tpos := 1 } with phase := .toTrain, beat := 12 }

theorem witness_EvaluationsTurn :
    (toEval.beats 0 0 = true ∧ (toEval.cl 0 0).phase = .toEval ∧ ((toEval.cl 0 0).queues.filter Queue.evaluating).length = 1
      ∧ ((toEval.cl 0 0).queues.filter Queue.evaluating).all Queue.loaded = true)
    ∧ (evalDone.beats 0 0 = true ∧ (evalDone.cl 0 0).phase = .eval ∧ (∀ q ∈ (evalDone.cl 0 0).queues, q.evaluating = true → q.st = .stopped)
      ∧ ∀ l ∈ (evalDone.cl 0 0).lris, l.eval = false)
    ∧ (toTrain.beats 0 0 = true ∧ (toTrain.cl 0 0).phase = .toTrain
      ∧ ∀ q ∈ (toTrain.cl 0 0).queues, q.back = true → q.loaded = true) := by
  decide +kernel

/-! ### Witnesses: requests -/

/-- The next state of a command; the state itself where it answers none. -/
def nx (i : Instr) (s : State) : State := match exec i s with | .next t => t | _ => s

/-- Vectors in the region windows of context 0: lines of cluster 0, and the region buffer. -/
def win (o : Nat) : Desc1024 := f32 (winBase + o)

def cMv : Cmd512 := cmdW 0x0C0 3 []

/-- The stack of the page tables serves; context 0 maps its first GiB to local address 0. -/
def paged : State :=
  { (owned.setReg (A.ctxRoot 0) 0x1001#64).setReg (A.hbmStatus 1) 1#64 with
    mem := [⟨0x1000, 0x01#8⟩, ⟨0x1001, 0x50#8⟩, ⟨0x1002, 0x01#8⟩, ⟨0x15000, 0x47#8⟩] }

/-- Mover command `c` in flight at MV0 with these descriptors and this progress. -/
def mvLri (c : Cmd512) (ds : List Desc1024) (m : MvState) : Lri :=
  { id := 0, q := 3, unit := .mv0, cmd := c, ds := ds ++ [0, 0, 0, 0], issue := 0, done := none, intents := [], latches := [], carry := []
    grain := ⟨0, 0, 0, 0⟩, prog := none, fl := Flag.none, tileIn := [], eval := false, aux := [], mv := m }

def flying (s : State) (l : Lri) : State := s.setCl 0 0 { Cluster.init with lris := [l], nextId := 1 }

def going : MvState := { MvState.init with started := true, left := 1 }

/-- MVCOPY from the scratchpad to the region buffer is in flight. -/
def mvFlight : State := flying owned (mvLri cMv [win 0, win 0x3000000] MvState.init)

/-- One request of it: 4 bytes from `src` to `dst`. -/
def mvReq (src dst : Nat) (ps : List Page) (walked : Bool) : Req :=
  ⟨7, .mover 0 0 0 0 1, 0, 0, 1, ps, walked, if walked then some 0 else none, 99, false, [], [⟨some (8 * src), 0, 8 * dst, 32, 0, 0, false⟩], true⟩

/-- MVCOPY from the region buffer to `dst`: a request that waits for its translation, or that has it. -/
def mvWaits (dst : Desc1024) (walked : Bool) : State :=
  (flying paged (mvLri cMv [win 0x3000000, dst] going)).modRg 0 fun g =>
    { g with waiting := [{ mvReq 0 0 [] walked with moves := [], sent := false }], misses := [7] }

def mvMissed : State := mvWaits (f32 0x29000) false
/-- Its destination lies in the scratchpad. -/
def mvPresented : State := mvWaits (win 0) true

def page0 (out : Nat) : Page := ⟨0, 0, 0x40000000, out, true, false, true, false, 1, 0x15000⟩

theorem witness_RequestsPass :
    (mvFlight.up = true ∧ (mvFlight.rg 0).inReset = false ∧ ((mvFlight.moverNext 0 0 0).map fun l => (MvOp.ofCmd l.cmd).isSome) = some true)
    ∧ (mvMissed.up = true ∧ (mvMissed.rg 0).inReset = false ∧ ((mvMissed.waitingReq 0 7).map fun q => mvMissed.mayWalk 0 q env0) = some true)
    ∧ ((mvPresented.waitingReq 0 7).map fun q => mvPresented.mayAccept 0 q env0) = some true := by
  decide +kernel

theorem test_RequestsPass :
    after (.moverCommandStart 0 0 0 env0) mvFlight (fun t => (t.cl 0 0).lris.all fun l => l.mv.started) = true
    ∧ after (.translationWalk 0 7 4 env0) mvMissed (fun t =>
        ((t.waitingReq 0 7).map fun q => (q.walked, q.pages.map Page.out)) == some (true, [0])) = true
    ∧ after (.admissionAccept 0 7 env0) mvPresented (fun t => (t.rg 0).waiting.isEmpty && (t.acceptedReq 0 7).isSome) = true := by
  decide +kernel

/-- A mover request is accepted, its names are ones the module has, its packets have left and it waits for nothing more. -/
def leaves (s : State) (id : Nat) : Bool :=
  match s.acceptedReq 0 id with
  | some x => match x.kind, s.mvOf 0 x with
    | .mover _ m part _ _, some (l, _) => s.portsIdle && m < 2 && x.k < 9 && (s.cl 0 x.k).lris.all (fun y => y.q < 4) && s.ripe 0 x l part
    | _, _ => false
  | none => false

/-- An accepted request of MVCOPY within the region, its accesses served. -/
def served : State :=
  (flying owned (mvLri cMv [win 0, win 0x3000000] going)).modRg 0 fun g =>
    { g with accepted := [mvReq winBase (winBase + 0x3000000) [] true] }

/-- The same with its destination in a page that leads to `out`. -/
def farTo (out : Nat) : State :=
  (flying owned (mvLri cMv [win 0x3000000, f32 0] going)).modRg 0 fun g =>
    { g with accepted := [mvReq (winBase + 0x3000000) 0 [page0 out] true] }

/-- A request to module 5, one packet of which is not answered. -/
def toPeer : State :=
  { (flying owned (mvLri (cmdW 0x0C0 3 [(18, 0x1005)]) [win 0x3000000, f32 0] going)).modRg 0 (fun g =>
      { g with accepted := [mvReq (winBase + 0x3000000) 0 [] true] }) with
    sent := [⟨0, 5, 0, 7, 0, 128, false, false, 0, [], 0⟩] }

theorem witness_RequestsLeave :
    leaves served 7 = true
    ∧ (leaves (farTo cxlBase) 7 = true ∧ (((farTo cxlBase).acceptedReq 0 7).map fun x =>
        (((farTo cxlBase).reqPlaces 0 x).1 ++ ((farTo cxlBase).reqPlaces 0 x).2).any Loc.cxl) = some true)
    ∧ (leaves (farTo mlmBase) 7 = true ∧ (((farTo mlmBase).acceptedReq 0 7).map fun x =>
        (((farTo mlmBase).reqPlaces 0 x).1 ++ ((farTo mlmBase).reqPlaces 0 x).2).any Loc.companion) = some true)
    ∧ (toPeer.portsIdle = true ∧ ((toPeer.acceptedReq 0 7).map fun x => ((toPeer.mvOf 0 x).isSome, (toPeer.farMod 0 x).isSome)) = some (true, true)
        ∧ (toPeer.sentOf 0 7).any (fun y => !y.done) = true) := by
  decide +kernel

theorem test_RequestsLeave :
    after (.moverRequestComplete 0 7 env0) served (fun t => (t.acceptedReq 0 7).isNone && (t.cl 0 0).lris.isEmpty) = true
    ∧ after (.cxlRequestTimeout 0 7 env0) (farTo cxlBase) (fun t => (t.acceptedReq 0 7).isNone && t.regN (A.cxlTimeouts 0) == 1) = true
    ∧ after (.mlmWindowTimeout 0 7 env0) (farTo mlmBase) (fun t => (t.acceptedReq 0 7).isNone && t.regN A.mlmTimeouts == 1) = true
    ∧ after (.remoteRequestTimeout 0 7 env0) toPeer (fun t => (t.acceptedReq 0 7).isNone) = true := by
  decide +kernel

/-! ### Witnesses: counters, barriers, the maquette -/

/-- Counter 0 of the region's node has an increment that cluster 0 does not see. -/
def unseen : State :=
  ((nx (.syncPoke .ralrad 0 0 5) owned).modCl 0 0 fun c => { c with elapsed := 3 })

theorem witness_NodeCountersIncrement :
    (Instr.wf (.syncPoke .ralrad 0 0 5) = true ∧ ∃ d, Reaches owned .ralrad (A.poke 0) d (0 + 5 * 65536))
    ∧ (Instr.wf (.incrementVisible 0 0 0) = true
      ∧ ((((unseen.rg 0).unseen.filter fun u => u.k == 0 && !u.own)[0]?).map fun u => decide (u.at_ < (unseen.cl 0 0).elapsed)) = some true) :=
  ⟨⟨by decide +kernel, reaches_of (by decide +kernel)⟩, by decide +kernel⟩

theorem test_NodeCountersIncrement :
    after (.syncPoke .ralrad 0 0 0xFFFFFF) unseen (fun t => ((t.rg 0).ctr 0).count == ctrMax && t.regN (A.syncSat 0) == 1) = true
    ∧ after (.incrementVisible 0 0 0) unseen (fun t => (t.rg 0).unseen.length + 1 == (unseen.rg 0).unseen.length) = true := by
  decide +kernel

def barF (scope : Nat) : BarF := ⟨7, scope, 15, true⟩
/-- Region 0's node holds what it expects of a barrier of this scope. -/
def barHeld (scope : Nat) : State :=
  { owned with bars := [⟨.region 0, barF scope, owned.expected ⟨.region 0, barF scope, 0, 0, 0, false, [], 0⟩, 0, 0, false, [], 0⟩] }
def released : State := { barHeld 1 with rels := [⟨.region 0, barF 1, 0, 0⟩], bars := (barHeld 1).bars.map fun x => { x with sent := true } }

theorem witness_BarriersReleaseRegions :
    ((barHeld 1).up = true ∧ (((barHeld 1).bars.filter (barHeld 1).barComplete)[0]?).map (fun e => (e.node, e.f.scope)) = some (.region 0, 1))
    ∧ (((barHeld 2).bars.filter (barHeld 2).barComplete)[0]?).map (fun e => (e.node, e.f.scope)) = some (.region 0, 2)
    ∧ released.rels[0]? = some ⟨.region 0, barF 1, 0, 0⟩ := by
  decide +kernel

theorem test_BarriersReleaseRegions :
    after (.barrierNodeArrival 0) (barHeld 1) (fun t => t.rels.length == 1) = true
    ∧ after (.barrierNodeArrival 0) (barHeld 2) (fun t => t.bars.any fun x => x.node == .die 0 0 && x.count == 1) = true
    ∧ after (.barrierRelease 0) released (fun t => t.bars.isEmpty && t.regN (A.epoch 0) == 1 && t.rels.any fun x => x.node == .cluster 0 0) = true := by
  decide +kernel

/-- A set whose power cap is 700 W is loaded, and its swap is asked for. -/
def swapping : State :=
  { ready.setReg A.maqStatus 12#64 with maq := some { CfgSet.default with cap := 700, grace := 50 } }

theorem witness_MaquetteSwaps :
    swapping.up = true ∧ swapping.swapping = true ∧ swapping.anyOwned = false ∧ swapping.maq = some { CfgSet.default with cap := 700, grace := 50 } := by
  decide +kernel

theorem test_MaquetteSwaps :
    after .swapBeat swapping (fun t => t.fieldN A.govCtrl 0 11 == 700 && t.maq.isNone && t.regN A.maqStatus == 0) = true := by
  decide +kernel

/-! ### Witnesses: control writes -/

theorem witness_RegisterWriteStores :
    Instr.wf (.registerWrite (.ctx 0) (A.qLen 0 0 0) 7#64) = true ∧ reachesB owned (.ctx 0) (A.qLen 0 0 0) 7 = true
    ∧ ((regAt (A.qLen 0 0 0)).map fun d => (d.acc != .ro && !d.wo && !d.isCounter && d.kind != .power)) = some true
    ∧ actionReg (A.qLen 0 0 0) = false := by
  decide +kernel

theorem test_RegisterWriteStores :
    after (.registerWrite (.ctx 0) (A.qLen 0 0 0) (BitVec.ofNat 64 (2 ^ 40 + 5))) owned (fun t => t.regN (A.qLen 0 0 0) == 5) = true
    ∧ after (.registerWrite .operator A.govStatus 0x200#64) (ready.setReg A.govStatus 0x201#64) (fun t => t.regN A.govStatus == 1) = true := by
  decide +kernel

theorem witness_RegisterWriteRefused :
    (Instr.wf (.registerWrite (.ctx 1) (A.qLen 0 0 0 + 4) 7#64) = true ∧ owned.csrOpen (.ctx 1) (A.qLen 0 0 0 + 4) true = true ∧ (A.qLen 0 0 0 + 4) % 8 ≠ 0)
    ∧ (isSfuWindow (A.cfg 0x18) = false ∧ inView .operator (A.cfg 0x18) = true ∧ regAt (A.cfg 0x18) = none)
    ∧ ((regAt (A.qLen 0 0 0)).map fun d => (owned.inGated d, owned.mayWrite (.ctx 1) (A.qLen 0 0 0) d 7)) = some (false, false)
    ∧ (reachesB owned .operator A.ident 7 = true ∧ ((regAt A.ident).map fun d => d.acc == .ro) = some true)
    ∧ (reachesB owned (.ctx 0) (A.maCmds 0 0) 0 = true ∧ ((regAt (A.maCmds 0 0)).map fun d => (d.acc != .ro && d.kind == .ctr)) = some true) := by
  decide +kernel

theorem test_RegisterWriteRefused :
    after (.registerWrite (.ctx 1) (A.qLen 0 0 0) 7#64) owned (fun t => t.regN A.denied == 1 && t.regN (A.qLen 0 0 0) == 100) = true
    ∧ after (.registerWrite (.ctx 0) (A.maCmds 0 0) 0#64) (owned.setReg (A.maCmds 0 0) 9#64) (fun t => t.regN (A.maCmds 0 0) == 0) = true
    ∧ after (.registerWrite (.ctx 0) (A.maCmds 0 0) 1#64) (owned.setReg (A.maCmds 0 0) 9#64) (fun t => t.regN (A.maCmds 0 0) == 9) = true := by
  decide +kernel

theorem witness_PowerCapIsClamped :
    (Instr.wf (.pwrGovCtrlWrite .operator 1601) = true ∧ ∃ d, Reaches ready .operator A.govCtrl d 1601)
    ∧ (Instr.wf (.registerWrite .operator A.govCtrl (BitVec.ofNat 64 (2 ^ 11 + 599))) = true
      ∧ ∃ d, Reaches ready .operator A.govCtrl d (2 ^ 11 + 599)) :=
  ⟨⟨by decide +kernel, reaches_of (by decide +kernel)⟩, by decide +kernel, reaches_of (by decide +kernel)⟩

theorem test_PowerCapIsClamped :
    ([599, 600, 1600, 1601].map fun w => after (.registerWrite .operator A.govCtrl (BitVec.ofNat 64 (2 ^ 11 + w))) ready
      (fun t => t.regN A.govCtrl == max 600 (min 1600 w))) = [true, true, true, true] := by
  decide +kernel

/-- A member of the fabric: module 5 in epoch 9. -/
def member : State := owned.setReg A.member (BitVec.ofNat 64 (5 + 1 * 2 ^ 12 + 9 * 2 ^ 16))

theorem witness_PlinthWritesAct :
    (∃ d, Reaches ready .ralrad A.grace d 9) ∧ (ready.up = true ∧ ∃ d, Reaches ready .ralrad (A.ctxJob 0) d (7 + 65536))
    ∧ (∃ d, Reaches ready .ralrad A.mboxTail d 0) ∧ (∃ d, Reaches ready .ralrad A.mlmWin d 1)
    ∧ ((∃ d, Reaches ready .ralrad A.join d (5 + 9 * 65536 + 2 ^ 32)) ∧ ready.fieldN A.member 12 2 = 0)
    ∧ ((∃ d, Reaches member .ralrad A.join d (5 + 10 * 65536 + 2 ^ 32)) ∧ member.isMember = true ∧ newerEpoch 10 member.fabEpoch = true) :=
  ⟨reaches_of (by decide +kernel), ⟨by decide +kernel, reaches_of (by decide +kernel)⟩, reaches_of (by decide +kernel), reaches_of (by decide +kernel),
    ⟨reaches_of (by decide +kernel), by decide +kernel⟩, reaches_of (by decide +kernel), by decide +kernel, by decide +kernel⟩

theorem test_PlinthWritesAct :
    ([9, 10, 10000, 10001].map fun ms => after (.ekbGraceWrite .ralrad ms) ready (fun t => t.regN A.grace == max 10 (min 10000 ms)))
      = [true, true, true, true]
    ∧ after (.ekbCtxJobWrite .ralrad 1 7 true) (ready.setReg (A.ctxJob 0) (BitVec.ofNat 64 (7 + 65536))) (fun t => t.regN (A.ctxJob 1) == 0) = true
    ∧ after (.memMlmWin .ralrad 1) ready (fun t => t.regN A.mlmWin == 0 && t.regN A.cfgRefused == 1) = true
    ∧ after (.memMlmWin .ralrad 1) (ready.setReg A.shape (BitVec.ofNat 64 (2 ^ 21))) (fun t => t.regN A.mlmWin == 1) = true
    ∧ after (.cfgMboxOutTail .ralrad 0xFFFFFFFF) ready (fun t => t.regN A.mboxTail == 0xFFFFFFFF) = true
    ∧ after (.cfgMboxOutTail .ralrad 1) ready (fun t => t.regN A.mboxTail == 0) = true := by
  decide +kernel

theorem test_Join :
    after (.ekbJoin .ralrad 5 9 true) ready (fun t => t.isMember && t.modNum == 5 && t.fabEpoch == 9) = true
    ∧ after (.ekbJoin .ralrad 5 10 true) member (fun t => t.isMember && t.fabEpoch == 10) = true
    ∧ after (.ekbJoin .ralrad 6 10 true) member (fun t => t.fabEpoch == 9 && t.regN A.joinRefused == 1) = true := by
  decide +kernel

/-- Region 0 works and is free. -/
def freeR : State := ready.setReg (A.regionShape 0) 0x18#64

theorem witness_OwnershipAndResetsBegin :
    (∃ d, Reaches freeR .ralrad A.regionAssign d (0 + 3 * 64 + 1024)) ∧ freeR.activating = false ∧ freeR.assignOk 0 = true ∧ owned.assignOk 0 = false
    ∧ (∃ d, Reaches owned .ralrad A.regionAssign d (0 + 2048)) ∧ (owned.rg 0).owner = some 0 ∧ owned.bit A.assignStatus 0 = false
    ∧ (∃ d, Reaches ready .ralrad A.resetReq d (0 * 2 + 128)) ∧ ready.resetting 0 = false
    ∧ (∃ d, Reaches ready .ralrad A.resetReq d (1 + 0 * 2 + 128)) ∧ (0 : Nat) ∉ ready.dieReset :=
  ⟨reaches_of (by decide +kernel), by decide +kernel, by decide +kernel, by decide +kernel, reaches_of (by decide +kernel), by decide +kernel,
    by decide +kernel, reaches_of (by decide +kernel), by decide +kernel, reaches_of (by decide +kernel), by decide +kernel⟩

theorem test_OwnershipAndResetsBegin :
    after (.assign .ralrad 0 3) freeR (fun t => t.bit A.assignStatus 0 && (t.rg 0).job == .assign 3) = true
    ∧ after (.assign .ralrad 0 3) owned (fun t => t.bit A.assignStatus 1 && (t.rg 0).job == .none) = true
    ∧ after (.release .ralrad 0) owned (fun t => (t.rg 0).job == .release && (t.rg 0).inReset && t.bit (A.regionEpoch 0) 31) = true
    ∧ after (.regionReset .ralrad 0) owned (fun t => (t.rg 0).inReset && (t.rg 0).owner == some 0 && t.bit A.resetStatus 0) = true
    ∧ after (.dieReset .ralrad 0) owned (fun t => t.dieReset == [0] && (t.rg 11).inReset && !(t.rg 12).inReset && !t.bit (A.hbmStatus 4) 0) = true := by
  decide +kernel

/-- Data-protected mode; context 0 owns region 0, holds a key, and has one PROT page in its tables; the DRBG is healthy. -/
def protectd : State :=
  let s := (paged.setReg (A.keyStatus 0) 1#64).setReg A.secStatus 4#64
  { (s.setCx 0 { Ctx.init with cur := some 9 }) with
    active := { CfgSet.default with dataProt := true }, mem := [⟨0x1000, 0x01#8⟩, ⟨0x1001, 0x50#8⟩, ⟨0x1002, 0x01#8⟩, ⟨0x15000, 0x4F#8⟩] }

theorem witness_SecurityCommandsAct :
    (∃ d, Reaches protectd .ralrad A.secRotate d (0 + 16)) ∧ protectd.activating = false ∧ protectd.dataProt = true
    ∧ protectd.fieldN (A.keyStatus 0) 0 2 = 1 ∧ protectd.rngOk = true ∧ protectd.sweepList 0 ≠ []
    ∧ (∃ d, Reaches ready .ralrad A.scrubCtrl d (2 + 1048576)) ∧ ready.scrubOk 0 2 = true ∧ ready.scrubOk 0 0 = false
    ∧ (∃ d, Reaches owned (.ctx 0) A.xlateInv d (0 + 0 + 0x200000)) ∧ owned.inv = none :=
  ⟨reaches_of (by decide +kernel), by decide +kernel, by decide +kernel, by decide +kernel, by decide +kernel, by decide +kernel,
    reaches_of (by decide +kernel), by decide +kernel, by decide +kernel, reaches_of (by decide +kernel), by decide +kernel⟩

theorem test_SecurityCommandsAct :
    after (.secRotate .ralrad 0) protectd (fun t => (t.cx 0).cur == some protectd.nextKey && (t.cx 0).prev == some 9 && t.fieldN (A.keyStatus 0) 0 2 == 2) = true
    ∧ after (.secRotate .ralrad 0) ready (fun t => t.regN A.rotRefused == 1) = true
    ∧ after (.scrubGo .ralrad 2) ready (fun t => t.scrub == [0, 0x200000] && t.bit A.scrubStatus 0) = true
    ∧ after (.scrubGo .ralrad 0) ready (fun t => t.scrub.isEmpty && t.bit A.scrubStatus 2) = true
    ∧ after (.memXlateInv (.ctx 0) 0 false 0x200000) (owned.modRg 1 fun g => { g with cache := [page0 0, { page0 0 with ctx := 1 }] })
        (fun t => t.inv == some (0, false, 0x200000) && (t.rg 1).cache.length == 1) = true := by
  decide +kernel

/-! ### Witnesses: maquette, activation, staging, mail, health -/

/-- A maquette is held. -/
def holding : State := { ready.setReg A.maqStatus 2#64 with maq := some CfgSet.default }

theorem witness_MaquetteAndActivationBegin :
    reachesB ready .ralrad A.maqCtrl (ready.fieldN A.maqCtrl 2 1 * 4 + 1) = true ∧ ready.staging = false ∧ ready.maqBusy = false
    ∧ reachesB holding .ralrad A.maqCtrl (4 + 2) = true ∧ holding.maqState = 2 ∧ reachesB ready .ralrad A.maqCtrl 2 = true ∧ ready.maqState ≠ 2
    ∧ reachesB holding .ralrad A.maqCtrl (holding.fieldN A.maqCtrl 2 1 * 4 + 8) = true
    ∧ reachesB ready .ralrad A.fwCtrl (1 + 2) = true ∧ ready.slotCheck (1 - ready.runningSlot) = 3 ∧ ready.activating = false ∧ ready.up = true := by
  decide +kernel

theorem test_MaquetteAndActivationBegin :
    after (.maqLoad .ralrad) ready (fun t => t.regN A.maqStatus == 1) = true
    ∧ after (.maqSwap .ralrad true) holding (fun t => t.swapping && t.bit A.maqCtrl 2) = true
    ∧ after (.maqSwap .ralrad true) ready (fun t => t.regN A.cfgRefused == 1 && t.maqState == 0) = true
    ∧ after (.maqDiscard .ralrad) holding (fun t => t.maqState == 0 && t.maq.isNone) = true
    ∧ after (.fwActivate .ralrad true) ready (fun t => t.fieldN A.fwStatus 4 4 == 3 && !t.activating) = true := by
  decide +kernel

/-- The inbox holds a message of TYPE 1 with no further bytes. -/
def posted : State := { ready with inbox := [(0, 1#8)] }

theorem witness_StagingAndMailActs :
    reachesB ready .ralrad A.stageCtrl (0x1000 + 0 * 33554432 + 67108864) = true ∧ ready.stageError env0 0x1000 0 = 12 ∧ ready.stageError env0 0x1000 1 = 12 ∧ ready.stageError env0 0xFFF 1 = 11
    ∧ reachesB ready .ralrad A.bootSel (1 + 0 * 2 + 4) = true ∧ ready.staging = false ∧ ready.slotCheck 1 ≠ 0
    ∧ reachesB posted .ralrad A.mboxInCtrl (16 + 8192) = true ∧ posted.bit A.mboxInStatus 0 = false ∧ bytesToNat (posted.inboxBytes 2) = 1
    ∧ bytesToNat ((posted.inboxBytes 4).drop 2) + 16 = 16 ∧ bytesToNat (ready.inboxBytes 2) ≠ 1 := by
  decide +kernel

theorem test_StagingAndMailActs :
    after (.stageGo .ralrad 0x1000 0 env0) ready (fun t => t.fieldN A.stageStatus 4 4 == 12 && t.regN A.cfgRefused == 1 && !t.staging) = true
    ∧ after (.cfgBootSel .ralrad 1 0) ready (fun t => t.fieldN A.hdrStatus 4 4 == 3) = true
    ∧ after (.mboxInGo .ralrad 16) posted (fun t => t.bit A.mboxInStatus 0 && (t.taking.map List.length) == some 16) = true
    ∧ after (.mboxInGo .ralrad 17) posted (fun t => t.bit A.mboxInStatus 2 && t.taking.isNone) = true := by
  decide +kernel

/-- Region 0 works; cluster 0 of it has failed a test. -/
def flagged : State := (owned.setReg (A.regionShape 0) 0x18#64).setReg (A.hltCluster 0) 0x102#64

/-- Context 0 has a snapshot list of one part of 2 MiB at 0 in its pages, with a destination clear of it. -/
def listed : State :=
  let s := ((paged.setReg (A.snapList 0) (BitVec.ofNat 64 0x29000)).setReg (A.snapDest 0) (BitVec.ofNat 64 0x1000000)).setReg (A.hbmStatus 0) 1#64
  { s with mem := s.mem ++ [⟨0x29000, 1#8⟩, ⟨0x29018, 1#8⟩] }

theorem witness_HealthCommandsAct :
    flagged.up = true ∧ flagged.activating = false ∧ (flagged.cl 0 0).retired = false ∧ (flagged.cl 0 1).retired = false ∧
    reachesB flagged .ralrad A.bistReq (0 + 3 * 64 + 5 * 32768 + 2 * 8388608 + 67108864) = true ∧ flagged.bit (A.regionShape 0) 4 = true
    ∧ (∀ k, k < 9 → (3 : Nat).testBit k = true → (flagged.cl 0 k).retired = false)
    ∧ reachesB flagged .ralrad A.bistReq (0 + 134217728) = true
    ∧ reachesB flagged .ralrad A.hltRetire (0 + 0 * 64 + 1024) = true ∧ flagged.fieldN (A.hltCluster (9 * 0 + 0)) 0 8 ≠ 0
    ∧ reachesB flagged .ralrad A.hltRetire (0 + 1 * 64 + 1024) = true ∧ flagged.fieldN (A.hltCluster (9 * 0 + 1)) 0 8 = 0
    ∧ flagged.bit (A.hltCluster (9 * 0 + 1)) 24 = false ∧ flagged.regN (A.colFail (9 * 0 + 1)) = 0
    ∧ reachesB flagged .ralrad A.abist (2 ^ 41) = true ∧ reachesB flagged .ralrad A.hltRecover (0x5243 + 65536) = true
    ∧ (reachesB listed .ralrad (A.snapCtl 0) (listed.regN (A.snapCtl 0) ||| 2) = true ∧ listed.regN (A.snapCtl 0) = 0 ∧ ((regAt (A.snapCtl 0)).map fun d =>
        ((listed.storeFields (A.snapCtl 0) d 2).snapParts env0 0, (ready.storeFields (A.snapCtl 0) d 2).snapParts env0 0)) = some (some [0], none)
      ∧ listed.fieldN (A.snapStatus 0) 0 3 = 0) := by
  decide +kernel

theorem test_HealthCommandsAct :
    after (.bistReqGo .ralrad 0 3 5 2) flagged (fun t => (t.cl 0 1).slices.pend == [(0, 2), (2, 2)] && (t.cl 0 2).slices.pend.isEmpty) = true
    ∧ after (.bistReqGo .ralrad 0 3 0 2) flagged (fun t => t.bit A.bistStatus 1) = true
    ∧ after (.hltRetire .ralrad 0 0) flagged (fun t => (t.rg 0).retirePend == [0] && t.bit (A.regionShape 0) 10) = true
    ∧ after (.hltRetire .ralrad 0 1) flagged (fun t => (t.rg 0).retirePend.isEmpty) = true
    ∧ after (.abistRerun .ralrad 5 0 0) flagged (fun t => t.fieldN A.abist 0 8 == 5) = true
    ∧ after (.hltRecover .ralrad 0x5243 true) flagged (fun t => t.boot == .recovering && !t.pins.ready) = true
    ∧ after (.hltRecover .ralrad 0x5244 true) flagged (fun t => t.boot == .ready) = true
    ∧ after (.snapReq .ralrad 0 env0) listed (fun t => t.fieldN (A.snapStatus 0) 0 3 == 1 && (t.cx 0).snap.parts == [0]) = true
    ∧ after (.snapReq .ralrad 0 env0) ready (fun t => t.regN (A.snapStatus 0) == 4 && t.regN A.snapRefused == 1) = true := by
  decide +kernel

/-! ### Witnesses: power, pace and monitors -/

/-- Region 0 works and cluster 0 of it runs at 1.1 Gbeat/s; the cap is 600 W. -/
def warm : State := ((freeR.setReg (A.pace 0 0) 1100#64).setReg A.govCtrl 600#64).setReg A.bistCtrl 0x21#64

def calm : Readings := ⟨700, 710, 60000, 1000, 9, [50, 51, 52, 53, 54], 50⟩

theorem witness_GovernorTakesOneAction :
    warm.up = true ∧ warm.portsIdle = true ∧ warm.fieldN A.govCtrl 0 11 < calm.power ∧ warm.admDown < 24
    ∧ (∀ d, d < 4 → ((warm.diePaces d).all fun v => decide (v ≤ 1120)) = true) ∧ warm.diePaces 0 = [1100] := by
  decide +kernel

theorem test_GovernorTakesOneAction :
    after (.governorInterval calm) warm (fun t => t.admDown == 1 && t.rails == warm.rails && t.regN A.admSteps == 1 && t.regN A.pwrPeak == 710) = true
    ∧ after (.governorInterval calm) (warm.setReg (A.pace 0 0) 1200#64) (fun t => t.admDown == 0 && nth 0 t.rails 0 + 5 == nth 0 warm.rails 0) = true
    ∧ after (.governorInterval { calm with power := 1, temps := [106] }) { warm with admDown := 2 } (fun t => t.bit A.govStatus 9 && t.admDown ≤ 3) = true := by
  decide +kernel

theorem witness_MeasurementsAreShown :
    warm.up = true ∧ warm.inService 0 0 = true ∧ 0 < calm.energy ∧ calm.temps[4]? = some 54 := by
  decide +kernel

theorem test_MeasurementsAreShown :
    after (.paceMeasurement 0 0 1250) (warm.setReg (A.hltCluster 0) 0x320000#64) (fun t => t.regN (A.pace 0 0) == 1200 && t.fieldN (A.diePace 0) 0 16 == 1200) = true
    ∧ after (.telemetryUpdate { calm with temps := [-7, 128] }) warm (fun t => t.fieldN A.pwrIn 0 12 == 700 && t.fieldN A.pwrIn 12 16 == 60000
        && signed 8 (t.fieldN A.pwrTemp 0 8) == -7 && t.regN A.energy == 9) = true := by
  decide +kernel

theorem witness_PatinaFlagsTheCluster :
    warm.up = true ∧ warm.inService 0 0 = true ∧ warm.fieldN A.bistCtrl 1 8 = 16 ∧ warm.bit A.bistCtrl 0 = true
    ∧ warm.bit (A.hltCluster 0) 24 = false := by
  decide +kernel

theorem test_PatinaFlagsTheCluster :
    after (.patinaMonitor 0 0 15) warm (fun t => t.fieldN (A.hltCluster 0) 16 8 == 15 && !t.bit (A.hltCluster 0) 24) = true
    ∧ after (.patinaMonitor 0 0 16) warm (fun t => t.bit (A.hltCluster 0) 24 && (t.rg 0).retirePend == [0] && t.bit (A.regionShape 0) 10) = true := by
  decide +kernel

/-- The monitor is enabled at a threshold of 0. -/
def alert : State := ready.setReg A.snapCtrl 0x1000000#64

theorem witness_HealthMonitorTriggers :
    alert.up = true ∧ alert.activating = false ∧ alert.fieldN A.snapCtrl 0 8 ≤ min 255 (sumNat alert.scores) ∧ alert.bit A.snapCtrl 24 = true
    ∧ alert.health.armed = true ∧ alert.health.since = none
    ∧ min 255 (sumNat ready.scores) < ready.fieldN A.snapCtrl 0 8 := by
  decide +kernel

theorem test_HealthMonitorTriggers :
    after (.healthMonitorTick env0) alert (fun t => !t.health.armed && t.health.since == some 0 && t.regN A.snapTriggers == 1) = true
    ∧ after (.healthMonitorTick env0) ready (fun t => t.health.armed && t.regN A.snapTriggers == 0) = true := by
  decide +kernel

/-- Context 0 owns a loaded region and has made no progress at two samples; the watchdog asks for two. -/
def stuck : State :=
  let s := one 0 cNop []
  ({ s with active := { CfgSet.default with wdog := 100 } }.modRg 0 fun g => { g with owner := some 0, loaded := true }).setCx 0
    { Ctx.init with hist := [(s.progress 0).1 |> fun n => (n, true), ((s.progress 0).1, true)] }

theorem witness_HeartbeatBeats :
    ready.up = true ∧ ready.activating = false ∧ ready.wdog.stopped = false ∧ ready.wdog.fired = 0 ∧ ready.sampleProgress.2 = 0
    ∧ stuck.sampleProgress.2 = 1 ∧ stuck.wdog.fired = 0 := by
  decide +kernel

theorem test_HeartbeatBeats :
    after .heartbeat ready (fun t => t.wdog.sent == 1 && t.fieldN A.hltHeartbeat 32 3 == 0) = true
    ∧ after .heartbeat stuck (fun t => t.wdog.fired == 1 && t.fieldN A.hltHeartbeat 32 3 == 2 && t.regN A.wdogFires == 1) = true
    ∧ after .heartbeat { stuck with wdog := ⟨7, 3, false⟩ } (fun t => t.wdog.stopped && t.wdog.sent == 7) = true := by
  decide +kernel

/-- Every stack is trained. -/
def stacked : State := (List.range 20).foldl (fun s k => s.setReg (A.hbmStatus k) 1#64) (ready.setReg A.secStatus 4#64)

theorem witness_BackgroundWork :
    stacked.bit (A.hbmStatus 0) 0 = true ∧ stacked.patrolAt 0 = 0 ∧ stacked.resetting 0 = false
    ∧ (stacked.isGated 0 0 = false ∧ (stacked.cl 0 0).retired = false ∧ (stacked.cl 0 0).slices.running = none)
    ∧ stacked.scrubLineAt 0 0 40 = rbAddr 0 1024 ∧ stacked.rngOk = true ∧ stacked.up = true ∧ stacked.portsIdle = true := by
  decide +kernel

theorem test_BackgroundWork :
    after (.patrolScrub 0 { env0 with bad := [0] }) stacked (fun t => (t.granAt 0).poison && t.regN (A.hbmUe 0) == 1) = true
    ∧ after (.patrolScrub 0 { env0 with ce := [0] }) stacked (fun t => !(t.granAt 0).poison && t.regN (A.hbmCe 0) == 1) = true
    ∧ after (.sramScrubRead 0 0 40 { env0 with ce := [rbAddr 0 1028, rbAddr 0 1152], ue := [rbAddr 0 1024] }) stacked (fun t => t.regN (A.spCe 0) == 1 && t.regN (A.spUe 0) == 1) = true
    ∧ after (.hbmRecalibration env0) { stacked with recal := 20 } (fun t => t.recal == 1) = true
    ∧ after (.analogueCheck 5 10 11) stacked (fun t => t.fieldN A.abist 34 7 == 5 + 32) = true
    ∧ after (.drbgReseed true) { stacked with drbg := 9 } (fun t => t.drbg == 0 && t.rngOk) = true
    ∧ after (.drbgReseed false) stacked (fun t => !t.rngOk && t.outbox == [.pldm 1 0]) = true := by
  decide +kernel

/-! ### Witnesses: power, boot, resets and Ralrad's work -/

/-- VIN is absent. -/
def dark : State := { ready with boot := .off }

theorem witness_PowerEventsReset :
    dark.boot = .off ∧ dark.firm.stage = none ∧ ready.boot ≠ .off ∧
    ready.firm.stage = none ∧ ready.alive = true ∧ ready.pins.porst = true ∧ ready.boot ≠ .tripped := by
  decide +kernel

theorem test_PowerEventsReset :
    after .porstAssert holding (fun t => t.boot == .porst && t.maq.isNone && t.regs == State.reset.regs && !t.pins.porst) = true
    ∧ after (.vinUndervoltage 49999 0) holding (fun t => t.boot == .held && t.maq.isNone) = true
    ∧ after (.vinUndervoltage 53999 10000) holding (fun t => t.boot == .ready && t.bit A.govStatus 9 && t.bit A.vinStatus 0) = true
    ∧ after (.vinOvervoltage 66001 0) holding (fun t => t.boot == .held) = true
    ∧ after (.vinOvervoltage 66000 100000) holding (fun t => t.boot == .ready && t.bit A.vinStatus 1) = true
    ∧ after (.thermalTrip 115 0 100) holding (fun t => t.boot == .tripped && !t.pins.thermtrip) = true
    ∧ after (.recovEdge 999) holding (fun t => t.boot == .ready) = true
    ∧ after (.recovEdge 1000) holding (fun t => t.boot == .recovering && !t.pins.ready) = true := by
  decide +kernel

def env1 : BootEnv := ⟨true, 2 ^ 20 - 1, [], true, [], [], [], [], 0, [], [], [], 0, [], 3, 1500⟩

/-- What a header copy holds before its digest: SEQ 7, slot 1, set 0. -/
def hdrBytes : List Byte :=
  natToBytes 4 0x4846534C ++ natToBytes 2 1 ++ natToBytes 2 0 ++ natToBytes 8 7 ++ natToBytes 1 1 ++ natToBytes 1 0 ++ natToBytes 2 0 ++ natToBytes 4 64
    ++ natToBytes 8 0

/-- PORST_N low, with a header copy that is valid whatever SHAKE256 gives, and slots that are erased. -/
def headed : State :=
  { State.reset with flash := numberFrom (fun i b => (i, b)) 0 (hdrBytes ++ shake256 hdrBytes) }

set_option maxRecDepth 20000 in
theorem headed_copy : headed.headerAt 0 = some ⟨7, 1, 0, 64⟩ := by
  refine if_pos ⟨by decide +kernel, by decide +kernel, by decide +kernel, by decide +kernel, by decide +kernel, ?_⟩
  rfl

theorem witness_BootFollowsPower :
    State.reset.boot = .porst ∧ State.reset.pins.porst = false ∧ State.reset.header = none ∧ ({ State.reset with boot := .held } : State).boot = .held
    ∧ (∃ x, headed.header = some x) ∧ headed.slotCheck 0 ≠ 0 ∧ headed.slotCheck 1 ≠ 0 := by
  refine ⟨by decide +kernel, by decide +kernel, by decide +kernel, rfl, ?_, by decide +kernel, by decide +kernel⟩
  have h1 : headed.headerAt 1 = none := by decide +kernel
  exact ⟨(0, ⟨7, 1, 0, 64⟩), by simp [State.header, headed_copy, h1]⟩

theorem test_BootFollowsPower :
    after (.porstRelease true 95 { env1 with flashOk := false }) State.reset (fun t => t.boot == .halted && t.fieldN A.bootStatus 8 4 == 1) = true
    ∧ after (.porstRelease true 95 env1) State.reset (fun t => t.boot == .halted && t.fieldN A.bootStatus 8 4 == 2 && t.powerOns == 1 && t.regN A.bpos == 3) = true
    ∧ after (.porstRelease false 95 env1) State.reset (fun t => t.boot == .held && t.powerOns == 0) = true := by
  decide +kernel

def recovering : State := { owned with boot := .recovering, flash := [] }

theorem witness_ReadyIsReached :
    ({ State.reset with boot := .booting } : State).boot = .booting ∧ recovering.boot = .recovering
    ∧ (∀ r, r < 48 → (recovering.rg r).accepted = []) ∧ recovering.firm.stage = none
    ∧ recovering.slotCheck recovering.runningSlot = 3 ∧ recovering.slotCheck (1 - recovering.runningSlot) = 3 := by
  decide +kernel

theorem test_ReadyIsReached :
    after (.recoveryComplete env1) recovering (fun t => t.boot == .halted && t.fieldN A.bootStatus 8 4 == 3 && !t.anyOwned) = true := by
  decide +kernel

/-- A region's reset, its release's reset, a die's reset, and the loads of an assignment, under way. -/
def inJob (j : Job) (c : Option Nat) (ir : Bool) : State :=
  ready.setRg 0 { Region.init with owner := c, job := j, inReset := ir, cnt := [(1, ⟨3, 3⟩)] }

theorem witness_ResetsAndLoadsEnd :
    (∀ s ∈ [ready, inJob .release (some 0) true, inJob .reset (some 0) true, inJob (.assign 3) none false],
      s.up = true ∧ s.portsIdle = true ∧ ContextsNamed s ∧ (0 : Nat) ∉ s.dieReset ∧ s.activating = false ∧ s.dataProt = false)
    ∧ (((inJob .release (some 0) true).rg 0).inReset = true ∧ ((inJob .release (some 0) true).rg 0).accepted = []
      ∧ ((inJob .release (some 0) true).rg 0).job = .release ∧ ((inJob .release (some 0) true).rg 0).owner.isSome = true)
    ∧ (((inJob .reset (some 0) true).rg 0).inReset = true ∧ ((inJob .reset (some 0) true).rg 0).job = .reset)
    ∧ ((0 : Nat) ∈ ({ ready with dieReset := [0] } : State).dieReset ∧ (∀ r, dieOf r = 0 → (ready.rg r).accepted = []) ∧ ready.stacksBusy 0 = false)
    ∧ (((inJob (.assign 3) none false).rg 0).inReset = false ∧ ((inJob (.assign 3) none false).rg 0).job = .assign 3) := by
  refine ⟨?_, by decide +kernel, by decide +kernel, ⟨by decide +kernel, fun _ _ => rfl, by decide +kernel⟩, by decide +kernel⟩
  intro s hs
  simp only [List.mem_cons, List.not_mem_nil, or_false] at hs
  rcases hs with rfl | rfl | rfl | rfl <;>
    exact ⟨by decide +kernel, by decide +kernel, contextsNamed_of (by decide +kernel), by decide +kernel, by decide +kernel, by decide +kernel⟩

theorem test_ResetsAndLoadsEnd :
    after (.dieCoreTimeout 0 100) ready (fun t => t.dieReset == [0] && (t.rg 3).inReset && !(t.rg 12).inReset) = true
    ∧ after (.resetComplete false 0 31) (inJob .release (some 0) true) (fun t => (t.rg 0).owner.isNone && !(t.rg 0).inReset && (t.rg 0).cnt.isEmpty
        && t.fieldN (A.regionEpoch 0) 0 31 == 1) = true
    ∧ after (.resetComplete false 0 31) (inJob .reset (some 0) true) (fun t => (t.rg 0).owner == some 0) = true
    ∧ after (.resetComplete true 0 0x1E) { ready with dieReset := [0] } (fun t => t.dieReset.isEmpty && !t.bit (A.hbmStatus 0) 0 && t.bit (A.hbmStatus 1) 0) = true
    ∧ after (.regionLoadsComplete 0 env0) (inJob (.assign 3) none false) (fun t => (t.rg 0).owner == some 3 && (t.rg 0).loaded && (t.rg 0).job == .none) = true := by
  decide +kernel

def page1 : Page := { page0 0 with out := 2 ^ 51 }

/-- Context 0 sweeps one page (outside HBM); a scrub of one part runs; an invalidation of context 0's page at 0 runs. -/
def working : State :=
  ((stacked.setCx 0 { Ctx.init with cur := some 9, prev := some 8, sweep := [page1] }).setReg A.scrubStatus 1#64).setReg A.invStatus 1#64

def working2 : State := { working with scrub := [0x200000], inv := some (0, false, 0), mem := [⟨0x200001, 7#8⟩, ⟨0x400000, 7#8⟩] }

/-- The release of region 1 has begun its last step for context 0, and waits for the invalidation that runs. -/
def closingR : State := working2.setRg 1 { Region.init with job := .closing 0 true }

theorem witness_SecurityWorkEnds :
    working2.up = true ∧ (working2.cx 0).sweep = [page1] ∧ working2.bgReady (Loc.partPages (.page page1 page1.out)) = true
    ∧ (working2.bit A.scrubStatus 0 = true ∧ ∀ a ∈ working2.scrub, working2.bgReady (Loc.partPages (.page (identityPage a) a)) = true)
    ∧ (working2.inv = some (0, false, 0) ∧ working2.invPending (0, false, 0) = false ∧ ∀ r c b, r < 48 → (working2.rg r).job ≠ .closing c b)
    ∧ (closingR.up = true ∧ closingR.invPending (0, false, 0) = false ∧ (closingR.rg 1).job = .closing 0 true
      ∧ ∀ r c b, r < 48 → r ≠ 1 → (closingR.rg r).job ≠ .closing c b) := by
  refine ⟨by decide +kernel, by decide +kernel, by decide +kernel, by decide +kernel, ⟨by decide +kernel, by decide +kernel, ?_⟩, by decide +kernel,
    by decide +kernel, by decide +kernel, ?_⟩
  · have h : ∀ r, r < 48 → (working2.rg r).job = .none := by decide +kernel
    intro r c b hr hj; rw [h r hr] at hj; cases hj
  · have h : ∀ r, r < 48 → r ≠ 1 → (closingR.rg r).job = .none := by decide +kernel
    intro r c b hr hn hj; rw [h r hr hn] at hj; cases hj

theorem test_SecurityWorkEnds :
    after (.sweepPageComplete 0) working2 (fun t => (t.cx 0).sweep.isEmpty && (t.cx 0).prev.isNone && (t.cx 0).cur == some 9 && t.regN A.sweepPages == 1) = true
    ∧ after .invalidationComplete working2 (fun t => t.inv.isNone && t.regN A.invStatus == 0) = true := by
  decide +kernel

/-- A maquette is loading; an activation runs; a staged firmware image of two bytes is written; a message is being taken. -/
def busy : State :=
  { (((ready.setReg A.maqStatus 1#64).setReg A.stageStatus 1#64).setReg A.mboxInStatus 1#64) with
    firm := ⟨true, false, some (1, [1#8, 2#8])⟩, taking := some [1#8] }

def activated : State := (ready.setReg A.fwStatus 1#64).setReg A.secStatus 8#64

theorem witness_RalradsWorkEnds :
    busy.up = true ∧ busy.maqState = 1 ∧ (match busy.setAt (1 - busy.activeSet) with | .error e => decide (e < 16) | .ok _ => false) = true
    ∧ activated.up = true ∧ activated.activating = true ∧ activated.portsIdle = true ∧ activated.firm.prior = false
    ∧ busy.firm.stage = some (1, [1#8, 2#8]) ∧ busy.taking = some [1#8] := by
  decide +kernel

theorem test_RalradsWorkEnds :
    after .maqLoadDone busy (fun t => t.maqState == 3 && t.fieldN A.maqStatus 4 4 == 5) = true
    ∧ after .fwCommit activated (fun t => !t.activating && t.runningSlot == 1 && t.spdm.record == 1) = true
    ∧ after .fwActivateTimeout activated (fun t => t.firm.prior && t.bit A.fwStatus 1 && t.activating) = true
    ∧ after .mboxInTaken busy (fun t => t.taking.isNone && t.fieldN A.mboxInStatus 0 2 == 2) = true := by
  decide +kernel

/-! ### Witnesses: membership, samples, self-test, snapshots and collectives -/

/-- A member whose grace runs. -/
def graced : State := { member.setB A.member 48 true with routeDue := true }

theorem witness_PlinthEventsAct :
    graced.up = true ∧ graced.isMember = true ∧ graced.bit A.member 48 = true ∧ graced.activating = false ∧ graced.routeDue = true ∧ graced.portsIdle = true
    ∧ graced.bit A.routeCtrl 0 = false ∧ (ready.setReg (A.cxlStatus 2) 0x20#64).bit (A.cxlStatus 2) 5 = true ∧ isCounterAt (A.maCmds 0 0) = true := by
  decide +kernel

theorem test_PlinthEventsAct :
    after .graceExpiry graced (fun t => t.fieldN A.member 12 2 == 2 && t.modNum == 5) = true
    ∧ after (.cxlEventRecord 2 3 4) (ready.setReg (A.cxlStatus 2) 0x20#64) (fun t => t.regN (A.cxlEvents 2) == 7 && t.health.tally.ce == 3) = true
    ∧ after .counterSample (ready.setReg (A.maCmds 0 0) 9#64) (fun t => Sparse.get 0 t.sampled (A.maCmds 0 0) == 9#64 && t.timeNs == 1000000) = true := by
  decide +kernel

/-- Slices of kinds 4 and 2 are pending in a free region; a slice of kind 3 runs in cluster 1. -/
def sliced : State :=
  (freeR.setCl 0 0 { Cluster.init with slices := ⟨[(4, 1), (2, 3)], none, false⟩ }).setCl 0 1 { Cluster.init with slices := ⟨[], some (3, 1), false⟩ }

theorem witness_SelfTestSlicesRun :
    Slices.lowest (sliced.cl 0 0).slices.pend = some (2, 3) ∧ sliced.sliceMayRun 0 0 = true ∧ sliced.sliceQuiet 0 0 3 = true
    ∧ sliced.up = true ∧ sliced.portsIdle = true ∧ (sliced.cl 0 1).slices.running = some (3, 1) := by
  decide +kernel

theorem test_SelfTestSlicesRun :
    after (.bistSlice 0 0) sliced (fun t => (t.cl 0 0).slices.running == some (2, 3) && (t.cl 0 0).slices.pend == [(4, 1)]) = true
    ∧ after (.sliceComplete 0 1 true 0) sliced (fun t => (t.cl 0 1).slices.running.isNone && t.fieldN (A.hltCluster 1) 0 16 == 8 + 2048) = true
    ∧ after (.sliceComplete 0 1 false 0) sliced (fun t => t.fieldN (A.hltCluster 1) 0 16 == 2048) = true := by
  decide +kernel

/-- The snapshot of context 0 copies: its first part's source faults, its second lies at 0. -/
def copying : State :=
  (ready.setReg (A.snapStatus 0) 2#64).setCx 0 { Ctx.init with snap := ⟨[0, 0x200000], [(0, none), (1, some 0)], [], [], 0, 0, 0⟩ }

def copying2 : State :=
  (ready.setReg (A.snapStatus 0) 10#64).setCx 0 { Ctx.init with snap := ⟨[0, 0x200000], [(1, some 0)], [], [0], 0, 0, 0⟩ }

theorem witness_SnapshotPartIsCopied :
    (copying.up = true ∧ copying.portsIdle = true ∧ copying.sent = [] ∧ copying.fieldN (A.snapStatus 0) 0 3 = 2 ∧ copying.bit (A.snapCtl 0) 2 = false
      ∧ (copying.cx 0).snap.pend = (0, none) :: [(1, some 0)] ∧ copying.partReady 0 0 none = true)
    ∧ (copying2.up = true ∧ copying2.portsIdle = true ∧ copying2.sent = [] ∧ copying2.fieldN (A.snapStatus 0) 0 3 = 2
      ∧ copying2.bit (A.snapCtl 0) 2 = false ∧ (copying2.cx 0).snap.pend = (1, some 0) :: [] ∧ copying2.partReady 0 1 (some 0) = true
      ∧ copying2.fieldN (A.snapStatus 0) 3 20 ≠ 0
      ∧ (match copying2.ctxPlace 0 (nth 0 (copying2.cx 0).snap.parts 1) with | .bad _ => true | _ => false) = true) := by
  decide +kernel

theorem test_SnapshotPartIsCopied :
    after (.snapPartCopy 0 env0) copying (fun t => (t.cx 0).snap.pend == [(1, some 0)] && t.fieldN (A.snapStatus 0) 3 20 == 1 && t.fieldN (A.snapStatus 0) 0 3 == 2) = true := by
  decide +kernel

def cRecv : Cmd512 := cmdW 0x0C3 0 [(17, 1)]

/-- A RECV of bucket 0 at the lower rank has started; `got` bytes of its right input have arrived. -/
def receiving (got : Nat) : State :=
  let s := (withBucket 0).setCl 0 0 { Cluster.init with lris := [mvLri cRecv [] { MvState.init with started := true }], nextId := 1 }
  s.setCx 0 { s.cx 0 with rx := if got = 0 then [] else [⟨0, 0, 0, [(0, got)]⟩] }

theorem witness_RecvDecides :
    (receiving 0).up = true ∧ ((receiving 0).recvOf 0 0 0).isSome = true ∧ MvOp.ofCmd cRecv = some (.coll 0 1 0 0 0 0)
    ∧ ((receiving 0).rg 0).owner = some 0
    ∧ (((receiving 0).recvOf 0 0 0).map fun x => (x.2.2.1.deadlineAt x.2.2.2, (receiving 0).rightComplete 0 x.2.1 x.2.2.2 x.2.2.1)) = some (some 100, false)
    ∧ (((receiving 1000).recvOf 0 0 0).map fun x => (receiving 1000).rightComplete 0 x.2.1 x.2.2.2 x.2.2.1) = some true := by
  decide +kernel

/-- The last clause of RecvDecides: its places are no lines of a scratchpad or region buffer, and nothing holds them. -/
theorem witness_RecvDecides_ends :
    ((((receiving 0).cl 0 0).lri 0).bind fun l => ((receiving 0).decPlaces 0 l).map fun p =>
      ((chipLines (p.2.1 ++ p.2.2)).isEmpty, (receiving 0).untimedLeft (decHome 0 0) 0,
        (p.2.1 ++ p.2.2).any (fun x => (receiving 0).placeHeld x || (receiving 0).recalHeld x), (receiving 0).snapWaits p.2.2))
      = some (true, false, false, false) := by
  decide +kernel

theorem test_RecvDecides :
    after (.recvRightComplete 0 0 0 100 env0) (receiving 1000) (fun t => (t.cl 0 0).lris.isEmpty && Sparse.get 0 (t.cx 0).prx (parityKey 0 0 0) == 1
        && (t.cx 0).gotAt 0 0 0 0 == [] && t.regN (A.redExcluded 0) == 0) = true
    ∧ after (.recvDeadline 0 0 0 100 env0) (receiving 0) (fun t => (t.cl 0 0).lris.isEmpty && t.regN (A.redExcluded 0) == 1) = true := by
  decide +kernel

/-! ### Witnesses: links and packets -/

/-- Port 0 is up. -/
def linked : State := ready.setReg (A.portStatus 0) 2#64

/-- A data flit with an empty body, as a receiver finds it; without its CRC if not `ok`. -/
def flit (seq : Nat) (ok : Bool) : Flit :=
  let bs := OutFlit.bytes ⟨seq, 0, 0, 0, 255, []⟩
  ⟨if ok then bs else bs.set 255 (nth 0#8 bs 255 + 1#8), 0, 0⟩

def discarding (fails : Nat) : State := linked.setLink 0 { Link.init with discard := true, fails := fails, rxSeq := 4 }

/-- The peer has asked `n` times for a replay from flit 3; flits 2 to 4 are kept. -/
def replayed (n : Nat) : State := linked.setLink 0 { Link.init with reqs := n, reqSeq := 3, kept := [2, 3, 4].map fun i => ⟨i, 0, 0, 0, 255, []⟩ }

theorem witness_FlitsAreSequenced :
    linked.up = true ∧ linked.linkUp 0 = true ∧ (linked.link 0).rxSeq = 0 ∧ (linked.link 0).discard = false
    ∧ (discarding 15).linkUp 0 = true ∧ (discarding 15).up = true ∧ ((discarding 15).link 0).discard = true ∧ ((discarding 15).link 0).rxSeq = 4
    ∧ 15 ≤ ((discarding 15).link 0).fails ∧ (linked.link 0).reqs = 0 ∧ 16 ≤ ((replayed 16).link 0).reqs ∧ ((replayed 16).link 0).reqSeq = 3 % 4096
    ∧ (flit 0 true).bytes.length = 256 ∧ flitSeq (flit 0 true) = 0 ∧ flitIntact (flit 0 true) = true ∧ (flit 0 true).fecBad = 0
    ∧ flitSeq (flit 1 true) = 1 ∧ (flit 4 false).bytes.length = 256 ∧ flitSeq (flit 4 false) = 4 ∧ flitIntact (flit 4 false) = false := by
  decide +kernel

theorem test_FlitsAreSequenced :
    after (.flitReceive 0 (flit 4096 true)) linked (fun t => (t.link 0).rxSeq == 1) = true
    ∧ after (.flitReceive 0 (flit 1 true)) linked (fun t => (t.link 0).discard && t.outbox == [.flit 0 2 0]) = true
    ∧ after (.flitReceive 0 (flit 5 true)) (discarding 3) (fun t => t.links == (discarding 3).links) = true
    ∧ after (.flitReceive 0 (flit 4 false)) (discarding 15) (fun t => !t.portUp 0 && t.regN (A.linkDowns 0) == 1) = true
    ∧ after (.flitReceive 0 (flit 4 false)) (discarding 14) (fun t => t.portUp 0 && (t.link 0).fails == 15) = true
    ∧ after (.flitReplay 0 3) (replayed 15) (fun t => t.regN (A.retry 0) == 2 && t.outbox == [.replay 0 ((replayed 0).link 0 |>.kept.drop 1)]) = true
    ∧ after (.flitReplay 0 3) (replayed 16) (fun t => !t.portUp 0) = true := by
  decide +kernel

/-- R307: a flit's head fields lie where the table puts them: SEQ, ACK, FTYPE, LANE_CLASS, LANE_RESP, LANE_VL, START, then 242 bytes of body. -/
theorem test_FlitFields :
    let f : Flit := ⟨OutFlit.bytes ⟨0xABC, 0x123, 1, 4 * 2 + 2 + 1, 0x5A, [7#8]⟩, 0, 0⟩
    bytesToNat (f.bytes.take 6) = 0xABC + 0x123 * 2 ^ 12 + 1 * 2 ^ 24 + 2 * 2 ^ 26 + 1 * 2 ^ 28 + 1 * 2 ^ 29 + 0x5A * 2 ^ 30
    ∧ flitStart f = 0x5A ∧ flitLane f = 11 ∧ (flitBody f).length = 242 ∧ nth 0#8 f.bytes 6 = 7#8 := by
  decide +kernel

/-- E0 to E7 and M0, M1 are enabled; M1 is up; CXL port 1 is up. -/
def enabled : State :=
  { (ready.setReg (A.mlmStatus 1) 2#64).setReg (A.cxlStatus 1) 1#64 with active := { CfgSet.default with ekbEn := 255, mlmEn := 3 } }

def peer : LinkCtl := ⟨true, 9, 1, 2, [3]⟩

theorem witness_PortsTrainAndFall :
    enabled.up = true ∧ enabled.active.ekbEn.testBit 7 = true ∧ enabled.portUp 7 = false ∧ (enabled.link 7).dead = false
    ∧ (enabled.setLink 7 { Link.init with lost := true }).portUp 7 = false ∧ ((enabled.setLink 7 { Link.init with lost := true }).link 7).lost = true
    ∧ linked.portUp 0 = true ∧ linked.up = true ∧ linked.portsIdle = true ∧ enabled.portsIdle = true ∧ enabled.linkUp (8 + 1) = true ∧ enabled.active.mlmEn.testBit 0 = true ∧ enabled.linkUp (8 + 0) = false := by
  decide +kernel

theorem test_PortsTrainAndFall :
    after (.portTrainingComplete 7 4 70000 peer) enabled (fun t => t.fieldN (A.portStatus 7) 0 3 == 1 + 4 && t.fieldN (A.portStatus 7) 3 12 == 9
        && t.regN (A.rtt 7) == 65535 && (match t.outbox with | [.control 7 c] => c.port == 7 | _ => false)) = true
    ∧ after (.portRetrainTimeout 7) (enabled.setLink 7 { Link.init with lost := true }) (fun t => (t.link 7).dead) = true
    ∧ after (.linkControlFlit 0 peer) (linked.setLink 0 { Link.init with unpaid := [5] ++ List.replicate 15 0 }) (fun t => t.fieldN (A.portStatus 0) 0 2 == 2 && t.bit (A.portStatus 0) 2 && nth 0 (t.link 0).unpaid 0 == 2) = true
    ∧ after (.linkGoesDown 0 0) linked (fun t => !t.portUp 0 && (t.link 0).lost) = true
    ∧ after (.linkGoesDown 1 1) enabled (fun t => !t.bit (A.cxlStatus 1) 0) = true
    ∧ after (.linkGoesDown 2 1) enabled (fun t => !t.linkUp 9 && t.regN (A.mlmDowns 1) == 1) = true
    ∧ after (.mlmPortRetrain 0 8) enabled (fun t => t.regN (A.mlmStatus 0) == 1) = true := by
  decide +kernel

/-- A member whose context 0 runs job 7, with a route to module 2 by port 0. -/
def joined : State :=
  (((member.setReg (A.ctxJob 0) (BitVec.ofNat 64 (7 + 65536))).setReg (A.route 0) (BitVec.ofNat 64 (8 * 2 ^ 16))).setReg (A.portStatus 0) 2#64).setReg
    (A.regionShape 0) 0x18#64

def pkt (ty : Nat) : Pkt := ⟨ty, 5, 2, 9, 7, 0, 0, 0, false, none, 0, 33, winBase, 0, 4, if ty = 1 then [] else [1#8, 2#8, 3#8, 4#8], 0, 0, true⟩

/-- The same in data-protected mode, with a session with module 2. -/
def joinedP (high : Nat) : State :=
  { joined with active := { CfgSet.default with dataProt := true }, sessions := [⟨2, 3, 4, 0, high, [high]⟩] }

theorem witness_ArrivalIsChecked :
    packetRow (.wr (pkt 3) env0) = some (3, pkt 3) ∧ (pkt 3).ptype = 3 ∧ (pkt 3).ok = true ∧ ready.ingressOpen 3 = true ∧ (joinedP 1).ingressOpen 3 = true ∧ joined.portsIdle = true
    ∧ joined.typeKnown 3 = true ∧ joined.typeKnown 0x30 = false ∧ fieldsBad (pkt 3) = false ∧ joined.ingressOpen 3 = true ∧ ready.isMember = false ∧ joined.isMember = true
    ∧ (pkt 3).epoch = joined.fabEpoch ∧ newerEpoch 10 joined.fabEpoch = true ∧ newerEpoch 8 joined.fabEpoch = false ∧ joined.bit A.member 48 = false
    ∧ joined.egress 2 = some 0 ∧ joined.egress 3 = none ∧ (pkt 3).dst = joined.modNum ∧ joined.dataProt = false
    ∧ (joinedP 1).dataProt = true ∧ (joinedP 1).session 2 = some ⟨2, 3, 4, 0, 1, [1]⟩ ∧ (joinedP 1).session 3 = none
    ∧ Session.accepts ⟨2, 3, 4, 0, 1, [1]⟩ 1 = false := by
  decide +kernel

theorem test_ArrivalIsChecked :
    after (.wr (pkt 3) env0) ready (fun t => t.regN A.notMember == 1) = true
    ∧ after (.wr { pkt 3 with epoch := 8 } env0) joined (fun t => t.regN A.epochOld == 1) = true
    ∧ after (.wr { pkt 3 with epoch := 10 } env0) joined (fun t => t.bit A.member 48 && t.fieldN A.member 32 16 == 10 && t.regN A.epochNew == 1) = true
    ∧ after (.packetTransit { pkt 3 with dst := 2, hops := 31 }) joined (fun t => t.regN A.hopsDrop == 1) = true
    ∧ after (.packetTransit { pkt 3 with dst := 3 }) joined (fun t => t.regN A.routeDrop == 1) = true
    ∧ after (.packetTransit { pkt 3 with dst := 2 }) joined (fun t => match t.outbox with | [.packet 0 y] => y.hops == 1 && y.dst == 2 | _ => false) = true
    ∧ after (.wr { pkt 3 with enc := true } env0) joined (fun t => t.regN A.badPkt == 1) = true
    ∧ after (.wr (pkt 3) env0) (joinedP 1) (fun t => t.regN A.plainDrop == 1) = true
    ∧ after (.wr { pkt 3 with enc := true, src := 3 } env0) (joinedP 1) (fun t => t.regN A.gcmFail == 1) = true
    ∧ after (.wr { pkt 3 with enc := true, tagOk := false } env0) (joinedP 1) (fun t => t.regN A.gcmFail == 1) = true
    ∧ after (.wr { pkt 3 with enc := true, ctr := 1 } env0) (joinedP 1) (fun t => t.regN A.replayDrop == 1) = true := by
  decide +kernel

/-- A packet passes the checks and leaves the state as it is. -/
def lands (s : State) (x : Pkt) : Bool :=
  x.ok && s.ingressOpen x.ptype && s.typeKnown x.ptype && (match (Drained s x).arrive x with | .here t => decide (t = s) | _ => false)

/-- The same, every stack trained; context 0 maps its first GiB to local address 0. -/
def joinedH : State :=
  let s := (List.range 20).foldl (fun s k => s.setReg (A.hbmStatus k) 1#64) (joined.setReg (A.ctxRoot 0) 0x1001#64)
  { s with mem := paged.mem }

/-- The page of context 0's first GiB. -/
def pageH : Page := { page0 0 with snap := false }

/-- Where an arriving request's bytes lie: nothing else waits for them. -/
def entersAt (s : State) (wr : Bool) (a : Nat) : Option (List Loc) :=
  match s.walksWait 0 (spanFrom a 4), (s.ingressAt 0 wr (spanFrom a 4)).1 with
  | false, .ok ls =>
    if s.ingressWaits 0 ls (dedupNat (ls.flatMap s.plinthPath)) || ls.any s.recalHeld || (wr && s.snapWaits ls) then none else some ls
  | _, _ => none

def hpkt (ty : Nat) : Pkt := { pkt ty with addr := 64 }

theorem witness_RemoteRequestsAct :
    ([1, 3, 5].map fun ty => lands joinedH (hpkt ty)) = [true, true, true] ∧ lands joined (pkt 1) = true
    ∧ joinedH.egress 2 = some 0 ∧ joinedH.dataProt = false ∧ joinedH.ctxOfJob 7 = some 0 ∧ joined.ctxOfJob 8 = none
    ∧ entersAt joinedH false 64 = some ((List.range 4).map fun i => .page pageH (64 + i))
    ∧ entersAt joinedH true 64 = some ((List.range 4).map fun i => .page pageH (64 + i))
    ∧ pageH.prot = false ∧ (∀ i, i < 4 → isHbm (64 + i) = true ∧ joinedH.granAt (64 + i) = Gran.clean)
    ∧ entersAt joined false winBase = some ((List.range 4).map fun i => .chip (physWin + i))
    ∧ chipLines ((List.range 4).map fun i => .chip (physWin + i)) ≠ [] := by
  decide +kernel

theorem test_RemoteRequestsAct :
    after (.wr (hpkt 3) env0) joinedH (fun t => ((List.range 5).map fun i => t.mem.read (64 + i)) == [1#8, 2#8, 3#8, 4#8, 0#8]
        && (match t.outbox with | [.packet 0 y] => y.ptype == 4 && y.status == 0 && y.tag == 33 | _ => false)) = true
    ∧ after (.rdReq (hpkt 1) env0) { joinedH with mem := ⟨65, 9#8⟩ :: paged.mem } (fun t =>
        match t.outbox with | [.packet 0 y] => y.ptype == 2 && y.data == [0#8, 9#8, 0#8, 0#8] | _ => false) = true
    ∧ after (.rdReq (pkt 1) env0) joined (fun t => t.outbox.isEmpty && t.heldPkts.length == 1 && !(t.cl 0 0).uaccs.isEmpty) = true
    ∧ after (.rdReq { pkt 1 with job := 8 } env0) joined (fun t => match t.outbox with | [.packet 0 y] => y.status == 1 | _ => false) = true
    ∧ after (.atom (hpkt 5) env0) { joinedH with mem := ⟨64, 255#8⟩ :: paged.mem } (fun t => t.mem.read 64 == 0#8 && t.mem.read 65 == 3#8) = true := by
  decide +kernel

/-- Bucket 0, staged and left in HBM; the rank table, in the region buffer, names module 2 at ranks 0 and 1. -/
def collecting (me : Nat) : State :=
  let s := joinedH.setCx 0 { Ctx.init with
    buckets := [(0, ⟨0, 0, false, false, false, false, 3, 64, 4, me, 100, winBase + 0x3000000, 0x200000, 0x400000, 1⟩)] }
  { s with mem := paged.mem ++ [⟨rbAddr 0 0, 2#8⟩, ⟨rbAddr 0 2, 2#8⟩] }

def collPkt (ty parity : Nat) : Pkt := { pkt ty with addr := 0, aux := parity * 2 ^ 28 }

theorem witness_RemoteRequestsAct_collectives :
    lands (collecting 0) (collPkt 0x10 0) = true ∧ lands (collecting 1) (collPkt 0x11 0) = true ∧ lands (collecting 0) { collPkt 0x10 0 with src := 3 } = true
    ∧ (((collecting 0).collRefused (collPkt 0x10 0) true env0).map Prod.fst) = some 0
    ∧ (((collecting 1).collRefused (collPkt 0x11 0) false env0).map Prod.fst) = some 0 ∧ (collecting 1).rdownOf 0 0 = none
    ∧ ((collecting 0).collRefused { collPkt 0x10 0 with src := 3 } true env0) = none
    ∧ (collecting 0).collLate (collPkt 0x10 0) true 0 = false ∧ (collecting 0).collLate (collPkt 0x10 1) true 0 = true
    ∧ entersAt (collecting 0) true 0x200000 = some ((List.range 4).map fun i => .page pageH (0x200000 + i))
    ∧ entersAt (collecting 1) true 0x400000 = some ((List.range 4).map fun i => .page pageH (0x400000 + i)) := by
  decide +kernel

theorem test_Collectives :
    after (.collUp (collPkt 0x10 0) env0) (collecting 0) (fun t => t.mem.read 0x200000 == 1#8 && (t.cx 0).gotAt 0 0 0 0 == [(0, 4)]) = true
    ∧ after (.collUp (collPkt 0x10 1) env0) (collecting 0) (fun t => t.regN (A.redLate 0) == 1 && (t.cx 0).gotAt 0 0 0 0 == [] && t.outbox.length == 1) = true
    ∧ after (.collDown (collPkt 0x11 0) env0) (collecting 1) (fun t => t.mem.read 0x400003 == 4#8 && (t.cx 0).gotAt 0 16 1 0 == [(0, 4)]) = true
    ∧ after (.collUp { collPkt 0x10 0 with src := 3 } env0) (collecting 0) (fun t => t.regN A.redRefused == 1) = true := by
  decide +kernel

/-- RD_REQ of an atomic: a request of this module that waits for its completion. -/
def awaiting : State := { joined with sent := [⟨33, 2, 0, 0, 0x1000, 4, true, false, 0, [], 0⟩] }

theorem witness_CompletionsAreTaken :
    lands awaiting (pkt 2) = true
    ∧ (awaiting.sent.find? fun y => y.tag == 33 && y.peer == 2 && !y.done).isSome = true
    ∧ (joined.sent.find? fun y => y.tag == 33 && y.peer == 2 && !y.done) = none := by
  decide +kernel

theorem test_CompletionsAreTaken :
    after (.rdData (pkt 2)) awaiting (fun t => t.sent.all (fun y => y.done && y.data.length == 4) && t.regN A.remoteRefused == 0) = true
    ∧ after (.wrCpl { pkt 4 with status := 1 }) awaiting (fun t => t.regN A.remoteRefused == 1) = true
    ∧ after (.rdData (pkt 2)) joined (fun t => decide (t = joined)) = true := by
  decide +kernel

/-- A barrier's arrival has gone up from the fabric node. -/
def parented : State := { joined with bars := [⟨.fabric 0, ⟨0, 3, 0, false⟩, 1, 0, 0, true, [], 0⟩] }

def keyed : State := { (joinedP 1).setReg A.secStatus 4#64 with sessions := [], kexs := [⟨2, 77, [], false⟩] }

theorem witness_ArmatureAndKeyPacketsAct :
    ([7, 8, 9].map fun ty => lands joined (pkt ty)) = [true, true, true]
    ∧ joined.logRegion 0 0 = some 0 ∧ joined.bars = []
    ∧ (parented.bars.find? fun z => z.node == .fabric 0 && z.f == barOf (pkt 9) && z.sent).isSome = true
    ∧ parented.brokenNode (.fabric 0) (barOf (pkt 9)).bid = false ∧ parented.rels = [] ∧ keyed.portsIdle = true
    ∧ ([0x20, 0x21].map fun ty => lands keyed (pkt ty)) = [true, true]
    ∧ keyed.activating = false ∧ (pkt 0x20).src < keyed.modNum ∧ keyed.rngOk = true
    ∧ (keyed.kexs.find? fun y => y.peer == 2 && !y.failed && y.priv != 0).isSome = true := by
  decide +kernel

theorem test_ArmatureAndKeyPacketsAct :
    after (.flagInc { pkt 7 with aux := 3, addr := 8 }) joined (fun t => ((t.rg 0).ctr 3).count == 8) = true
    ∧ after (.barArrive (pkt 8)) joined (fun t => t.bars == [⟨.fabric 0, ⟨0, 3, 0, false⟩, 1, 0, 0, false, [2], 0⟩]) = true
    ∧ after (.barRelease (pkt 9)) parented (fun t => t.rels == [⟨.fabric 0, ⟨0, 3, 0, false⟩, 0, 0⟩]) = true
    ∧ after (.kexHello (pkt 0x20) false) keyed (fun t => (t.session 2).isNone && t.regN A.kexFail == 1) = true
    ∧ after (.kexReply (pkt 0x21) true) keyed (fun t => (t.session 2).isSome && t.kexs.isEmpty) = true := by
  decide +kernel

/-! ### Witnesses: companion, debug port, SPDM and I3C -/

/-- M0 is up; the first stack is trained. -/
def mated : State := (ready.setReg (A.mlmStatus 0) 2#64).setReg (A.hbmStatus 0) 1#64

def matedP : State :=
  { mated.setReg A.secStatus 4#64 with active := { CfgSet.default with dataProt := true, mlmEn := 3 } }

/-- A key exchange of the companion with its public value. -/
def hello : Pkt := { pkt 0x20 with data := List.replicate 56 7#8, len := 56 }

def mpkt (ty a : Nat) : Pkt := { pkt ty with addr := a }

theorem witness_CompanionRequestsAct :
    (inCsr csrBase 8 = true ∧ (viewOf 0).2 % 8 = 0) ∧
    ([1, 3, 5].map fun ty => (mpkt ty 64).ok) = [true, true, true] ∧ (mated.drainPkt [8] (mpkt 1 64)) = mated ∧
    mated.mlmOpen 0 = true ∧ mated.dataProt = false ∧ (mpkt 1 64).enc = false ∧ (mpkt 1 64).reserved = 0 ∧ mated.heldMlm = []
    ∧ inCsr 64 4 = false ∧ mated.mlmMem 64 4 = true ∧ mated.mlmWaits (mpkt 1 64) 4 = false ∧ (∀ i, i < 4 → mated.granAt (64 + i) = Gran.clean)
    ∧ mated.mlmMem (2 ^ 51) 4 = false ∧ inCsr (2 ^ 51) 4 = false
    ∧ matedP.mlmOpen 0 = true ∧ matedP.dataProt = true ∧ matedP.session 65536 = none ∧ matedP.rngOk = true ∧ matedP.activating = false
    ∧ hello.ok = true ∧ hello.ptype = 0x20 ∧ hello.enc = false ∧ hello.reserved = 0 ∧ hello.data.length = 56
    ∧ (matedP.setReg A.secStatus 12#64).activating = true ∧ (matedP.setReg A.secStatus 12#64).mlmOpen 0 = true := by
  decide +kernel

theorem test_CompanionRequestsAct :
    after (.mlmWr 0 (mpkt 3 64) env0) mated (fun t => t.mem == [⟨64, 1#8⟩, ⟨65, 2#8⟩, ⟨66, 3#8⟩, ⟨67, 4#8⟩]
        && (match t.outbox with | [.mlm 0 y] => y.ptype == 4 && y.status == 0 | _ => false)) = true
    ∧ after (.mlmRdReq 0 (mpkt 1 64) env0) { mated with mem := [⟨66, 9#8⟩] } (fun t => match t.outbox with | [.mlm 0 y] => y.data == [0#8, 0#8, 9#8, 0#8] | _ => false) = true
    ∧ after (.mlmAtom 0 (mpkt 5 64) env0) { mated with mem := [⟨64, 255#8⟩] } (fun t => t.mem.read 64 == 0#8 && t.mem.read 65 == 3#8) = true
    ∧ after (.mlmRdReq 0 (mpkt 1 (2 ^ 51)) env0) mated (fun t => match t.outbox with | [.mlm 0 y] => y.status == 2 && t.regN A.mlmInFaults == 1 | _ => false) = true
    ∧ after (.mlmKexHello 0 hello) (matedP.setReg A.secStatus 12#64) (fun t => t.sessions.isEmpty && t.heldMlm.map HeldMlm.pkt == [hello]) = true := by
  decide +kernel

theorem witness_DebugPortActs :
    ready.csrDenied .operator A.ident false 0 = false ∧ reachesB ready .operator (A.ctxJob 3) 7 = true ∧ A.ctxJob 3 % 8 = 0
    ∧ ((regAt (A.ctxRoot 3)).map fun d => (d.acc != .ro && !d.wo && !d.isCounter && d.kind != .power && !actionReg (A.ctxRoot 3))) = some true
    ∧ reachesB ready .operator (A.ctxRoot 3) 7 = true
    ∧ (ready.csrOpen .operator A.ident true = true ∧ isSfuWindow A.ident = false ∧ inView .operator A.ident = true
      ∧ ((regAt (A.secRotate)).map fun d => (ready.inGated d, ready.mayWrite (.ctx 0) A.secRotate d 7)) = some (false, false))
    ∧ State.reset.boot ≠ .off ∧ ready.boot ≠ .off ∧ mated.alive = true ∧ (isHbm 64 = true ∧ mated.stackUp 64 = true ∧ ready.memaccOk (2 ^ 51) = false) := by
  decide +kernel

theorem test_DebugPortActs :
    after .idcode State.reset (fun t => t.capture == 0xB4820001) = true
    ∧ after (.extest [true]) State.reset (fun t => t.dbg.driven && t.dbg.ir == 0) = true
    ∧ after (.extest [true]) ready (fun t => !t.dbg.driven && t.dbg.ir == 0xFF) = true
    ∧ after (.csracc A.ident false true 0#64) ready (fun t => t.capture == 0x02B1204820 + 2 ^ 106) = true
    ∧ after (.csracc (A.ctxRoot 3) true true 0x5000#64) ready (fun t => t.regN (A.ctxRoot 3) == 0x5000) = true
    ∧ after (.memacc 64 true) { mated with mem := [⟨65, 9#8⟩] } (fun t => t.dbg.memData == 0#8 :: 9#8 :: List.replicate 30 0#8 && t.dbg.memDone) = true
    ∧ after (.memacc (2 ^ 51) true) ready (fun t => t.dbg.memDeny && t.regN A.denied == 1) = true := by
  decide +kernel

/-- The responder has its algorithms; the identity key is rebuilt. -/
def agreed : State := { ready with spdm := ⟨true, true, true, [], 4, none, false, false⟩, identity := some 0 }

theorem witness_Spdm :
    ready.up = true ∧ ready.activating = false ∧ ready.spdm.mail = false ∧ ready.spdm.stale = false ∧ agreed.spdm.algs = true ∧ agreed.idOk = ready.idOk
    ∧ spdmRequest (.spdmUnsupportedRequest 0xE4) = true ∧ spdmRequest (.spdmUnsupportedRequest 0xE0) = false ∧ spdmRequest (.challenge 0 1 []) = true
    ∧ State.reset.up = false ∧ activated.up = true ∧ activated.activating = true := by
  decide +kernel

/-- The last message is an SPDM answer that begins so. -/
def spdmSays (t : State) (bs : List Nat) : Bool := match t.outbox with | .spdm x :: _ => (x.take bs.length).map BitVec.toNat == bs | _ => false

theorem test_Spdm :
    after .getVersion ready (fun t => spdmSays t [0x10, 4, 0, 0] && t.spdm.version) = true
    ∧ after .getCapabilities ready (fun t => spdmSays t [0x13, 0x7F, 4, 0]) = true
    ∧ after (.negotiateAlgorithms 0x400 0x20) agreed (fun t => spdmSays t [0x13, 0x63, 0, 0] && t.spdm.algs) = true
    ∧ after (.getMeasurements 0 false []) agreed (fun t => spdmSays t [0x13, 0x60, 10, 0] && t.spdm.began == some 4) = true
    ∧ after (.getMeasurements 11 false []) agreed (fun t => spdmSays t [0x13, 0x7F, 1, 0]) = true
    ∧ after (.getMeasurements 0 false []) { agreed with spdm := { agreed.spdm with began := some 3 } } (fun t => spdmSays t [0x13, 0x7F, 0x43, 0]) = true
    ∧ after (.spdmUnsupportedRequest 0xE4) ready (fun t => spdmSays t [0x13, 0x7F, 7, 0xE4]) = true
    ∧ after .getVersion activated (fun t => spdmSays t [0x13, 0x7F, 3, 0] && t.regN A.spdmBusy == 1) = true := by
  decide +kernel

theorem witness_I3cTargetActs : State.reset.pins.porst = false ∧ dark.boot = .off ∧ ready.boot ≠ .off ∧ ready.up = true ∧ ready.pins.porst = true ∧ ready.i3c.dyn = none := by decide +kernel

theorem test_I3cTargetActs :
    after (.setdasa 0x50 9) ready (fun t => t.i3c.dyn == some 9) = true
    ∧ after (.setdasa 0x51 9) ready (fun t => t.i3c.dyn == none) = true
    ∧ after (.pldmEffecterSet 1 700) ready (fun t => t.regN A.govCtrl == 700) = true
    ∧ after (.pldmEffecterSet 2 700) ready (fun t => t.regN A.govCtrl == 1600 && t.outbox == [.i3c 0x200 0x80]) = true := by
  decide +kernel

/-! ### Witnesses: steps, samples, numbers -/

def stepped (s : State) (P : State → Bool) : Bool := match step s with | .next t => P t | _ => false

theorem witness_Steps :
    Canonical { owned with pending := [.heartbeat], mem := [⟨64, 1#8⟩] } ∧ owned.up = true
    ∧ stepped { owned with pending := [.heartbeat, .swapBeat] } (fun t => t.pending == [.swapBeat] && t.wdog.sent == 1) = true
    ∧ ((owned.rg 0).owner = some 0) := by
  unfold Canonical; decide +kernel

theorem witness_OwnersStayContexts : ContextsNamed { owned with pending := [.heartbeat] } := contextsNamed_of (by decide +kernel)

theorem witness_MqGoesIntoFlight : samplesMq.all Sample.good = true := by decide +kernel
theorem witness_VeGoesIntoFlight : samplesVe.all Sample.good = true := by decide +kernel
theorem witness_RedGoesIntoFlight : samplesRed.all Sample.good = true := by decide +kernel
theorem witness_GrainGoesIntoFlight : samplesGrain.all Sample.good = true := by decide +kernel
theorem witness_XqGoesIntoFlight : samplesXq.all Sample.good = true := by decide +kernel
theorem witness_FarGoesIntoFlight : samplesFar.all Sample.good = true := by decide +kernel
theorem test_MqFlies : samplesMq.all Sample.flies = true := by decide +kernel
theorem test_VeFlies : samplesVe.all Sample.flies = true := by decide +kernel
theorem test_RedFlies : samplesRed.all Sample.flies = true := by decide +kernel
theorem test_GrainFlies : samplesGrain.all Sample.flies = true := by decide +kernel
theorem test_XqFlies : samplesXq.all Sample.flies = true := by decide +kernel
theorem test_FarFlies : samplesFar.all Sample.flies = true := by decide +kernel

theorem witness_ConversionsKeepValues :
    (0x3F80 : Nat) < 2 ^ Fmt.bits .bf16 ∧ (decodeFmt .bf16 0x3F80).isNan = false ∧ (decodeFmt .fp32 0x7F800001).isNan = true
    ∧ (Fmt.isMx .fp16) = false ∧ (Fmt.shape .int8).isNone = true := by
  decide +kernel

/-! ### Ill-formed commands: one for each check of well-formedness, which refuses it; the machine does nothing -/

def illFormed (i : Instr) : Bool := !Instr.wf i && (match exec i ready with | .next t => t == ready | _ => false)

theorem test_IllFormed1 : ([
   .nop 48 0 0, .nop 0 9 0, .nop 0 0 4, .endq 48 0 0, .endq 0 9 0, .endq 0 0 4, .wait 48 0 0, .wait 0 9 0, .wait 0 0 4, .signal 48 0 0,
   .signal 0 9 0, .signal 0 0 4, .barrier 48 0 0, .barrier 0 9 0, .barrier 0 0 4, .stepPoint 48 0 0, .stepPoint 0 9 0, .stepPoint 0 0 4,
   .evalPoint 48 0 0, .evalPoint 0 9 0, .evalPoint 0 0 4, .evalEnd 48 0 0, .evalEnd 0 9 0, .evalEnd 0 0 4, .mma 48 0, .mma 0 9, .distL1 48 0,
   .distL1 0 9, .distL2 48 0, .distL2 0 9, .minplus 48 0, .minplus 0 9, .maxplus 48 0, .maxplus 0 9, .cmpcount 48 0, .cmpcount 0 9,
   .vmap 48 0 0, .vmap 0 9 0, .vmap 0 0 2, .vcvt 48 0 0, .vcvt 0 9 0, .vcvt 0 0 2, .vscan 48 0 0, .vscan 0 9 0, .vscan 0 0 2, .vstat 48 0 0,
   .vstat 0 9 0, .vstat 0 0 2, .vcarryStore 48 0 0, .vcarryStore 0 9 0, .vcarryStore 0 0 2, .vcarryLoad 48 0 0, .vcarryLoad 0 9 0,
   .vcarryLoad 0 0 2, .rmsnorm 48 0 0, .rmsnorm 0 9 0, .rmsnorm 0 0 2, .vsfu 48 0 0, .vsfu 0 9 0, .vsfu 0 0 2] : List Instr).all illFormed = true := by
  decide +kernel

theorem test_IllFormed2 : ([
   .vchisel 48 0 0, .vchisel 0 9 0, .vchisel 0 0 2, .vredLeaf 48 0 0, .vredLeaf 0 9 0, .vredLeaf 0 0 2, .vredNode 48 0 0, .vredNode 0 9 0,
   .vredNode 0 0 2, .vredFinal 48 0 0, .vredFinal 0 9 0, .vredFinal 0 0 2, .vredFold 48 0 0, .vredFold 0 9 0, .vredFold 0 0 2,
   .vgrainSetid 48 0 0, .vgrainSetid 0 9 0, .vgrainSetid 0 0 2, .vgrainRaw 48 0 0, .vgrainRaw 0 9 0, .vgrainRaw 0 0 2, .vgrainUniform 48 0 0,
   .vgrainUniform 0 9 0, .vgrainUniform 0 0 2, .vgrainBernoulli 48 0 0, .vgrainBernoulli 0 9 0, .vgrainBernoulli 0 0 2, .vgrainNormal 48 0 0,
   .vgrainNormal 0 9 0, .vgrainNormal 0 0 2, .mvcopy 48 0, .mvcopy 0 9, .mvset 48 0, .mvset 0 9, .mvatom 48 0, .mvatom 0 9, .mvcollUp 48 0 env0,
   .mvcollUp 0 9 env0, .mvcollRecv 48 0 env0, .mvcollRecv 0 9 env0, .mvcollDown 48 0 env0, .mvcollDown 0 9 env0, .mvcollRdown 48 0 env0, .mvcollRdown 0 9 env0, .ttin 48 0,
   .ttin 0 9, .ttout 48 0, .ttout 0 9, .descLoad 48 0, .descLoad 0 9, .seqDoorbell (.ctx 16) 0 0 0, .seqDoorbell .operator 48 0 0,
   .seqDoorbell .operator 0 9 0,  .seqLdoorbell (.ctx 16) 0 0 0, .seqLdoorbell .operator 48 0 0,
     .startBeat 48 0, .startBeat 0 9] : List Instr).all illFormed = true := by
  decide +kernel

theorem test_IllFormed3 : ([
   .queueFetchRequest 48 0 0, .queueFetchRequest 0 9 0, .queueFetchRequest 0 0 4, .queueFetchComplete 48 0 env0, .clusterBeat 48 0 env0,
   .clusterBeat 0 9 env0, .stretchYield 48 0, .stretchYield 0 9, .holdBeat 48 0, .holdBeat 0 9, .timedDonePoint 48 0 0, .timedDonePoint 0 9 0,
   .descLoadDone 48 0 env0, .moverCommandStart 48 0 0 env0, .moverCommandStart 0 9 0 env0, .moverCommandStart 0 0 2 env0,
   .translationWalk 48 0 0 env0, .admissionAccept 48 0 env0, .moverRequestComplete 48 0 env0, .cxlRequestTimeout 48 0 env0,
   .mlmWindowTimeout 48 0 env0, .remoteRequestTimeout 48 0 env0, .evalSwitch 48 0, .evalSwitch 0 9, .switchBeat 48 0, .switchBeat 0 9,
   .stepReturnNoSwitch 48 0, .stepReturnNoSwitch 0 9, .evalReturn 48 0, .evalReturn 0 9, .returnBeat 48 0, .returnBeat 0 9,
   .incrementVisible 48 0 0, .incrementVisible 0 9 0, .syncPoke (.ctx 16) 0 0 0, .syncPoke .operator 48 0 0,   .paceMeasurement 48 0 0, .paceMeasurement 0 9 0, .patinaMonitor 48 0 0, .patinaMonitor 0 9 0,
   .sramScrubRead 48 0 0 env0, .sramScrubRead 0 9 0 env0, .sramScrubRead 0 0 48 env0, .patrolScrub 20 env0, .hltRecover (.ctx 16) 0 false,
   .regionReset (.ctx 16) 0,  .dieReset (.ctx 16) 0,  .dieCoreTimeout 4 0,
   .assign (.ctx 16) 0 0,   .release (.ctx 16) 0,  .secRotate (.ctx 16) 0,
    .sweepPageComplete 16] : List Instr).all illFormed = true := by
  decide +kernel

theorem test_IllFormed4 : ([
   .scrubGo (.ctx 16) 0, .memXlateInv (.ctx 16) 0 false 0,  .ekbJoin (.ctx 16) 0 0 false,
   .ekbCtxJobWrite (.ctx 16) 0 0 false, .ekbCtxJobWrite .operator 16 0 false, .flitReceive 10 (flit 0 true), .flitReplay 10 0,
  
   .linkControlFlit 10 peer, .flitReceive 0 ⟨[], 0, 0⟩, .portTrainingComplete 8 0 0 peer, .portRetrainTimeout 8, .recvRightComplete 48 0 0 0 env0, .recvRightComplete 0 9 0 0 env0,
   .recvDeadline 48 0 0 0 env0, .recvDeadline 0 9 0 0 env0, .snapReq (.ctx 16) 0 env0, .snapReq .operator 16 env0, .snapPartCopy 16 env0, .maqLoad (.ctx 16),
   .maqSwap (.ctx 16) false, .maqDiscard (.ctx 16), .fwActivate (.ctx 16) false, .stageGo (.ctx 16) 0 0 env0, .cfgBootSel (.ctx 16) 0 0,
   .mboxInGo (.ctx 16) 0, .cfgMboxOutTail (.ctx 16) 0, .memMlmWin (.ctx 16) 0, .mlmRdReq 2 (pkt 1) env0, .mlmWr 2 (pkt 1) env0, .mlmAtom 2 (pkt 1) env0,
   .mlmKexHello 2 (pkt 1), .mlmPortRetrain 2 0, .pwrGovCtrlWrite (.ctx 16) 0, .ekbGraceWrite (.ctx 16) 0, .bistReqGo (.ctx 16) 0 0 0 0,
    .bistReqCancel (.ctx 16) 0,  .bistSlice 48 0, .bistSlice 0 9,
   .hltRetire (.ctx 16) 0 0,   .abistRerun (.ctx 16) 0 0 0, .registerWrite (.ctx 16) 0 0,
   .linkGoesDown 0 8, .linkGoesDown 1 4, .linkGoesDown 2 2, .cxlEventRecord 4 0 0, .sliceComplete 48 0 false 0, .sliceComplete 0 9 false 0,
   .resetComplete true 4 0, .resetComplete false 48 0, .regionLoadsComplete 48 env0] : List Instr).all illFormed = true := by
  decide +kernel

/-! ### Numbers -/

/-- R66: halves go to the even neighbour; a carry out of the fraction raises the exponent; above the largest, round to nearest gives infinity; R86: with saturate clear an integer keeps the low bits. -/
theorem test_Rounding :
    ([0x3F808000, 0x3F818000, 0x3FFF8000, 0x7F7FFFFF].map fun w => (convertBits .fp32 .bf16 RndCtx.rne w).1) = [0x3F80, 0x3F82, 0x4000, 0x7F80]
    ∧ ([0x3FC00000, 0x40200000, 0xC0200000, 0x4F000000].map fun w => (convertBits .fp32 .int32 RndCtx.rne w).1) = [2, 2, 2 ^ 32 - 2, 2 ^ 31] := by
  decide +kernel

/-- R513: a clear leaves a cluster's counter the events of the current beat; another counter falls to 0. -/
theorem test_ClearKeepsTheBeat :
    ((((State.reset.bump (A.maCmds 0 0) 3).nextBeat 0 0 1 id).bump (A.maCmds 0 0) 2).clearCounter false (A.maCmds 0 0)).regN (A.maCmds 0 0) = 2
    ∧ ((State.reset.bump A.denied 3).clearCounter false A.denied).regN A.denied = 0 := by
  decide +kernel

end

end Sys2Proof.Tests
end

section
/-!
SUPPORT. What a register's place in the layout says about a write of it, and the effect of a write that only stores.
-/
namespace Sys2Proof.Machine

/-! ### What the layout says of a register (R13, R426, R510) -/

/-- What holds of every register at offset `a`: W1S bits lie only in registers whose writes act, a context's own register names one of the sixteen,
what SEQ and SYNC_POKE take at a region is write-only, and a cluster's block names a cluster that exists. -/
structure RegDef.FitsAt (a : Nat) (d : RegDef) : Prop where
  w1s     : d.w1s = 0 ∨ actionReg a = true
  ctx     : ∀ c, d.acc = .ctx c → c < 16
  region  : ∀ r, d.home = .region r → d.acc = .seq ∨ d.acc = .poke → d.wo = true
  cluster : ∀ r k, d.home = .cluster r k → r < 48 ∧ k < 9

/-- A row of the layout, where it has one, fits. -/
def RowFits (a : Nat) (o : Option RegDef) : Prop := ∀ d, o = some d → d.FitsAt a

variable {a : Nat}

@[simp] theorem rowFits_none : RowFits a none := nofun

theorem rowFits_some {d : RegDef} : RowFits a (some d) ↔ d.FitsAt a := by simp [RowFits]

/-- A row of a module's own block without W1S bits fits when its context exists. -/
theorem RegDef.fitsAt_module {d : RegDef} (hh : d.home = .module) (hs : d.w1s = 0 ∨ actionReg a = true) (hc : ∀ c, d.acc = .ctx c → c < 16) :
    d.FitsAt a := ⟨hs, hc, by simp [hh], by simp [hh]⟩

@[simp] theorem rowFits_rdOnly : RowFits a rdOnly := rowFits_some.mpr (RegDef.fitsAt_module rfl (.inl rfl) nofun)
@[simp] theorem rowFits_counter : RowFits a counter := rowFits_some.mpr (RegDef.fitsAt_module rfl (.inl rfl) nofun)
@[simp] theorem rowFits_counterRo : RowFits a counterRo := rowFits_some.mpr (RegDef.fitsAt_module rfl (.inl rfl) nofun)
@[simp] theorem rowFits_units : RowFits a units := rowFits_some.mpr (RegDef.fitsAt_module rfl (.inl rfl) nofun)

/-- A row of a module's block fits when the context that it is of, if any, exists. -/
theorem rowFits_acc {rw c : Nat} {wo : Bool} {kd : RKind} {x : WAcc} :
    RowFits a (some ⟨rw, c, 0, wo, kd, x, .module⟩) ↔ ∀ c, x = .ctx c → c < 16 :=
  ⟨fun h => (h _ rfl).ctx, fun h => rowFits_some.mpr (RegDef.fitsAt_module rfl (.inl rfl) h)⟩

@[simp] theorem rowFits_rdWr {m : Nat} {x : WAcc} : RowFits a (rdWr m x) ↔ ∀ c, x = .ctx c → c < 16 := rowFits_acc
@[simp] theorem rowFits_wrOnly {x : WAcc} : RowFits a (wrOnly x) ↔ ∀ c, x = .ctx c → c < 16 := rowFits_acc
@[simp] theorem rowFits_w1c {m : Nat} {x : WAcc} : RowFits a (w1c m x) ↔ ∀ c, x = .ctx c → c < 16 := rowFits_acc

/-- W1S bits may stand in a register whose writes act. -/
@[simp] theorem rowFits_withW1s {m : Nat} {o : Option RegDef} (ha : actionReg a = true) : RowFits a (withW1s m o) ↔ RowFits a o := by
  cases o with
  | none => exact Iff.rfl
  | some d =>
    show RowFits a (some { d with w1s := m }) ↔ _
    rw [rowFits_some, rowFits_some]
    exact ⟨fun h => { h with w1s := .inr ha }, fun h => { h with w1s := .inr ha }⟩

theorem rowFits_at_ctx {c : Nat} {o : Option RegDef} (h : RowFits a o) : RowFits a (RegDef.at o (.ctx c)) := by
  intro d hd
  obtain ⟨e, he, rfl⟩ := Option.map_eq_some_iff.mp hd
  exact ⟨(h e he).w1s, (h e he).ctx, nofun, nofun⟩

theorem rowFits_at_cluster {r k : Nat} {o : Option RegDef} (hr : r < 48) (hk : k < 9) (h : RowFits a o) : RowFits a (RegDef.at o (.cluster r k)) := by
  intro d hd
  obtain ⟨e, he, rfl⟩ := Option.map_eq_some_iff.mp hd
  refine ⟨(h e he).w1s, (h e he).ctx, nofun, ?_⟩
  rintro _ _ ⟨⟩
  exact ⟨hr, hk⟩

theorem rowFits_at_region {r : Nat} {o : Option RegDef} (h : RowFits a o) (hw : ∀ d, o = some d → d.acc = .seq ∨ d.acc = .poke → d.wo = true) :
    RowFits a (RegDef.at o (.region r)) := by
  intro d hd
  obtain ⟨e, he, rfl⟩ := Option.map_eq_some_iff.mp hd
  exact ⟨(h e he).w1s, (h e he).ctx, fun _ _ => hw e he, nofun⟩

theorem isIdx_iff {o base step n : Nat} : isIdx o base step n = true ↔ base ≤ o ∧ (o - base) % step = 0 ∧ (o - base) / step < n := by
  unfold isIdx idxOf
  split <;> simp_all

/-! #### Registers whose writes act -/

theorem actionReg_named : ∀ a ∈ [A.fwCtrl, A.stageCtrl, A.maqCtrl, A.mboxInCtrl, A.mboxOutCfg, A.mboxTail, A.scrubCtrl, A.abist, A.govCtrl, A.grace, A.mlmWin],
    actionReg a = true := by decide

theorem actionReg_ctxJob : ∀ c, c < 16 → actionReg (A.ctxJob c) = true := by decide

theorem actionReg_snapCtl : ∀ c, c < 16 → actionReg (A.snapCtl c) = true := by decide

/-! Those with W1S bits, by their offsets in the configuration, security and health blocks (R454, R506, R430, R396). -/

theorem actionReg_cfg : ∀ o ∈ [0x408, 0x420, 0x440, 0x800], actionReg (A.cfg o) = true := by decide

theorem actionReg_scrubCtrl : actionReg (A.sec 0x28) = true := by decide

theorem actionReg_abist : actionReg (A.hlt 0x90) = true := by decide

/-- SNAP_CTL_c, by its offset in the plinth memory block (R397). -/
theorem actionReg_mem_snapCtl {o : Nat} (h : 0x200 ≤ o ∧ o < 0x400) (h8 : o % 0x20 = 8) : actionReg (A.mem o) = true := by
  have ha : A.mem o = A.snapCtl ((o - 0x200) / 0x20) := by
    simp only [A.mem, A.snapCtl]
    omega
  rw [ha]
  exact actionReg_snapCtl _ (by omega)

/-- A choice of rows fits when each of them does where it is chosen. -/
theorem rowFits_ite {c : Prop} [Decidable c] {x y : Option RegDef} (hx : c → RowFits a x) (hy : ¬c → RowFits a y) : RowFits a (if c then x else y) := by
  split
  · exact hx ‹_›
  · exact hy ‹_›

/-! #### Block by block -/

theorem cfgReg_fits (o : Nat) : RowFits (A.cfg o) (cfgReg o) := by
  unfold cfgReg
  repeat' refine rowFits_ite (fun h => ?_) (fun _ => ?_)
  all_goals simp_all [actionReg_cfg]

theorem pwrReg_fits (o : Nat) : RowFits a (pwrReg o) := by
  unfold pwrReg
  repeat' refine rowFits_ite (fun h => ?_) (fun _ => ?_)
  all_goals simp [rowFits_acc]

theorem secReg_fits (o : Nat) : RowFits (A.sec o) (secReg o) := by
  unfold secReg
  repeat' refine rowFits_ite (fun h => ?_) (fun _ => ?_)
  all_goals simp_all [actionReg_scrubCtrl]

theorem hltReg_fits (o : Nat) : RowFits (A.hlt o) (hltReg o) := by
  unfold hltReg
  repeat' refine rowFits_ite (fun h => ?_) (fun _ => ?_)
  all_goals simp_all [actionReg_abist]

theorem memReg_fits (o : Nat) : RowFits (A.mem o) (memReg o) := by
  unfold memReg
  dsimp only
  repeat' refine rowFits_ite (fun h => ?_) (fun _ => ?_)
  all_goals simp_all [actionReg_mem_snapCtl]
  all_goals omega

theorem syncReg_fits (o : Nat) : RowFits a (syncReg o) := by
  unfold syncReg
  dsimp only
  repeat' refine rowFits_ite (fun h => ?_) (fun _ => ?_)
  all_goals simp
  all_goals omega

theorem sfuReg_fits (o : Nat) : RowFits a (sfuReg o) := by
  unfold sfuReg
  dsimp only
  repeat' refine rowFits_ite (fun h => ?_) (fun _ => ?_)
  all_goals simp
  all_goals omega

theorem redReg_fits (o : Nat) : RowFits a (redReg o) := by
  unfold redReg
  dsimp only
  repeat' refine rowFits_ite (fun h => ?_) (fun _ => ?_)
  all_goals simp [rowFits_at_ctx]
  all_goals omega

theorem ekbReg_fits (o : Nat) : RowFits a (ekbReg o) := by
  unfold ekbReg
  dsimp only
  repeat' refine rowFits_ite (fun h => ?_) (fun _ => ?_)
  all_goals simp
  exact (isIdx_iff.mp h).2.2

theorem hbmReg_fits (o : Nat) : RowFits a (hbmReg o) := by
  unfold hbmReg
  repeat' refine rowFits_ite (fun h => ?_) (fun _ => ?_)
  all_goals simp

theorem cxlReg_fits (o : Nat) : RowFits a (cxlReg o) := by
  unfold cxlReg
  repeat' refine rowFits_ite (fun h => ?_) (fun _ => ?_)
  all_goals simp

theorem rtrReg_fits (o : Nat) : RowFits a (rtrReg o) := by
  unfold rtrReg
  repeat' refine rowFits_ite (fun h => ?_) (fun _ => ?_)
  all_goals simp

theorem rsyncReg_fits (o : Nat) : RowFits a (rsyncReg o) := by
  unfold rsyncReg
  repeat' refine rowFits_ite (fun h => ?_) (fun _ => ?_)
  all_goals simp

theorem seqReg_fits (o : Nat) : RowFits a (seqReg o) := by
  unfold seqReg
  repeat' refine rowFits_ite (fun h => ?_) (fun _ => ?_)
  all_goals simp

theorem engineReg_fits (b o : Nat) : RowFits a (engineReg b o) := by
  unfold engineReg
  split
  all_goals repeat' refine rowFits_ite (fun h => ?_) (fun _ => ?_)
  all_goals simp

/-- What SEQ writes at a region is write-only (R95). -/
theorem rtrReg_seq {o : Nat} {d : RegDef} (h : rtrReg o = some d) : d.acc = .seq ∨ d.acc = .poke → d.wo = true := by
  unfold rtrReg at h
  split_ifs at h <;> cases h <;> simp

/-- What SYNC_POKE takes is write-only (R293). -/
theorem rsyncReg_poke {o : Nat} {d : RegDef} (h : rsyncReg o = some d) : d.acc = .seq ∨ d.acc = .poke → d.wo = true := by
  unfold rsyncReg at h
  split_ifs at h <;> cases h <;> simp

theorem regionReg_fits {r : Nat} (o : Nat) (hr : r < 48) : RowFits a (regionReg r o) := by
  unfold regionReg
  dsimp only
  refine rowFits_ite (fun _ => rowFits_at_region (rtrReg_fits o) fun _ => rtrReg_seq) fun _ => ?_
  refine rowFits_ite (fun _ => rowFits_at_region (rsyncReg_fits _) fun _ => rsyncReg_poke) fun _ => ?_
  refine rowFits_ite (fun h => rowFits_at_cluster hr (by omega) ?_) fun _ => rowFits_none
  exact rowFits_ite (fun _ => seqReg_fits _) fun _ => engineReg_fits _ _

/-- A block's rows fit at the offsets of control space where the block lies. -/
theorem rowFits_block {f : Nat → Option RegDef} {b : Nat} (h : ∀ o, RowFits (b + o) (f o)) (ha : b ≤ a) : RowFits a (f (a - b)) := by
  have := h (a - b)
  rwa [Nat.add_sub_cancel' ha] at this

/-- Every register fits its offset. -/
theorem regAt_fits {d : RegDef} (h : regAt a = some d) : d.FitsAt a := by
  suffices RowFits a (regAt a) from this d h
  unfold regAt
  refine rowFits_ite (fun _ => rowFits_none) fun _ => ?_
  refine rowFits_ite (fun _ => cfgReg_fits a) fun _ => ?_
  refine rowFits_ite (fun _ => pwrReg_fits _) fun _ => ?_
  refine rowFits_ite (fun _ => rowFits_block secReg_fits (by omega)) fun _ => ?_
  refine rowFits_ite (fun _ => rowFits_block hltReg_fits (by omega)) fun _ => ?_
  refine rowFits_ite (fun _ => rowFits_block memReg_fits (by omega)) fun _ => ?_
  refine rowFits_ite (fun _ => syncReg_fits _) fun _ => ?_
  refine rowFits_ite (fun _ => sfuReg_fits _) fun _ => ?_
  refine rowFits_ite (fun _ => redReg_fits _) fun _ => ?_
  refine rowFits_ite (fun _ => ekbReg_fits _) fun _ => ?_
  refine rowFits_ite (fun _ => hbmReg_fits _) fun _ => ?_
  refine rowFits_ite (fun h => regionReg_fits _ (by omega)) fun _ => ?_
  exact rowFits_ite (fun _ => cxlReg_fits _) fun _ => rowFits_none

/-! ### Registers that only store what is written (R13, R14) -/

/-- Register `d` at offset `a` only stores what is written: it is no counter and no power register, it is read, and its writes do not act. -/
structure OnlyStores (a : Nat) (d : RegDef) : Prop where
  at_     : regAt a = some d
  acc     : d.acc ≠ .ro
  wo      : d.wo = false
  counter : d.isCounter = false
  power   : d.kind ≠ .power
  action  : actionReg a = false

/-- A register that is written and never read. -/
def writeOnlyAt (a : Nat) : Bool := match regAt a with | some d => d.wo | none => false

theorem writeOnlyAt_commands : ∀ a ∈ [A.bootSel, A.secRotate, A.regionAssign, A.hltRecover, A.resetReq, A.bistReq, A.hltRetire, A.join, A.xlateInv],
    writeOnlyAt a = true := by decide +kernel

/-- The inbox, 32 words of eight bytes at a time (R503). -/
theorem writeOnlyAt_inbox : ∀ j, j < 16 → ∀ i, i < 32 → writeOnlyAt (A.cfg (0x1000 + 256 * j + 8 * i)) = true := by decide +kernel

theorem writeOnlyAt_doorbell {r k : Nat} (hr : r < 48) (hk : k < 9) : writeOnlyAt (A.doorbell r k) = true := by
  simp [writeOnlyAt, regAt_doorbell r hr k hk]

variable {d : RegDef}

theorem Reaches.regAt_eq {s : State} {p : Party} {w : Nat} (h : Reaches s p a d w) : regAt a = some d := by
  obtain ⟨-, -, -, hd, -⟩ := h
  exact hd

namespace OnlyStores

theorem not_writeOnlyAt (h : OnlyStores a d) : writeOnlyAt a = false := by simp [writeOnlyAt, h.at_, h.wo]

theorem ne_of_writeOnlyAt (h : OnlyStores a d) {b : Nat} (hb : writeOnlyAt b = true) : a ≠ b := by
  rintro rfl
  simp [h.not_writeOnlyAt] at hb

theorem ne_of_actionReg (h : OnlyStores a d) {b : Nat} (hb : actionReg b = true) : a ≠ b := by
  rintro rfl
  simp [h.action] at hb

theorem w1s_eq (h : OnlyStores a d) : d.w1s = 0 := (regAt_fits h.at_).w1s.resolve_right (by simp [h.action])

variable {s : State} {p : Party} {w : Nat} {x : WriteEnv}

theorem not_inbox (h : OnlyStores a d) : ¬(A.cfg 0x1000 ≤ a ∧ a < A.cfg 0x2000) := by
  intro hi
  simp only [A.cfg] at hi
  have h8 := regAt_aligned h.at_
  have ha : a = A.cfg (0x1000 + 256 * ((a - 0x1000) / 256) + 8 * (a % 256 / 8)) := by simp only [A.cfg]; omega
  exact h.ne_of_writeOnlyAt (writeOnlyAt_inbox _ (by omega) _ (by omega)) ha

theorem writeCfg_eq (h : OnlyStores a d) : s.writeCfg a d w x = s.storeFields a d w := by
  have hn {b : Nat} := h.ne_of_actionReg (b := b)
  have hb : a ≠ A.bootSel := h.ne_of_writeOnlyAt (writeOnlyAt_commands _ (by simp))
  unfold State.writeCfg
  simp [hn (actionReg_named _ _), h.not_inbox, hb]

theorem writeSec_eq (h : OnlyStores a d) : s.writeSec a d w = s.storeFields a d w := by
  have hr : a ≠ A.secRotate := h.ne_of_writeOnlyAt (writeOnlyAt_commands _ (by simp))
  have ha : a ≠ A.regionAssign := h.ne_of_writeOnlyAt (writeOnlyAt_commands _ (by simp))
  have hs : a ≠ A.scrubCtrl := h.ne_of_actionReg (actionReg_named _ (by simp))
  unfold State.writeSec
  simp [hr, ha, hs]

theorem writeHlt_eq (h : OnlyStores a d) : s.writeHlt a d w x = s.storeFields a d w := by
  have hn {b : Nat} (hb : b ∈ _) := h.ne_of_writeOnlyAt (writeOnlyAt_commands b hb)
  have hs : a ≠ A.abist := h.ne_of_actionReg (actionReg_named _ (by simp))
  unfold State.writeHlt
  simp [hn, hs]

theorem writeRest_eq (h : OnlyStores a d) : s.writeRest p a d w x = s.storeFields a d w := by
  have hf := regAt_fits h.at_
  have hn {b : Nat} (hb : b ∈ _) := h.ne_of_writeOnlyAt (writeOnlyAt_commands b hb)
  have ha {b : Nat} (hb : b ∈ _) := h.ne_of_actionReg (actionReg_named b hb)
  unfold State.writeRest
  rw [if_neg (ha (by simp)), if_neg (ha (by simp)), if_neg (hn (by simp)), if_neg (hn (by simp)), if_neg (ha (by simp))]
  split
  · next c hc =>
    rw [if_neg (h.ne_of_actionReg (actionReg_ctxJob c (hf.ctx c hc))), if_neg (h.ne_of_actionReg (actionReg_snapCtl c (hf.ctx c hc)))]
  · next r hc hh => exact absurd (hf.region r hh (.inr hc)) (by simp [h.wo])
  · next r hc hh => exact absurd (hf.region r hh (.inl hc)) (by simp [h.wo])
  · next r k hc hh =>
    obtain ⟨hr, hk⟩ := hf.cluster r k hh
    exact if_neg (h.ne_of_writeOnlyAt (writeOnlyAt_doorbell hr hk))
  · rfl

theorem writeAction_eq (h : OnlyStores a d) : s.writeAction p a d w x = s.storeFields a d w := by
  unfold State.writeAction
  rw [if_neg (by simp [h.counter, h.power]), h.writeCfg_eq, h.writeSec_eq, h.writeHlt_eq, h.writeRest_eq]
  simp

theorem not_refusedActivating (h : OnlyStores a d) : refusedActivating a = false := by
  have hn {b : Nat} (hb : b ∈ _) := h.ne_of_writeOnlyAt (writeOnlyAt_commands b hb)
  have ha {b : Nat} (hb : b ∈ _) := h.ne_of_actionReg (actionReg_named b hb)
  simp [refusedActivating, hn, ha]

/-- A permitted write of such a register stores its fields and does no more. -/
theorem csrWrite_eq (h : OnlyStores a d) (hr : Reaches s p a d w) : s.csrWrite p a w x = s.storeFields a d w := by
  obtain ⟨ho, hv, hs, hd, hg, hm⟩ := hr
  rw [State.csrWrite_reaches x ho hv hs hd hg hm]
  unfold State.writeEffect
  simp [h.acc, h.not_refusedActivating, h.w1s_eq, h.writeAction_eq]

end OnlyStores

/-- One bit as the masks of `storeFields` make it, and by its access code: `v` written over `old`, `just` set by the module in the same beat. -/
theorem storedBit_eq : ∀ old rw w1c v just : Bool,
    ((old && !rw || v && rw) && !(v && w1c && !just)) = if w1c && v && !just then false else if rw then v else old := by decide

/-- The bits of a register after its fields are stored (R13, R14). -/
theorem State.bit_storeFields (s : State) (a : Nat) (d : RegDef) (w : Nat) {i : Nat} (hi : i < 64) :
    (s.storeFields a d w).bit a i
      = (if d.w1c.testBit i && w.testBit i && !(s.justSet a d).testBit i then false else if d.rw.testBit i then w.testBit i else s.bit a i) := by
  unfold State.storeFields State.bit State.regN
  rw [State.reg_setReg_same, BitVec.toNat_ofNat, Nat.testBit_mod_two_pow]
  simp only [Nat.testBit_and, Nat.testBit_or, Nat.testBit_xor, Nat.testBit_two_pow_sub_one, hi, decide_true, Bool.true_and, Bool.true_bne]
  exact storedBit_eq _ _ _ _ _

theorem State.reg_storeFields_ne (s : State) {a b : Nat} (d : RegDef) (w : Nat) (h : b ≠ a) : (s.storeFields a d w).reg b = s.reg b :=
  State.reg_setReg_ne s _ h

/-- Storing fields touches registers only. -/
theorem State.sameMemory_storeFields (s : State) (a : Nat) (d : RegDef) (w : Nat) : SameMemory s (s.storeFields a d w) :=
  ⟨fun _ => rfl, rfl, rfl⟩

end Sys2Proof.Machine
end

section
/-!
SUPPORT. REGISTER_WRITE of a register that only stores (R13, R14).
-/
namespace Sys2Proof.Machine

theorem exec_registerWrite {p : Party} {a : Nat} {w : Reg64} (s : State) (hw : Instr.wf (.registerWrite p a w) = true) :
    exec (.registerWrite p a w) s = .next (s.csrWrite p a w.toNat WriteEnv.none) := if_pos hw

/-- Settles O21: a write of a register that only stores comes to `storeFields`, whose bits are those of the access codes. -/
theorem registerWriteStores : Obligations.RegisterWriteStores := by
  intro s p a w d hw hr hro hwo hc hp ha
  have h : OnlyStores a d := ⟨hr.regAt_eq, hro, hwo, hc, hp, ha⟩
  have ht : exec (.registerWrite p a w) s = .next (s.storeFields a d w.toNat) := by rw [exec_registerWrite s hw, h.csrWrite_eq hr]
  exact ⟨_, ht, fun i hi => s.bit_storeFields a d w.toNat hi, fun b hb => s.reg_storeFields_ne d w.toNat hb, fun _ _ => rfl, fun _ => rfl,
    fun _ => rfl, s.sameMemory_storeFields a d w.toNat⟩

end Sys2Proof.Machine
end

section
/-!
SUPPORT. What reset leaves, and the events of power that reset the module (R3, R4, R480, R484 to R486, R492).
-/
namespace Sys2Proof.Machine

/-! ### Reset (R3, R480, R485) -/

theorem regN_reset_admShare : ∀ r, r < 48 → State.reset.regN (A.admShare r) = 0x04280C04 := by decide +kernel

/-- Registers that do not reset to 0, and some that do (R3, R43, R61, R336, R396, R481, R506). -/
theorem reset_registers :
    State.reset.regN A.ident = 0x02B1204820 ∧ State.reset.regN A.govCtrl = 0x640 ∧ State.reset.regN A.grace = 0x64
    ∧ State.reset.regN A.riskGain = 0x1010101010 ∧ State.reset.fieldN A.bistCtrl 1 8 = 0x78 ∧ State.reset.fieldN A.hltHeartbeat 32 3 = 1
    ∧ State.reset.regN A.mboxOutCfg = 4 ∧ State.reset.regN A.member = 0 ∧ State.reset.regN A.secStatus = 0 ∧ State.reset.regN A.bootStatus = 0 := by
  decide +kernel

theorem reset_anyOwned : State.reset.anyOwned = false := by decide +kernel

theorem reset_contextsNamed : ContextsNamed State.reset := ⟨nofun, nofun⟩

/-- Settles O58: each register is read from the reset list, every other clause is the reset state's own field. -/
theorem resetLeaves : Obligations.ResetLeaves := by
  obtain ⟨hident, hcap, hgrace, hgain, hbist, hbeat, hslots, hmember, hsec, hboot⟩ := reset_registers
  exact ⟨⟨hident, hcap, hgrace, hgain, hbist, hbeat, hslots, regN_reset_admShare, hmember, hsec, hboot, rfl, rfl, reset_anyOwned, rfl, rfl,
    fun _ _ => rfl, fun _ => rfl, fun _ => rfl⟩, rfl, reset_contextsNamed⟩

/-! ### Power-on reset (R480, R484, R485, R492) -/

theorem State.stageCut_of_none {s : State} (h : s.firm.stage = none) : s.stageCut = s := by
  unfold State.stageCut
  rw [h]

/-- What a power-on reset of `s` leaves in `t`: everything but the flash is reset, and the module stands at `b`. -/
structure ResetTo (s t : State) (b : Boot) : Prop where
  boot     : t.boot = b
  regs     : t.regs = State.reset.regs
  clusters : t.clusters = []
  regions  : t.regions = []
  ctxs     : t.ctxs = []
  sessions : t.sessions = []
  maq      : t.maq = none
  identity : t.identity = none
  sent     : t.sent = []
  bars     : t.bars = []
  ready    : t.pins.ready = false
  flash    : t.flash = s.flash
  mem      : ∀ a, isCxl a = false → t.mem.read a = 0#8

theorem State.powerReset_resetTo {s : State} (h : s.firm.stage = none) (b : Boot) : ResetTo s (s.powerReset b) b := by
  constructor
  case mem =>
    intro a ha
    simp only [State.powerReset, State.stageCut_of_none h]
    split
    · simp [Memory.read, Sparse.get_erase, ha]
    · rfl
  case flash => simp only [State.powerReset, State.stageCut_of_none h]; rfl
  all_goals rfl

/-- Pins other than READY may move with it. -/
theorem ResetTo.withPins {s t : State} {b : Boot} {p : Pins} (h : ResetTo s t b) (hp : p.ready = false) : ResetTo s { t with pins := p } b :=
  { h with ready := hp }

/-- The reset that the module takes itself waits on PORST_N. -/
theorem State.selfReset_resetTo {s : State} (h : s.firm.stage = none) : ResetTo s s.selfReset (if s.pins.porst then .held else .porst) := by
  unfold State.selfReset
  split <;> exact s.powerReset_resetTo h _

/-- A live module has VIN and has not tripped. -/
theorem State.alive_boot {s : State} (h : s.alive = true) : s.boot ≠ .off ∧ s.boot ≠ .tripped := by
  constructor <;> intro hb <;> simp [State.alive, hb] at h

section
variable {s : State} {mv us : Nat}

/-! What each power event comes to, case by case. -/

theorem State.porstAssert_off (h : s.boot = .off) : s.porstAssert = { s with pins := { s.pins with porst := false } } := by
  simp [State.porstAssert, h]

theorem State.porstAssert_on (h : s.boot ≠ .off) :
    s.porstAssert = { s.powerReset .porst with pins := { (s.powerReset .porst).pins with porst := false } } := by
  simp [State.porstAssert, h]

theorem State.vinUnder_lost : s.vinUnder 0 us = s.vinLost := by simp [State.vinUnder]

theorem State.vinUnder_low (h0 : 0 < mv) (h : mv < 50000 ∨ mv < 54000 ∧ 10000 < us) (ht : s.boot ≠ .tripped) (ho : s.boot ≠ .off) :
    s.vinUnder mv us = s.selfReset := by
  have h1 : ¬54000 ≤ mv := by omega
  have h2 : mv < 50000 ∨ 10000 < us := by omega
  simp [State.vinUnder, h1, h2, ht, ho, Nat.ne_of_gt h0]

theorem State.vinUnder_brief (hl : 50000 ≤ mv) (hm : mv < 54000) (hu : us ≤ 10000) (ha : s.alive = true) :
    s.vinUnder mv us = (s.setB A.govStatus 9 true).setB A.vinStatus 0 true := by
  have h1 : ¬54000 ≤ mv := by omega
  have h2 : ¬(mv < 50000 ∨ 10000 < us) := by omega
  have h3 : mv ≠ 0 := by omega
  unfold State.vinUnder
  rw [if_neg h1, if_neg h3, if_neg (by simp [(State.alive_boot ha).1]), if_neg h2, if_pos ha]

theorem State.vinOver_high (h : 66000 < mv ∨ 63000 < mv ∧ 100000 < us) (ht : s.boot ≠ .tripped) (ho : s.boot ≠ .off) :
    s.vinOver mv us = { s.selfReset with pins := { s.selfReset.pins with converters := false } } := by
  have h1 : ¬mv ≤ 63000 := by omega
  have h2 : 66000 < mv ∨ 100000 < us := by omega
  simp [State.vinOver, h1, h2, ht, ho]

theorem State.vinOver_brief (hl : 63000 < mv) (hm : mv ≤ 66000) (hu : us ≤ 100000) (ha : s.alive = true) :
    s.vinOver mv us = (s.setB A.govStatus 9 true).setB A.vinStatus 1 true := by
  have h1 : ¬mv ≤ 63000 := by omega
  have h2 : ¬(66000 < mv ∨ 100000 < us) := by omega
  obtain ⟨ho, ht⟩ := State.alive_boot ha
  unfold State.vinOver
  rw [if_neg (by simp [h1, ht, ho]), if_neg h2, if_pos ha]

theorem State.thermalTrip_reached {j h : Int} (hj : 115 ≤ j ∨ 105 ≤ h) (hu : 100 ≤ us) (ht : s.boot ≠ .tripped) (ho : s.boot ≠ .off) :
    s.thermalTrip j h us
      = { s.powerReset .tripped with pins := { (s.powerReset .tripped).pins with thermtrip := false, converters := false } } := by
  simp [State.thermalTrip, hj, hu, ht, ho]

theorem State.recovEdge_held (hp : s.pins.porst = true) (hu : 1000 ≤ us) (ha : s.alive = true) : s.recovEdge us = s.beginRecovery := by
  simp [State.recovEdge, State.mayRecover, hp, hu, ha]

theorem State.recovEdge_ignored (h : s.pins.porst = false ∨ us < 1000) : s.recovEdge us = s := by
  unfold State.recovEdge
  rw [if_neg]
  rcases h with h | h <;> simp [h]

/-- R479: recovery begins with STAGE at 0 and READY low. -/
theorem State.stage_beginRecovery (s : State) : s.beginRecovery.fieldN A.bootStatus 0 5 = 0 := by
  show regField ((s.setFld A.bootStatus 0 5 0).reg A.bootStatus) 0 5 = 0
  rw [State.setFld_eq, State.reg_setReg_same]
  exact (regField_setField _ 0 5 0 (by omega)).trans (Nat.zero_mod _)

end

/-- A power event that resets the module, and where the module stands after it (R4, R484, R485, R492). -/
def PowerResets (s : State) (i : Instr) (b : Boot) : Prop :=
  i = .porstAssert ∧ s.boot ≠ .off ∧ b = .porst
    ∨ (∃ us, i = .vinUndervoltage 0 us) ∧ b = .off
    ∨ (∃ mv us, i = .vinUndervoltage mv us ∧ 0 < mv ∧ (mv < 50000 ∨ mv < 54000 ∧ 10000 < us) ∧ s.boot ≠ .tripped ∧ s.boot ≠ .off)
        ∧ b = (if s.pins.porst then .held else .porst)
    ∨ (∃ mv us, i = .vinOvervoltage mv us ∧ (66000 < mv ∨ 63000 < mv ∧ 100000 < us) ∧ s.boot ≠ .tripped ∧ s.boot ≠ .off)
        ∧ b = (if s.pins.porst then .held else .porst)
    ∨ (∃ j h us, i = .thermalTrip j h us ∧ (115 ≤ j ∨ 105 ≤ h) ∧ 100 ≤ us ∧ s.boot ≠ .tripped ∧ s.boot ≠ .off) ∧ b = .tripped

/-- What the pins show after such a reset besides READY. -/
def PinsAfter (i : Instr) (b : Boot) (p : Pins) : Prop :=
  (i = .porstAssert → p.porst = false) ∧ (b = .tripped → p.thermtrip = false ∧ p.converters = false) ∧ (b = .off → p.converters = false)

/-- A reset that the module takes itself leaves it neither tripped nor without VIN. -/
theorem pinsAfter_selfReset {i : Instr} {c : Bool} (hi : i ≠ .porstAssert) (p : Pins) : PinsAfter i (if c then .held else .porst) p :=
  ⟨fun h => absurd h hi, by cases c <;> nofun, by cases c <;> nofun⟩

theorem powerResets_spec {s : State} {i : Instr} {b : Boot} (hs : s.firm.stage = none) (h : PowerResets s i b) :
    ∃ t, exec i s = .next t ∧ ResetTo s t b ∧ PinsAfter i b t.pins := by
  rcases h with ⟨rfl, ho, rfl⟩ | ⟨⟨us, rfl⟩, rfl⟩ | ⟨⟨mv, us, rfl, h0, hm, ht, ho⟩, rfl⟩ | ⟨⟨mv, us, rfl, hm, ht, ho⟩, rfl⟩
    | ⟨⟨j, h, us, rfl, hj, hu, ht, ho⟩, rfl⟩
  · exact ⟨_, congrArg Host.Outcome.next (State.porstAssert_on ho), (State.powerReset_resetTo hs _).withPins rfl, fun _ => rfl, nofun, nofun⟩
  · exact ⟨_, congrArg Host.Outcome.next State.vinUnder_lost, (State.powerReset_resetTo hs _).withPins rfl, nofun, nofun, fun _ => rfl⟩
  · exact ⟨_, congrArg Host.Outcome.next (State.vinUnder_low h0 hm ht ho), State.selfReset_resetTo hs, pinsAfter_selfReset (by simp) _⟩
  · exact ⟨_, congrArg Host.Outcome.next (State.vinOver_high hm ht ho), (State.selfReset_resetTo hs).withPins (State.selfReset_resetTo hs).ready,
      pinsAfter_selfReset (by simp) _⟩
  · exact ⟨_, congrArg Host.Outcome.next (State.thermalTrip_reached hj hu ht ho), (State.powerReset_resetTo hs _).withPins rfl, nofun, fun _ => ⟨rfl, rfl⟩, nofun⟩

/-- Settles O36, event by event: each reset is a `powerReset` with pins moved, the rest sets two bits or begins recovery. -/
theorem powerEventsReset : Obligations.PowerEventsReset := by
  intro s hs
  refine ⟨fun i b h => ?_, fun ho => ⟨_, rfl, State.porstAssert_off ho⟩, fun mv us hl hm hu ha => ⟨_, rfl, State.vinUnder_brief hl hm hu ha⟩,
    fun mv us hl hm hu ha => ⟨_, rfl, State.vinOver_brief hl hm hu ha⟩, fun us ha => ⟨_, rfl, fun hp hu => ?_, State.recovEdge_ignored⟩⟩
  · obtain ⟨t, ht, r, hp, htrip, hoff⟩ := powerResets_spec hs h
    exact ⟨t, ht, r.boot, r.regs, r.clusters, r.regions, r.ctxs, r.sessions, r.maq, r.identity, r.sent, r.bars, r.ready, r.flash, r.mem, hp, htrip, hoff⟩
  · rw [State.recovEdge_held hp hu ha]
    exact ⟨rfl, rfl, rfl, s.stage_beginRecovery, fun _ => rfl, rfl, rfl⟩

end Sys2Proof.Machine
end

section
/-!
SUPPORT. The debug port (R4, R508): what each instruction comes to, and what it captures next.
-/
namespace Sys2Proof.Machine

theorem State.whenPowered_off {s : State} (f : State → State) (h : s.boot = .off) : s.whenPowered f = s := by
  simp [State.whenPowered, h]

theorem State.whenPowered_on {s : State} (f : State → State) (h : s.boot ≠ .off) : s.whenPowered f = f s := by
  simp [State.whenPowered, h]

section
variable (s : State) (code : Nat) (bits : List Bool)

theorem State.drivePins_low (h : s.pins.porst = false) :
    s.drivePins code bits = { s with dbg := { s.dbg with ir := code, bscan := bits, driven := true } } := by
  simp [State.drivePins, h]

theorem State.drivePins_high (h : s.pins.porst = true) : s.drivePins code bits = s.setIr 0xFF := by
  simp [State.drivePins, h]

/-- Driving pins touches nothing but the port. -/
theorem State.drivePins_dbg : s.drivePins code bits = { s with dbg := (s.drivePins code bits).dbg } := by
  unfold State.drivePins
  split <;> rfl

theorem State.bypass_unlisted (h4 : 4 < code) (h10 : code ≠ 0x10) (h11 : code ≠ 0x11) (h8 : code < 256) : s.bypass code = s.setIr code := by
  have h : isListedIr code = false := by simp [isListedIr, h10, h11]; omega
  simp [State.bypass, Nat.mod_eq_of_lt h8, h]

/-- A code that selects no register with contents captures 0. -/
theorem State.capture_unlisted (h2 : code ≠ 2) (h10 : code ≠ 0x10) (h11 : code ≠ 0x11) : (s.setIr code).capture = 0 := by
  have hir : (s.setIr code).dbg.ir = code := rfl
  simp [State.capture, hir]

end

/-! #### CSRACC -/

/-- The port's result of a CSRACC: its data and whether it was refused. -/
def State.showCsr (s : State) (v : Reg64) (deny : Bool) : State :=
  { s with dbg := { s.dbg with csrData := v, csrDone := true, csrDeny := deny } }

theorem State.capture_showCsr {s : State} (h : s.dbg.ir = 0x10) (v : Reg64) (deny : Bool) :
    (s.showCsr v deny).capture = v.toNat + 2 ^ 106 + if deny then 2 ^ 107 else 0 := by
  simp only [State.capture, State.showCsr, h]
  rfl

section
variable (s : State) (p : Party) (a c : Nat) (d : RegDef) (w : Nat) (wr : Bool)

/-! The instruction register decides no access. -/

theorem State.csrOpen_setIr : (s.setIr c).csrOpen p a wr = s.csrOpen p a wr := rfl
theorem State.inGated_setIr : (s.setIr c).inGated d = s.inGated d := rfl
theorem State.mayRead_setIr : (s.setIr c).mayRead p a d = s.mayRead p a d := rfl
theorem State.valueFor_setIr : (s.setIr c).valueFor p a d = s.valueFor p a d := rfl
theorem State.csrDenied_setIr : (s.setIr c).csrDenied p a wr w = s.csrDenied p a wr w := rfl

theorem fst_ite_congr {α β : Type} {c : Prop} [Decidable c] {x x' y y' : α × β} (hx : x.1 = x'.1) (hy : y.1 = y'.1) :
    (if c then x else y).1 = (if c then x' else y').1 := by
  split <;> assumption

theorem State.csrRead_setIr : ((s.setIr c).csrRead p a).1 = (s.csrRead p a).1 := by
  simp only [State.csrRead, State.csrOpen_setIr, State.inGated_setIr, State.mayRead_setIr, State.valueFor_setIr]
  refine fst_ite_congr rfl (fst_ite_congr rfl (fst_ite_congr rfl (fst_ite_congr rfl ?_)))
  cases regAt a with
  | none => rfl
  | some d => exact fst_ite_congr rfl (fst_ite_congr rfl rfl)

end

theorem Reaches.setIr {s : State} {p : Party} {a : Nat} {d : RegDef} {w : Nat} (h : Reaches s p a d w) (c : Nat) : Reaches (s.setIr c) p a d w := h

/-- A read that is not refused leaves the state as it was. -/
theorem State.csrRead_snd {s : State} {p : Party} {a w : Nat} (ha : a % 8 = 0) (h : s.csrDenied p a false w = false) : (s.csrRead p a).2 = s := by
  unfold State.csrDenied at h
  unfold State.csrRead
  cases hd : regAt a with
  | none => simp [ha, apply_ite Prod.snd]
  | some d =>
    simp only [hd] at h
    simp only [apply_ite Prod.snd]
    split_ifs <;> simp_all

/-- A write that reaches its register is not refused. -/
theorem Reaches.not_denied {s : State} {p : Party} {a w : Nat} {d : RegDef} (h : Reaches s p a d w) : s.csrDenied p a true w = false := by
  obtain ⟨ho, hv, hs, hd, hg, hm⟩ := h
  simp [State.csrDenied, hs, hd, hm, regAt_aligned hd]

section
variable {s : State} {p : Party} {a w : Nat} {d : RegDef} (ho : s.csrOpen p a true = true) (hs : isSfuWindow a = false)
  (hv : inView p a = true) (hd : regAt a = some d) (hg : s.inGated d = false) (hm : s.mayWrite p a d w = false)
include ho hs hv hd hg hm

/-- A write that R426 does not permit is refused, and counts. -/
theorem State.csrDenied_of_not_mayWrite : s.csrDenied p a true w = true := by
  simp [State.csrDenied, ho, hs, hv, hd, hg, hm]

theorem State.csrWrite_of_not_mayWrite (x : WriteEnv) : s.csrWrite p a w x = s.deny := by
  unfold State.csrWrite
  simp only [ho, hv, hs, hd, hg, hm, regAt_aligned hd]
  cases d.home <;> rfl

end

/-- SEC_DENIED after a refusal. -/
theorem State.reg_deny (s : State) (b : Nat) :
    s.deny.reg b = if b = A.denied then BitVec.ofNat 64 (satAdd 48 (s.regN A.denied) 1) else s.reg b := by
  simp [State.deny, State.reg_bump]

theorem State.sameMemory_deny (s : State) : SameMemory s s.deny := ⟨fun _ => by rw [State.deny, State.bump_mem], s.bump_gran _ _, s.bump_flash _ _⟩

theorem csrOffset_eq {o : Nat} (h : o < 2 ^ 40) (h8 : o % 8 = 0) : o % 2 ^ 40 / 8 * 8 = o := by omega

section
variable (s : State) {o : Nat} (w : Reg64) (h : o < 2 ^ 40) (h8 : o % 8 = 0)
include h h8

theorem State.csracc_write :
    s.csracc o true true w = ((s.setIr 0x10).csrWrite .operator o w.toNat WriteEnv.none).showCsr
      (if s.csrDenied .operator o true w.toNat then 0 else w) (s.csrDenied .operator o true w.toNat) := by
  simp only [State.csracc, csrOffset_eq h h8, State.csrDenied_setIr]
  rfl

theorem State.csracc_read :
    s.csracc o false true w = ((s.setIr 0x10).csrRead .operator o).2.showCsr
      (BitVec.ofNat 64 (s.csrRead .operator o).1) (s.csrDenied .operator o false w.toNat) := by
  simp only [State.csracc, csrOffset_eq h h8, State.csrDenied_setIr, ← State.csrRead_setIr s .operator o 0x10]
  rfl

end

/-! #### MEMACC -/

/-- The port's result of a MEMACC: a granule's bytes and metadata, whether it is done, and whether it was refused. -/
def State.showMem (s : State) (bytes : List Byte) (bits : Nat) (done deny : Bool) : State :=
  { s with dbg := { s.dbg with memData := bytes, memMeta := bits, memDone := done, memDeny := deny } }

theorem State.sameMemory_showMem {s t : State} (h : SameMemory s t) (bytes : List Byte) (bits : Nat) (done deny : Bool) :
    SameMemory s (t.showMem bytes bits done deny) := h

section
variable {s : State} {g : Nat} (hb : g < 2 ^ 52) (h32 : g % 32 = 0) (ha : s.alive = true)
include hb h32 ha

/-- R263, R508: an HBM granule as stored. -/
theorem State.memacc_hbm (hh : isHbm g = true) (hu : s.stackUp g = true) :
    s.memacc g true = (s.setIr 0x11).showMem (s.granSeen g none) (s.metaBits g) true false := by
  have hg : g % 2 ^ 52 / 32 * 32 = g := by omega
  have hk : s.memaccOk g = true := by simp [State.memaccOk, hh]
  simp only [State.memacc, hg, ha, hk, hh, hu]
  rfl

/-- R508: an address where no memory lies is refused, and counts. -/
theorem State.memacc_denied (hk : s.memaccOk g = false) : s.memacc g true = (s.setIr 0x11).deny.showMem (List.replicate 32 0#8) 0 true true := by
  have hg : g % 2 ^ 52 / 32 * 32 = g := by omega
  simp only [State.memacc, hg, ha, hk]
  rfl

end

/-- A MEMACC reads. -/
theorem State.sameMemory_memacc (s : State) (g : Nat) (go : Bool) : SameMemory s (s.memacc g go) := by
  unfold State.memacc
  dsimp only
  split_ifs
  · exact ⟨fun _ => rfl, rfl, rfl⟩
  · exact State.sameMemory_showMem (s.setIr 0x11).sameMemory_deny _ _ _ _
  all_goals exact ⟨fun _ => rfl, rfl, rfl⟩

/-! #### The rows -/

/-- Without VIN the port does nothing (R4). -/
theorem debugPort_off {s : State} {i : Instr} {o : Nat} {b g : Bool} {w : Reg64} {bits : List Bool}
    (h : i = .csracc o b g w ∨ i = .memacc o g ∨ i = .idcode ∨ i = .extest bits ∨ i = .extestPulse bits ∨ i = .extestTrain bits ∨ i = .samplePreload bits
      ∨ i = .bypass o) (hb : s.boot = .off) : exec i s = .next s := by
  rcases h with rfl | rfl | rfl | rfl | rfl | rfl | rfl | rfl
  all_goals exact congrArg Host.Outcome.next (State.whenPowered_off _ hb)

theorem exec_drives {s : State} {i : Instr} {code : Nat} {bits : List Bool} (hb : s.boot ≠ .off)
    (h : i = .extest bits ∧ code = 0 ∨ i = .extestPulse bits ∧ code = 3 ∨ i = .extestTrain bits ∧ code = 4) :
    exec i s = .next (s.drivePins code bits) := by
  rcases h with ⟨rfl, rfl⟩ | ⟨rfl, rfl⟩ | ⟨rfl, rfl⟩
  all_goals exact congrArg Host.Outcome.next (State.whenPowered_on _ hb)

theorem exec_csracc {s : State} (hb : s.boot ≠ .off) (o : Nat) (b g : Bool) (w : Reg64) :
    exec (.csracc o b g w) s = .next (s.csracc o b g w) := congrArg Host.Outcome.next (State.whenPowered_on _ hb)

theorem exec_memacc {s : State} (hb : s.boot ≠ .off) (a : Nat) (g : Bool) :
    exec (.memacc a g) s = .next (s.memacc a g) := congrArg Host.Outcome.next (State.whenPowered_on _ hb)

section
variable {s : State} {o : Nat} {w : Reg64} {d : RegDef} (h : o < 2 ^ 40) (h8 : o % 8 = 0)
include h h8

/-- A read that is not refused shows the value as the operator reads it, and changes nothing else. -/
theorem State.csracc_read_spec (hd : s.csrDenied .operator o false w.toNat = false) :
    (s.csracc o false true w).capture = (s.csrRead .operator o).1 % 2 ^ 64 + 2 ^ 106 ∧ (∀ a, (s.csracc o false true w).reg a = s.reg a)
      ∧ SameMemory s (s.csracc o false true w) := by
  rw [s.csracc_read w h h8, hd, State.csrRead_snd (s := s.setIr 0x10) (w := w.toNat) h8 hd]
  refine ⟨?_, fun _ => rfl, fun _ => rfl, rfl, rfl⟩
  rw [State.capture_showCsr rfl, BitVec.toNat_ofNat, if_neg Bool.false_ne_true, Nat.add_zero]

/-- A write that reaches a register that only stores does what a register write does, and shows what was written. -/
theorem State.csracc_write_spec (hr : Reaches s .operator o d w.toNat) (hs : OnlyStores o d) :
    (s.csracc o true true w).capture = w.toNat + 2 ^ 106
      ∧ (∀ i, (s.csracc o true true w).bit o i = (s.storeFields o d w.toNat).bit o i)
      ∧ (∀ b, b ≠ o → (s.csracc o true true w).reg b = s.reg b) ∧ SameMemory s (s.csracc o true true w) := by
  rw [s.csracc_write w h h8, hr.not_denied, hs.csrWrite_eq (hr.setIr 0x10)]
  refine ⟨?_, fun _ => rfl, fun b hb => State.reg_storeFields_ne _ d _ hb, fun _ => rfl, rfl, rfl⟩
  rw [State.capture_showCsr rfl, if_neg Bool.false_ne_true, if_neg Bool.false_ne_true, Nat.add_zero]

/-- A write that R426 refuses shows 0 and the refusal, and counts. -/
theorem State.csracc_refused_spec (ho : s.csrOpen .operator o true = true) (hs : isSfuWindow o = false) (hv : inView .operator o = true)
    (hd : regAt o = some d) (hg : s.inGated d = false) (hm : s.mayWrite .operator o d w.toNat = false) :
    (s.csracc o true true w).capture = 2 ^ 106 + 2 ^ 107
      ∧ (s.csracc o true true w).reg A.denied = BitVec.ofNat 64 (satAdd 48 (s.regN A.denied) 1)
      ∧ (∀ a, a ≠ A.denied → (s.csracc o true true w).reg a = s.reg a) ∧ SameMemory s (s.csracc o true true w) := by
  rw [s.csracc_write w h h8, State.csrDenied_of_not_mayWrite ho hs hv hd hg hm,
    State.csrWrite_of_not_mayWrite (s := s.setIr 0x10) ho hs hv hd hg hm]
  refine ⟨?_, ((s.setIr 0x10).reg_deny _).trans (if_pos rfl), fun a ha => ((s.setIr 0x10).reg_deny a).trans (if_neg ha),
    (s.setIr 0x10).sameMemory_deny⟩
  rw [State.capture_showCsr (by simp [State.deny, State.setIr])]
  simp

end

/-- Settles O53, instruction by instruction; a CSRACC that writes is the register write of O21 with the port's result shown after it. -/
theorem debugPortActs : Obligations.DebugPortActs := by
  refine ⟨fun s i o b g w bits => debugPort_off, fun s bits hb => ⟨?_, ?_, ?_, ?_⟩, fun s o w hb ho h8 => ⟨?_, ?_, ?_, ?_⟩⟩
  · exact ⟨s.setIr 2, congrArg Host.Outcome.next (State.whenPowered_on _ hb), rfl, rfl, rfl, rfl⟩
  · intro i code hi
    refine ⟨s.drivePins code bits, exec_drives hb hi, s.drivePins_dbg code bits, fun hp => ?_, fun hp => ?_⟩
    · rw [s.drivePins_low code bits hp]
      exact ⟨rfl, rfl, rfl⟩
    · rw [s.drivePins_high code bits hp]
      exact ⟨rfl, rfl, rfl, rfl⟩
  · exact ⟨s.samplePreload bits, congrArg Host.Outcome.next (State.whenPowered_on _ hb), rfl, rfl, rfl, rfl⟩
  · intro code h4 h10 h11 h8
    refine ⟨s.bypass code, congrArg Host.Outcome.next (State.whenPowered_on _ hb), ?_⟩
    rw [s.bypass_unlisted code h4 h10 h11 h8]
    exact ⟨rfl, rfl, s.capture_unlisted code (by omega) h10 h11⟩
  · exact fun hd => ⟨_, exec_csracc hb _ _ _ _, State.csracc_read_spec ho h8 hd⟩
  · intro d hr hro hwo hc hp ha
    have hs : OnlyStores o d := ⟨hr.regAt_eq, hro, hwo, hc, hp, ha⟩
    obtain ⟨hcap, hbit, hreg, hmem⟩ := State.csracc_write_spec ho h8 hr hs
    exact ⟨_, exec_csracc hb _ _ _ _, hcap, fun i hi => (hbit i).trans (s.bit_storeFields o d w.toNat hi), hreg, hmem⟩
  · exact fun d hop hsf hv hd hg hm => ⟨_, exec_csracc hb _ _ _ _, State.csracc_refused_spec ho h8 hop hsf hv hd hg hm⟩
  · intro g hg h32 ha
    refine ⟨_, exec_memacc hb g true, fun hh hu => ?_, fun hk => ?_, s.sameMemory_memacc g true⟩
    · rw [State.memacc_hbm hg h32 ha hh hu]
      exact ⟨rfl, rfl, rfl⟩
    · rw [State.memacc_denied hg h32 ha hk]
      exact ⟨rfl, rfl, ((s.setIr 0x11).reg_deny _).trans (if_pos rfl)⟩

end Sys2Proof.Machine
end

section
/-!
PROOFS. O60: every step keeps every owner one of the sixteen contexts (R20, R403).

The regions' owners and jobs change in few places: ASSIGN names a context in a job, the loads' end makes that job's context the
owner, a release clears the owner, a reset and a closing replace the job. Every other operation of the model leaves both.
So `ContextsNamed` is carried through the model operation by operation, one lemma under each operation's own name: `h.setFld.bump`
is the fact about `(s.setFld …).bump …`, and a lemma reads as its definition does. An operation that runs another takes the fact
about that one as an argument (`h.whenUp fun h => h.scrubDone`), and one that answers a pair speaks of the pair's state.
-/
namespace Sys2Proof.Machine

/-! The default proofs of `frame` and `modRg` are run only when every proof before them is done: one proof at a time, then. -/
set_option Elab.async false

/-- The owner of a region, and the context that it is being assigned to, are two of the sixteen (R20, R403). -/
def Region.Named (g : Region) : Prop := (∀ c, g.owner = some c → c < 16) ∧ ∀ c, g.job = .assign c → c < 16

/-- A reset that is asked for becomes the job of a region that has none. -/
theorem Region.Named.resetJob {g : Region} (hg : g.Named) : ({ g with job := if g.job == .none then .reset else g.job } : Region).Named := by
  refine ⟨hg.1, fun c e => ?_⟩
  dsimp only at e
  split at e
  · cases e
  · exact hg.2 c e

/-- A reset's end leaves no job but the closing of a context. -/
theorem Region.Named.closeJob {g : Region} (hg : g.Named) :
    ({ g with job := match g.job with | .closing c b => .closing c b | _ => .none } : Region).Named := by
  refine ⟨hg.1, fun c e => ?_⟩
  dsimp only at e
  split at e <;> cases e

variable {s : State}

theorem ContextsNamed.rg (h : ContextsNamed s) (r : Nat) : (s.rg r).Named := ⟨h.1 r, h.2 r⟩

/-- Only the regions matter: `rfl` shows that an update of another field keeps them. -/
theorem ContextsNamed.of_regions {t : State} (e : t.regions = s.regions) (h : ContextsNamed s) : ContextsNamed t := by
  unfold ContextsNamed State.rg at *
  rwa [e]

theorem ContextsNamed.frame {t : State} (h : ContextsNamed s) (e : t.regions = s.regions := by rfl) : ContextsNamed t := h.of_regions e

/-- The state of a function's pair. -/
theorem ContextsNamed.of_snd {α : Type} {p : α × State} {a : α} {t : State} (h : ContextsNamed p.2) (e : p = (a, t)) : ContextsNamed t := by
  subst e
  exact h

theorem ContextsNamed.ite {t : State} {c : Prop} [Decidable c] (hs : ContextsNamed s) (ht : ContextsNamed t) :
    ContextsNamed (if c then s else t) := by
  split <;> assumption

theorem ContextsNamed.foldl {α : Type} {f : State → α → State} {l : List α} (h : ContextsNamed s)
    (hf : ∀ {s} x, ContextsNamed s → ContextsNamed (f s x)) : ContextsNamed (l.foldl f s) :=
  List.foldlRecOn l f h fun _ h x _ => hf x h

theorem ContextsNamed.setRg {r : Nat} {g : Region} (h : ContextsNamed s) (hg : g.Named) : ContextsNamed (s.setRg r g) := by
  have hr (q : Nat) : ((s.setRg r g).rg q).Named := by
    rw [State.rg_setRg]
    split
    · exact hg
    · exact h.rg q
  exact ⟨fun q => (hr q).1, fun q => (hr q).2⟩

/-- An update of a region, by default one that leaves its owner and its job. -/
theorem ContextsNamed.modRg {r : Nat} {f : Region → Region} (h : ContextsNamed s)
    (hf : ∀ g : Region, g.Named → (f g).Named := by exact fun _ hg => hg) : ContextsNamed (s.modRg r f) :=
  h.setRg (hf _ (h.rg r))

/-! ### Registers, counters and memory (`Machine/Ops.lean`) -/

theorem ContextsNamed.setCl {r k : Nat} {c : Cluster} (h : ContextsNamed s) : ContextsNamed (s.setCl r k c) := h.frame

theorem ContextsNamed.modCl {r k : Nat} {f : Cluster → Cluster} (h : ContextsNamed s) : ContextsNamed (s.modCl r k f) := h.setCl

theorem ContextsNamed.setCx {c : Nat} {x : Ctx} (h : ContextsNamed s) : ContextsNamed (s.setCx c x) := h.frame

theorem ContextsNamed.modCx {c : Nat} {f : Ctx → Ctx} (h : ContextsNamed s) : ContextsNamed (s.modCx c f) := h.setCx

theorem ContextsNamed.setQ {r k q : Nat} {x : Queue} (h : ContextsNamed s) : ContextsNamed (s.setQ r k q x) := h.modCl

theorem ContextsNamed.setReg {a : Nat} {w : Reg64} (h : ContextsNamed s) : ContextsNamed (s.setReg a w) := h.frame

theorem ContextsNamed.setFld {a lo len v : Nat} (h : ContextsNamed s) : ContextsNamed (s.setFld a lo len v) := h.setReg

theorem ContextsNamed.setB {a i : Nat} {b : Bool} (h : ContextsNamed s) : ContextsNamed (s.setB a i b) := h.setReg

theorem ContextsNamed.bump {a n : Nat} (h : ContextsNamed s) : ContextsNamed (s.bump a n) := .ite h h.frame

theorem ContextsNamed.bumpW {w a n : Nat} (h : ContextsNamed s) : ContextsNamed (s.bumpW w a n) := .ite h h.setReg

theorem ContextsNamed.bumpUnits {a n : Nat} (h : ContextsNamed s) : ContextsNamed (s.bumpUnits a n) := .ite h h.frame

theorem ContextsNamed.clearCounter {units : Bool} {a : Nat} (h : ContextsNamed s) : ContextsNamed (s.clearCounter units a) :=
  .ite h.frame h.setReg

theorem ContextsNamed.orReg {a v : Nat} (h : ContextsNamed s) : ContextsNamed (s.orReg a v) := h.setReg

theorem ContextsNamed.send {m : OutMsg} (h : ContextsNamed s) : ContextsNamed (s.send m) := h.frame

theorem ContextsNamed.free {n : Nat} (h : ContextsNamed s) : ContextsNamed (s.free n).2 := h.frame

theorem ContextsNamed.scramble {a n : Nat} (h : ContextsNamed s) : ContextsNamed (s.scramble a n) := h.frame

theorem ContextsNamed.tallyCe {n : Nat} (h : ContextsNamed s) : ContextsNamed (s.tallyCe n) := h.frame

theorem ContextsNamed.tallyUe {n : Nat} (h : ContextsNamed s) : ContextsNamed (s.tallyUe n) := h.frame

theorem ContextsNamed.setGran {a : Nat} {g : Gran} (h : ContextsNamed s) : ContextsNamed (s.setGran a g) := h.frame

theorem ContextsNamed.writeGran {via : Via} {g : Nat} {ws : List Wr} (h : ContextsNamed s) :
    ContextsNamed (s.writeGran via g ws) :=
  h.frame.setGran

theorem ContextsNamed.writeChip {w : Wr} (h : ContextsNamed s) : ContextsNamed (s.writeChip w) := h.frame

theorem ContextsNamed.writeAll {via : Via} {ws : List Wr} (h : ContextsNamed s) : ContextsNamed (s.writeAll via ws) :=
  (h.foldl fun _ h => h.writeChip).foldl fun _ h => h.writeGran

/-! ### Translation faults and leaves (`Machine/Xlate.lean`) -/

theorem ContextsNamed.chipUe {w : Nat} (h : ContextsNamed s) : ContextsNamed (s.chipUe w) := h.bump.tallyUe.scramble

theorem ContextsNamed.noteChip {e : Env} {ls : List Loc} (h : ContextsNamed s) : ContextsNamed (s.noteChip e ls) :=
  (h.foldl fun _ h => h.bump.tallyCe).foldl fun _ h => h.chipUe

theorem ContextsNamed.recordFault {r kind va lk source mover tag : Nat} (h : ContextsNamed s) :
    ContextsNamed (s.recordFault r kind va lk source mover tag) :=
  .ite h.bump h.bump.setReg.setReg

theorem ContextsNamed.dropLeaves {x : Nat × Bool × Nat} (h : ContextsNamed s) : ContextsNamed (s.dropLeaves x) := by
  unfold State.dropLeaves
  extract_lets s1
  have h1 : ContextsNamed s1 := h.foldl fun _ h => h.modRg
  clear_value s1
  exact h1.frame

/-! ### Flags (`Machine/Flags.lean`) -/

theorem ContextsNamed.incOwn {r k idx inc : Nat} (h : ContextsNamed s) : ContextsNamed (s.incOwn r k idx inc) :=
  h.setCl.modRg.bump

theorem ContextsNamed.incNode {r idx inc bound : Nat} (h : ContextsNamed s) : ContextsNamed (s.incNode r idx inc bound) :=
  .bump (.setRg h (h.rg r))

theorem ContextsNamed.pruneUnseen {r k : Nat} (h : ContextsNamed s) : ContextsNamed (s.pruneUnseen r k) := h.modRg

theorem ContextsNamed.raiseMatched {r k : Nat} {own : Bool} {idx t : Nat} (h : ContextsNamed s) :
    ContextsNamed (s.raiseMatched r k own idx t) :=
  .ite h.modCl h.modRg

theorem ContextsNamed.addReq {r : Nat} {q : Req} (h : ContextsNamed s) : ContextsNamed (s.addReq r q) := h.modRg

theorem ContextsNamed.newFlagReq {r k : Nat} {target : Nat} {remote : Option Nat} {idx inc : Nat} (h : ContextsNamed s) :
    ContextsNamed (s.newFlagReq r k target remote idx inc) :=
  h.addReq

theorem ContextsNamed.incFlag {r k v inc : Nat} (h : ContextsNamed s) : ContextsNamed (s.incFlag r k v inc) := by
  unfold State.incFlag
  split
  · exact h
  · exact h.bump
  · exact h.incOwn
  · exact h.incNode
  · split
    · exact h.newFlagReq
    · exact h.bump
  · exact h.newFlagReq
  · exact h.newFlagReq

theorem ContextsNamed.realignNode {r : Nat} {stepToo : Bool} (h : ContextsNamed s) : ContextsNamed (s.realignNode r stepToo) := by
  dsimp only [State.realignNode]
  exact .ite (.setReg (.setReg (.setRg h (h.rg r)))) (.setReg (.setRg h (h.rg r)))

theorem ContextsNamed.realignCluster {r k : Nat} (h : ContextsNamed s) : ContextsNamed (s.realignCluster r k) := h.setCl.modRg

/-! ### Links (`Machine/Flit.lean`) -/

theorem ContextsNamed.setLink {p : Nat} {l : Link} (h : ContextsNamed s) : ContextsNamed (s.setLink p l) := h.frame

theorem ContextsNamed.countFlit {p : Nat} {transit : Bool} (h : ContextsNamed s) : ContextsNamed (s.countFlit p transit) :=
  .ite h.bumpUnits.bump h

theorem ContextsNamed.pump {p n : Nat} (h : ContextsNamed s) : ContextsNamed (s.pump p n) := by
  induction n generalizing s with
  | zero => exact h
  | succ n ih =>
    unfold State.pump
    split
    · exact h
    · exact ih h.setLink.countFlit

theorem ContextsNamed.pumpPort {p : Nat} (h : ContextsNamed s) : ContextsNamed (s.pumpPort p) := h.pump

theorem ContextsNamed.egressPkt {p : Nat} {key : Option Nat} {x : Pkt} (h : ContextsNamed s) :
    ContextsNamed (s.egressPkt p key x) :=
  h.setLink.pumpPort

theorem ContextsNamed.sendControl {p : Nat} (h : ContextsNamed s) : ContextsNamed (s.sendControl p) := h.setLink.send

theorem ContextsNamed.takeCredits {p : Nat} {back : List Nat} (h : ContextsNamed s) : ContextsNamed (s.takeCredits p back) :=
  h.setLink.pumpPort

theorem ContextsNamed.drainPkt {ports : List Nat} {x : Pkt} (h : ContextsNamed s) : ContextsNamed (s.drainPkt ports x) := by
  unfold State.drainPkt
  split
  · exact h
  · exact h.setLink

/-! ### Granules read and written (`Machine/Transfer.lean`) -/

theorem ContextsNamed.noteUe {g : Nat} (h : ContextsNamed s) : ContextsNamed (s.noteUe g) :=
  .ite h (.ite h.setGran.bump.bump.setReg.tallyUe h.setGran)

theorem ContextsNamed.noteGran {e : Env} {g : Nat} (h : ContextsNamed s) : ContextsNamed (s.noteGran e g) :=
  .ite ((ContextsNamed.ite h.noteUe h).bump.tallyCe) (.ite h.noteUe h)

theorem ContextsNamed.noteCxl {g : Nat} (h : ContextsNamed s) : ContextsNamed (s.noteCxl g) := .ite h.bump.tallyUe h

theorem ContextsNamed.noteReads {r : Option Nat} {e : Env} {ls : List Loc} (h : ContextsNamed s) :
    ContextsNamed (s.noteReads r e ls) :=
  h.foldl fun _ h => by
    dsimp only
    split
    · split
      · split
        · exact h.bump
        · exact h
      · exact h
    · split
      · refine (?_ : ContextsNamed _).noteCxl
        split
        · exact h.noteGran.bump.bump
        · exact h.noteGran.bump
      · exact h.noteGran.bump

theorem ContextsNamed.noteTargets {always : Bool} {e : Env} {ls : List Loc} (h : ContextsNamed s) :
    ContextsNamed (s.noteTargets always e ls) :=
  h.foldl fun _ h => .ite h.noteGran.noteCxl h.noteGran

theorem ContextsNamed.setSession {x : Session} (h : ContextsNamed s) : ContextsNamed (s.setSession x) := h.frame

theorem ContextsNamed.dropSession {peer : Nat} (h : ContextsNamed s) : ContextsNamed (s.dropSession peer) := h.frame

theorem ContextsNamed.sendMlm {m : Nat} {x : Pkt} (h : ContextsNamed s) : ContextsNamed (s.sendMlm m x) := by
  dsimp only [State.sendMlm]
  split
  · exact h.egressPkt.send
  · split
    · exact h
    · exact .ite h.egressPkt.send.dropSession.setB h.egressPkt.send.setSession

theorem ContextsNamed.writeLocs {ws : List (Loc × Wr)} (h : ContextsNamed s) : ContextsNamed (s.writeLocs ws) :=
  ((h.foldl fun _ h => h.writeChip).foldl fun _ h => h.writeGran).foldl fun _ h => h.sendMlm

/-! ### Queues and the issue of commands (`Machine/Seq.lean`) -/

theorem ContextsNamed.doneFlag {r k : Nat} {c : Cmd512} (h : ContextsNamed s) : ContextsNamed (s.doneFlag r k c) :=
  .ite h.incFlag h

theorem ContextsNamed.laterFlag {r k beat : Nat} {c : Cmd512} (h : ContextsNamed s) : ContextsNamed (s.laterFlag r k beat c) :=
  .ite h.modCl h

theorem ContextsNamed.retire {r k q : Nat} (h : ContextsNamed s) : ContextsNamed (s.retire r k q) := h.bump

theorem ContextsNamed.advance {r k q : Nat} (h : ContextsNamed s) : ContextsNamed (s.advance r k q) := h.modCl

theorem ContextsNamed.setNow {r k a v : Nat} (h : ContextsNamed s) : ContextsNamed (s.setNow r k a v) := h.orReg.modCl

theorem ContextsNamed.markBegun {r k : Nat} (h : ContextsNamed s) : ContextsNamed (s.markBegun r k) := h.modCl

theorem ContextsNamed.skipCmd {r k q : Nat} {c : Cmd512} {counter : Nat} (h : ContextsNamed s) :
    ContextsNamed (s.skipCmd r k q c counter) :=
  h.laterFlag.retire.advance.bump

theorem ContextsNamed.passCmd {r k q : Nat} {c : Cmd512} (h : ContextsNamed s) : ContextsNamed (s.passCmd r k q c) :=
  h.doneFlag.retire.advance

theorem ContextsNamed.evalStop {r k q pos : Nat} {why : EvalStop} (h : ContextsNamed s) :
    ContextsNamed (s.evalStop r k q pos why) :=
  .ite (h.modCl.setReg.setNow.foldl fun _ h => h.setReg) h.modCl.setReg

theorem ContextsNamed.endQueue {r k q pos : Nat} (h : ContextsNamed s) : ContextsNamed (s.endQueue r k q pos) :=
  .ite h.evalStop h.modCl

theorem ContextsNamed.waitIssue {r k q : Nat} {c : Cmd512} (h : ContextsNamed s) : ContextsNamed (s.waitIssue r k q c) := by
  dsimp only [State.waitIssue]
  refine (ContextsNamed.ite h ?_).passCmd
  split
  · exact h.raiseMatched
  · exact h.raiseMatched
  · exact h

theorem ContextsNamed.arriveAt {r : Nat} {node : Node} {f : BarF} {beat stamp : Nat} {froms : List Nat} (h : ContextsNamed s) :
    ContextsNamed (s.arriveAt r node f beat stamp froms) := by
  dsimp only [State.arriveAt]
  split
  · exact h.frame
  · exact .ite h.frame h.frame.bump

theorem ContextsNamed.releaseQueues {r k : Nat} {f : BarF} (h : ContextsNamed s) : ContextsNamed (s.releaseQueues r k f) :=
  h.foldl fun _ h => by
    dsimp only
    split
    · exact .ite h.passCmd h
    · exact h

theorem ContextsNamed.clusterReleases {r k : Nat} (h : ContextsNamed s) : ContextsNamed (s.clusterReleases r k) :=
  h.foldl fun _ h => h.frame.releaseQueues

theorem ContextsNamed.issueEffects {r k q : Nat} {x : Cmd512} (h : ContextsNamed s) : ContextsNamed (s.issueEffects r k q x) := by
  unfold State.issueEffects
  split
  · exact .ite h.setReg.setReg h
  · split
    · exact .ite h h.bump
    · exact h
  · exact h

theorem ContextsNamed.issueLri {r k q : Nat} {x : Cmd512} {aux : List Nat} (h : ContextsNamed s) :
    ContextsNamed (s.issueLri r k q x aux) := by
  unfold State.issueLri
  extract_lets l s1 s2 s3
  have h1 : ContextsNamed s1 := h.issueEffects.modCl
  have h2 : ContextsNamed s2 := by
    unfold s2
    split
    · exact h1.modCl
    · exact h1
  have h3 : ContextsNamed s3 := .ite h2.modCl.addReq h2
  exact h3.advance

theorem ContextsNamed.noteRanks {r : Nat} {e : Env} {c : Cmd512} (h : ContextsNamed s) : ContextsNamed (s.noteRanks r e c) := by
  dsimp only [State.noteRanks]
  split
  · split
    · exact .ite h.noteReads h
    · exact h
  · exact h

theorem ContextsNamed.actOn {r k q : Nat} {c : Cmd512} {e : Env} (h : ContextsNamed s) : ContextsNamed (s.actOn r k q c e) := by
  dsimp only [State.actOn]
  split
  · exact h.skipCmd
  · exact h.noteRanks.skipCmd
  · exact h.skipCmd
  · split
    · exact h.passCmd
    · exact h.passCmd.endQueue
    · exact .ite h.waitIssue h.modCl
    · exact h.incFlag.passCmd
    · exact h.arriveAt.modCl
    · exact .ite h.passCmd h.passCmd.modCl
    · exact .ite h.passCmd.evalStop h.passCmd
    · exact .ite h.passCmd.evalStop h.passCmd
    · exact h.noteRanks.issueLri

theorem ContextsNamed.stepQueue {r k q : Nat} {e : Env} (h : ContextsNamed s) : ContextsNamed (s.stepQueue r k q e) := by
  dsimp only [State.stepQueue]
  split
  · exact h
  · exact h
  · exact h.endQueue
  · exact .ite (.ite h.waitIssue h) h.actOn

theorem ContextsNamed.countDone {r k : Nat} {l : Lri} (h : ContextsNamed s) : ContextsNamed (s.countDone r k l) := by
  unfold State.countDone
  split
  · exact h
  · extract_lets p s0 c
    have h0 : ContextsNamed s0 := h.bump.bump
    clear_value s0
    split
    extract_lets ve
    have hv (v : Nat) : ContextsNamed (ve v) :=
      h0.setNow.bump.bumpUnits.bumpUnits.bump.bumpUnits.bumpUnits.bumpUnits.bump.bump.bump.bump.bump
    split
    · exact h0.setNow.bump.bumpUnits
    · exact hv 0
    · exact hv 1
    · split <;> exact h0.bump

theorem ContextsNamed.donePoint {r k : Nat} {l : Lri} (h : ContextsNamed s) : ContextsNamed (s.donePoint r k l) :=
  h.countDone.modCl.doneFlag.retire

theorem ContextsNamed.startSet {r k m : Nat} (h : ContextsNamed s) : ContextsNamed (s.startSet r k m) := .ite h.modCl h

theorem ContextsNamed.startBeats {r k : Nat} (h : ContextsNamed s) : ContextsNamed (s.startBeats r k) :=
  h.foldl fun _ h => h.startSet

theorem ContextsNamed.returnNoSwitch {r k : Nat} (h : ContextsNamed s) : ContextsNamed (s.returnNoSwitch r k) := .ite h.modCl h

theorem ContextsNamed.evalSwitch {r k : Nat} (h : ContextsNamed s) : ContextsNamed (s.evalSwitch r k) := .ite h.setCl h

theorem ContextsNamed.switchBeat {r k : Nat} (h : ContextsNamed s) : ContextsNamed (s.switchBeat r k) := .ite h.setCl.setB h

theorem ContextsNamed.evalReturn {r k : Nat} (h : ContextsNamed s) : ContextsNamed (s.evalReturn r k) := .ite h.setCl h

theorem ContextsNamed.returnBeat {r k : Nat} (h : ContextsNamed s) : ContextsNamed (s.returnBeat r k) := .ite h.setCl.setB h

theorem ContextsNamed.applyDueInc {r k : Nat} (h : ContextsNamed s) : ContextsNamed (s.applyDueInc r k) :=
  h.setCl.foldl fun _ h => h.incFlag

theorem ContextsNamed.beginBeat {r k : Nat} (h : ContextsNamed s) : ContextsNamed (s.beginBeat r k) := by
  unfold State.beginBeat
  extract_lets s1 s2 s3 s4 s5
  have h2 : ContextsNamed s2 := h.applyDueInc.foldl fun _ h => h.donePoint
  have h3 : ContextsNamed s3 := h2.clusterReleases.modCl
  have h4 : ContextsNamed s4 := h3.startBeats.returnNoSwitch
  have h5 : ContextsNamed s5 := h4.evalSwitch.switchBeat.evalReturn
  exact h5.returnBeat.markBegun

theorem ContextsNamed.descBefore {r k : Nat} {e : Env} (h : ContextsNamed s) : ContextsNamed (s.descBefore r k e) :=
  .ite h.stepQueue h

theorem ContextsNamed.issueHead {r k q : Nat} {sel : Cmd512 → Bool} {e : Env} (h : ContextsNamed s) :
    ContextsNamed (s.issueHead r k q sel e) :=
  .ite (.ite h.beginBeat.stepQueue h) h

/-! ### Engines and the beat of a cluster (`Machine/Engine.lean`) -/

theorem ContextsNamed.slip {r k : Nat} {unit : EUnit} {self tag : Nat} {wr : Bool} {line : Nat} (h : ContextsNamed s) :
    ContextsNamed (s.slip r k unit self tag wr line) := by
  dsimp only [State.slip]
  split
  · exact h.bump.bump.bump
  · exact .ite h.bump.bump.bump h.bump.bump.bump.modCl

theorem ContextsNamed.recordSlip {r k : Nat} (h : ContextsNamed s) : ContextsNamed (s.recordSlip r k) := by
  dsimp only [State.recordSlip]
  split
  · exact h
  · exact .ite h.setCl h.setCl.setReg.setReg

theorem ContextsNamed.setSpLine {r k line v : Nat} (h : ContextsNamed s) : ContextsNamed (s.setSpLine r k line v) := by
  unfold State.setSpLine
  exact h.frame

theorem ContextsNamed.latch {r k : Nat} {a : TAcc} (h : ContextsNamed s) : ContextsNamed (s.latch r k a) := by
  dsimp only [State.latch]
  split
  · exact h
  · exact h.modCl

theorem ContextsNamed.carryReads {r k : Nat} {l : Lri} (h : ContextsNamed s) : ContextsNamed (s.carryReads r k l) :=
  h.foldl fun _ h => h.modCl.bump

theorem ContextsNamed.carryWrites {r k : Nat} {l : Lri} (h : ContextsNamed s) : ContextsNamed (s.carryWrites r k l) := by
  refine .ite h (h.foldl fun _ h => ?_)
  split
  · exact h
  · exact h.modCl

theorem ContextsNamed.tileRead {r k : Nat} {l : Lri} (h : ContextsNamed s) : ContextsNamed (s.tileRead r k l) := by
  dsimp only [State.tileRead]
  split
  · exact .ite h.modCl h
  · exact h

theorem ContextsNamed.tileWrite {r k : Nat} {l : Lri} (h : ContextsNamed s) : ContextsNamed (s.tileWrite r k l) := by
  dsimp only [State.tileWrite]
  split
  · exact h.modCl
  · exact h

theorem ContextsNamed.storeAcc {r k : Nat} {o : Nat → VeOut} {a : TAcc} (h : ContextsNamed s) :
    ContextsNamed (s.storeAcc r k o a) := by
  unfold State.storeAcc
  split
  · exact h.setSpLine.modCl
  · exact h

theorem ContextsNamed.nextBeat {r k n : Nat} {f : Cluster → Cluster} (h : ContextsNamed s) : ContextsNamed (s.nextBeat r k n f) :=
  .of_regions rfl h.modCl.modRg

theorem ContextsNamed.stretchBeat {r k a : Nat} {serve : List UAcc → List UAcc} (h : ContextsNamed s) :
    ContextsNamed (s.stretchBeat r k a serve) :=
  h.recordSlip.bump.nextBeat

theorem ContextsNamed.yieldBeat {r k : Nat} (h : ContextsNamed s) : ContextsNamed (s.yieldBeat r k) := h.stretchBeat

theorem ContextsNamed.holdBeat {r k a : Nat} (h : ContextsNamed s) : ContextsNamed (s.holdBeat r k a) := h.stretchBeat

theorem ContextsNamed.countAccs {r k : Nat} {as : List TAcc} (h : ContextsNamed s) : ContextsNamed (s.countAccs r k as) :=
  h.bump.bump

theorem ContextsNamed.timedBeat {r k : Nat} {e : Env} (h : ContextsNamed s) : ContextsNamed (s.timedBeat r k e) := by
  unfold State.timedBeat
  extract_lets as n s1 rds s1' s2 ls s3 ls' stores writers outs o s4 s5 s6
  have h1 : ContextsNamed s1 := h.countAccs.foldl fun _ h => h.slip
  have h2 : ContextsNamed s2 := h1.noteChip.foldl fun _ h => h.latch
  have h3 : ContextsNamed s3 := h2.foldl fun _ h => h.carryReads.tileRead
  have h4 : ContextsNamed s4 := h3.foldl fun _ h => h.storeAcc
  have h5 : ContextsNamed s5 := h4.foldl fun _ h => h.carryWrites.tileWrite
  have h6 : ContextsNamed s6 := h5.recordSlip.bump
  exact h6.nextBeat.pruneUnseen

theorem ContextsNamed.clusterBeat {r k : Nat} {e : Env} (h : ContextsNamed s) : ContextsNamed (s.clusterBeat r k e) := by
  dsimp only [State.clusterBeat]
  split
  · exact h
  · split
    · exact h.yieldBeat
    · split
      · exact h.beginBeat.descBefore.holdBeat
      · exact (h.beginBeat.descBefore.foldl fun _ h => h.stepQueue).timedBeat

/-! ### Movers (`Machine/Mover.lean`) -/

theorem ContextsNamed.flipParity {c : Nat} {tx : Bool} {bidx dir level : Nat} (h : ContextsNamed s) :
    ContextsNamed (s.flipParity c tx bidx dir level) :=
  h.modCx

theorem ContextsNamed.finishMover {r k : Nat} {l : Lri} {dropped : Bool} (h : ContextsNamed s) :
    ContextsNamed (s.finishMover r k l dropped) :=
  (ContextsNamed.ite (.ite h.modCl.doneFlag h.modCl.laterFlag) h.modCl.laterFlag).retire

theorem ContextsNamed.partOver {r k lri part : Nat} {ms : Option (List Move)} (h : ContextsNamed s) :
    ContextsNamed (s.partOver r k lri part ms) := by
  dsimp only [State.partOver]
  split
  · exact h
  · exact .ite h.modCl.finishMover h.modCl

theorem ContextsNamed.finishDesc {r k lri : Nat} {ds : List Desc1024} (h : ContextsNamed s) :
    ContextsNamed (s.finishDesc r k lri ds) := by
  dsimp only [State.finishDesc]
  split
  · exact h
  · exact h.modCl.doneFlag.retire

theorem ContextsNamed.dropReq {r : Nat} {q : Req} {kind va : Nat} (h : ContextsNamed s) :
    ContextsNamed (s.dropReq r q kind va) := by
  dsimp only [State.dropReq]
  split
  · exact h.recordFault.partOver
  · exact h.recordFault.modCl
  · exact h.recordFault.finishDesc
  · exact h.recordFault

theorem ContextsNamed.translate {r : Nat} {q : Req} {beats : Nat} {e : Env} (h : ContextsNamed s) :
    ContextsNamed (s.translate r q beats e) := by
  unfold State.translate
  extract_lets xm ms vas x s1 s2 new s3 bad
  have h3 : ContextsNamed s3 := h.bump.bump.bump.modRg.foldl fun _ h => h.recordFault
  clear_value bad s3
  split
  · exact h3.modRg.dropReq
  · exact h3.modRg

theorem ContextsNamed.present {r : Nat} {q : Req} {e : Env} (h : ContextsNamed s) : ContextsNamed (s.present r q e) := by
  dsimp only [State.present]
  split
  · exact h.addReq
  · exact .ite h.addReq.translate h.addReq

theorem ContextsNamed.startMover {r k m : Nat} {e : Env} {l : Lri} {o : MvOp} (h : ContextsNamed s) :
    ContextsNamed (s.startMover r k m e l o) :=
  .ite (h.bump.modCl.foldl fun _ h => h.recordFault).bump.finishMover (h.bump.modCl.foldl fun _ h => h.present)

theorem ContextsNamed.fetchReq {r k q : Nat} (h : ContextsNamed s) : ContextsNamed (s.fetchReq r k q) := h.setQ.present

theorem ContextsNamed.takeReq {r id : Nat} (h : ContextsNamed s) : ContextsNamed (s.takeReq r id) := h.modRg

theorem ContextsNamed.noteSources {r : Nat} {e : Env} {lost : Bool} {ls : List Loc} (h : ContextsNamed s) :
    ContextsNamed (s.noteSources r e lost ls) :=
  h.noteReads.noteChip.bump

theorem ContextsNamed.fetchDone {r : Nat} {q : Req} {e : Env} {lost : Bool} {qi gen base idx n : Nat} (h : ContextsNamed s) :
    ContextsNamed (s.fetchDone r q e lost qi gen base idx n) :=
  h.noteSources.takeReq.modCl

theorem ContextsNamed.descDone {r : Nat} {q : Req} {e : Env} {lost : Bool} {l : Lri} (h : ContextsNamed s) :
    ContextsNamed (s.descDone r q e lost l) :=
  h.noteSources.takeReq.finishDesc

theorem ContextsNamed.moveData {e : Env} {src dst : Nat → Loc} {held : List (Nat × Nat × List Bool)} {ms : List Move} (h : ContextsNamed s) :
    ContextsNamed (s.moveData e src dst held ms) :=
  h.writeLocs

theorem ContextsNamed.moveOrdered {e : Env} {src dst : Nat → Loc} {held : List (Nat × Nat × List Bool)} {ms rest : List Move}
    (h : ContextsNamed s) : ContextsNamed (s.moveOrdered e src dst held ms rest).1 :=
  List.foldlRecOn _ _ (motive := fun x : State × _ => ContextsNamed x.1) h fun _ h _ _ => h.moveData

theorem ContextsNamed.atomOne {e : Env} {aop : Nat} {sgn : Bool} {dst : Nat → Loc} {m : Move} {v : Nat} {bad : Bool} (h : ContextsNamed s) :
    ContextsNamed (s.atomOne e aop sgn dst m v bad) :=
  .ite h h.writeLocs

theorem ContextsNamed.atomData {e : Env} {aop : Nat} {sgn : Bool} {src dst : Nat → Loc} {ms : List Move} (h : ContextsNamed s) :
    ContextsNamed (s.atomData e aop sgn src dst ms) :=
  h.bump.foldl fun _ h => by
    dsimp only
    split
    · exact .ite (.ite h h.sendMlm) h.atomOne
    · exact h.atomOne

theorem ContextsNamed.mvSlips {r k : Nat} {l : Lri} {src dst : List Loc} (h : ContextsNamed s) :
    ContextsNamed (s.mvSlips r k l src dst) :=
  (h.foldl fun _ h => h.slip).foldl fun _ h => h.slip

theorem ContextsNamed.mvData {r : Nat} {q : Req} {l : Lri} {o : MvOp} {e : Env} {far : FarEnd} (h : ContextsNamed s) :
    ContextsNamed (s.mvData r q l o e far).1 := by
  dsimp only [State.mvData]
  split
  · split
    · exact .ite h.moveOrdered h
    · exact .ite h.moveData h
  · exact .ite h.moveData h
  · exact .ite h.atomData h
  · exact h

theorem ContextsNamed.holdValues {r k lri : Nat} {held : List (Nat × Nat × List Bool)} (h : ContextsNamed s) :
    ContextsNamed (s.holdValues r k lri held) :=
  h.modCl

theorem ContextsNamed.completeMover {r : Nat} {q : Req} {l : Lri} {o : MvOp} {m part : Nat} {e : Env} {far : FarEnd} (h : ContextsNamed s) :
    ContextsNamed (s.completeMover r q l o m part e far) :=
  h.noteSources.noteTargets.mvSlips.mvData.bump.holdValues.takeReq.partOver

theorem ContextsNamed.queueUntimed {home id : Nat} {ls : List Loc} (h : ContextsNamed s) :
    ContextsNamed (s.queueUntimed home id ls) :=
  h.foldl fun _ h => .ite h.modRg h.modCl

theorem ContextsNamed.dropUntimed {home id : Nat} (h : ContextsNamed s) : ContextsNamed (s.dropUntimed home id) :=
  (h.foldl fun _ h => h.modCl).foldl fun _ h => h.modRg

/-! ### Remote requests (`Machine/Remote.lean`) -/

theorem ContextsNamed.sealPkt {x : Pkt} (h : ContextsNamed s) : ContextsNamed (s.sealPkt x).1 := by
  unfold State.sealPkt
  split
  · split
    · exact h
    · exact .ite h.dropSession h.setSession
  · exact h

theorem ContextsNamed.sendPkt {x : Pkt} (h : ContextsNamed s) : ContextsNamed (s.sendPkt x) := by
  dsimp only [State.sendPkt]
  split
  · exact h
  · split
    · exact h
    · exact .ite h h.sealPkt.egressPkt.send

theorem ContextsNamed.sendTracked {r id : Nat} {reads : Bool} {x : Pkt} (h : ContextsNamed s) :
    ContextsNamed (s.sendTracked r id reads x) :=
  h.frame.sendPkt

theorem ContextsNamed.startKex {peer : Nat} (h : ContextsNamed s) : ContextsNamed (s.startKex peer) := .ite h.frame.sendPkt h

theorem ContextsNamed.promote {ls : List Loc} (h : ContextsNamed s) : ContextsNamed (s.promote ls) :=
  h.foldl fun _ h => by
    dsimp only
    split
    · exact .ite h.modCx h
    · exact h

theorem ContextsNamed.noteTorn {ls : List Loc} (h : ContextsNamed s) : ContextsNamed (s.noteTorn ls) :=
  h.bump.foldl fun _ h => by
    dsimp only
    split
    · exact h.modCx
    · exact h

theorem ContextsNamed.waitSnap {counted : Bool} {ls : List Loc} (h : ContextsNamed s) : ContextsNamed (s.waitSnap counted ls) :=
  h.bump.promote

theorem ContextsNamed.endWait {waited : Bool} {ls : List Loc} (h : ContextsNamed s) : ContextsNamed (s.endWait waited ls) :=
  .ite h.free.bump h

theorem ContextsNamed.sendRuns {r : Nat} {q : Req} {m : Nat} {e : Env} {src : Nat → Loc} {ptype aux : Nat} {ms : List Move} (h : ContextsNamed s) :
    ContextsNamed (s.sendRuns r q m e src ptype aux ms) :=
  h.foldl fun _ h => h.sendTracked

theorem ContextsNamed.sendReads {r : Nat} {q : Req} {m : Nat} (h : ContextsNamed s) : ContextsNamed (s.sendReads r q m) :=
  h.foldl fun _ h => h.sendTracked

theorem ContextsNamed.takeParity {r k c : Nat} {l : Lri} {bidx dir level : Nat} (h : ContextsNamed s) :
    ContextsNamed (s.takeParity r k c l bidx dir level).2 := by
  unfold State.takeParity
  split
  · exact h
  · exact h.modCl.flipParity

theorem ContextsNamed.sendWrites {r : Nat} {q : Req} {m : Nat} {e : Env} {l : Lri} {o : MvOp} {far : FarEnd} (h : ContextsNamed s) :
    ContextsNamed (s.sendWrites r q m e l o far) := by
  unfold State.sendWrites
  extract_lets pl ms src s1 s2 s3
  have h3 : ContextsNamed s3 := h.noteSources.mvSlips.modCl.modRg
  split
  · exact h3.sendRuns
  · exact h3.sendRuns
  · exact h3.foldl fun _ h => h.sendRuns
  · split
    · exact h3
    · exact h3.takeParity.sendRuns

theorem ContextsNamed.acceptFlag {r : Nat} {q : Req} {target : Nat} {remote : Option Nat} {idx inc : Nat} (h : ContextsNamed s) :
    ContextsNamed (s.acceptFlag r q target remote idx inc) := by
  dsimp only [State.acceptFlag]
  split
  · exact .ite h.incNode h.bump
  · exact h.sendPkt

theorem ContextsNamed.sendDueOne {r id : Nat} {e : Env} (h : ContextsNamed s) : ContextsNamed (s.sendDueOne r id e) := by
  unfold State.sendDueOne
  split
  · exact h
  · split
    · exact .ite h h.sendWrites
    · exact h

theorem ContextsNamed.sendDue {e : Env} (h : ContextsNamed s) : ContextsNamed (s.sendDue e) := h.foldl fun _ h => h.sendDueOne

theorem ContextsNamed.readMasks {r : Nat} {q : Req} {e : Env} {lo hi : Nat} (h : ContextsNamed s) :
    ContextsNamed (s.readMasks r q e lo hi) := by
  dsimp only [State.readMasks]
  split
  · exact h
  · exact h.noteReads.noteChip.mvSlips.bump

theorem ContextsNamed.startReq {r : Nat} {q : Req} {e : Env} (h : ContextsNamed s) : ContextsNamed (s.startReq r q e) := by
  dsimp only [State.startReq]
  split
  · exact h.acceptFlag
  · split
    · exact .ite h.modRg.queueUntimed.readMasks.sendReads h.modRg.queueUntimed.readMasks.sendDueOne
    · exact h.modRg.queueUntimed.readMasks
  · exact h.modRg.queueUntimed

theorem ContextsNamed.acceptReq {r : Nat} {q0 : Req} {e : Env} (h : ContextsNamed s) : ContextsNamed (s.acceptReq r q0 e) := by
  dsimp only [State.acceptReq]
  split
  · exact h.bump.bump.endWait.noteTorn.modRg.startReq
  · split
    · split
      · exact h.modRg.waitSnap
      · split
        · exact .ite h.startKex h
        · exact h
    · exact h

theorem ContextsNamed.admissionAccept {r id : Nat} {e : Env} (h : ContextsNamed s) :
    ContextsNamed (s.admissionAccept r id e) := by
  unfold State.admissionAccept
  split
  · exact h.acceptReq
  · exact h

theorem ContextsNamed.forget {r id : Nat} (h : ContextsNamed s) : ContextsNamed (s.forget r id) := h.frame

theorem ContextsNamed.completeRemote {r : Nat} {q : Req} {l : Lri} {o : MvOp} {m part : Nat} {e : Env} {far : FarEnd} (h : ContextsNamed s) :
    ContextsNamed (s.completeRemote r q l o m part e far) := by
  unfold State.completeRemote
  extract_lets xs pl dst s0 s1
  have h0 : ContextsNamed s0 := h.bump.noteTargets.mvSlips
  have h1 : ContextsNamed s1 := .ite (.ite h0.writeLocs h0) h
  exact h1.bump.forget.takeReq.partOver

theorem ContextsNamed.moverOn {r : Nat} {q : Req} {l : Lri} {o : MvOp} {m part : Nat} {e : Env} {far : FarEnd} (h : ContextsNamed s) :
    ContextsNamed (s.moverOn r q l o m part e far) := by
  unfold State.moverOn
  split
  · exact .ite h.completeRemote h.sendWrites
  · exact h.completeMover

theorem ContextsNamed.moverRequestComplete {r id : Nat} {e : Env} (h : ContextsNamed s) :
    ContextsNamed (s.moverRequestComplete r id e) := by
  dsimp only [State.moverRequestComplete]
  split
  · exact h
  · split
    · exact .ite h (.ite h.bump.moverOn h.moverOn)
    · exact h

theorem ContextsNamed.farTimeout {r id : Nat} {e : Env} {which : Loc → Bool} {count : State → Loc → State} (h : ContextsNamed s)
    (hf : ∀ {s : State} x, ContextsNamed s → ContextsNamed (count s x)) : ContextsNamed (s.farTimeout r id e which count) := by
  dsimp only [State.farTimeout]
  split
  · exact h
  · split
    · exact h
    · next l0 _ =>
      have h1 := hf l0 h
      split
      · exact h
      · split
        · split
          · exact .ite h1.moverOn h
          · exact h
        · exact h1.fetchDone
        · split
          · exact h1.descDone
          · exact h
        · exact h

theorem ContextsNamed.cxlTimeout {r id : Nat} {e : Env} (h : ContextsNamed s) : ContextsNamed (s.cxlTimeout r id e) :=
  h.farTimeout fun _ h => h.bump

theorem ContextsNamed.mlmTimeout {r id : Nat} {e : Env} (h : ContextsNamed s) : ContextsNamed (s.mlmTimeout r id e) :=
  h.farTimeout fun _ h => h.bump

theorem ContextsNamed.remoteTimeout {r id : Nat} {e : Env} (h : ContextsNamed s) : ContextsNamed (s.remoteTimeout r id e) := by
  unfold State.remoteTimeout
  split
  · exact h
  · split
    · exact .ite h.bump.dropUntimed.completeRemote h
    · exact h

theorem ContextsNamed.queueFetchComplete {r id : Nat} {e : Env} (h : ContextsNamed s) :
    ContextsNamed (s.queueFetchComplete r id e) := by
  unfold State.queueFetchComplete
  split
  · exact h
  · split
    · exact .ite h.fetchDone h
    · exact h

theorem ContextsNamed.descLoadDone {r id : Nat} {e : Env} (h : ContextsNamed s) : ContextsNamed (s.descLoadDone r id e) := by
  unfold State.descLoadDone
  split
  · exact h
  · split
    · split
      · exact .ite h.descDone h
      · exact h
    · exact h

/-! ### Adopting a maquette (`Machine/Swap.lean`) -/

theorem ContextsNamed.adoptShares {r : Nat} (h : ContextsNamed s) : ContextsNamed (s.adoptShares r) := h.setReg

theorem ContextsNamed.applySwapFields (h : ContextsNamed s) : ContextsNamed s.applySwapFields :=
  h.setFld.setFld.setFld.setReg.foldl fun _ h => h.adoptShares

theorem ContextsNamed.commitRecord (h : ContextsNamed s) : ContextsNamed s.commitRecord := h.frame

theorem ContextsNamed.swapNow (h : ContextsNamed s) : ContextsNamed s.swapNow := by
  dsimp only [State.swapNow]
  split
  · exact h
  · exact h.frame.applySwapFields.setB.commitRecord.setReg.bump

/-! ### Barriers (`Machine/Barrier.lean`) -/

theorem ContextsNamed.markSent {e : BarEntry} (h : ContextsNamed s) : ContextsNamed (s.markSent e) := h.frame

theorem ContextsNamed.dropEntry {n : Node} {f : BarF} (h : ContextsNamed s) : ContextsNamed (s.dropEntry n f) := h.frame

theorem ContextsNamed.pushRel {n : Node} {f : BarF} {c stamp : Nat} (h : ContextsNamed s) :
    ContextsNamed (s.pushRel n f c stamp) :=
  h.frame

theorem ContextsNamed.arriveUp {n : Node} {f : BarF} {stamp : Nat} {froms : List Nat} (h : ContextsNamed s) :
    ContextsNamed (s.arriveUp n f stamp froms) :=
  h.arriveAt

theorem ContextsNamed.sendBar {ptype c m : Nat} {f : BarF} {done : State → State}
    (h : ContextsNamed s) (hf : ∀ {s : State}, ContextsNamed s → ContextsNamed (done s)) : ContextsNamed (s.sendBar ptype c m f done) :=
  .ite ((hf h).sendPkt) (.ite h.startKex h)

theorem ContextsNamed.sendUp {e : BarEntry} (h : ContextsNamed s) : ContextsNamed (s.sendUp e) := by
  dsimp only [State.sendUp]
  split
  · exact h.markSent.arriveUp
  · exact h.markSent.arriveUp
  · exact h.markSent.arriveUp
  · exact h.markSent.arriveUp
  · exact h.sendBar fun h => h.markSent
  · exact h

theorem ContextsNamed.nodeArrival {n : Nat} (h : ContextsNamed s) : ContextsNamed (s.nodeArrival n) := by
  unfold State.nodeArrival
  split
  · exact h
  · split
    · exact .ite h h.sendUp
    · exact .ite h.markSent.pushRel h.sendUp

theorem ContextsNamed.snapCut {c : Nat} (h : ContextsNamed s) : ContextsNamed (s.snapCut c) := .ite h.setCx.setFld h

theorem ContextsNamed.passRelease {x : Rel} (h : ContextsNamed s) : ContextsNamed (s.passRelease x) := by
  unfold State.passRelease
  extract_lets s0 down
  have h0 : ContextsNamed s0 := h.frame
  have hd (l : List Node) {t : State} (h : ContextsNamed t) : ContextsNamed (l.foldl down t) := h.foldl fun _ h => h.pushRel
  split
  · exact h
  · split
    · exact h.sendBar fun h => h.frame
    · exact hd _ h0.dropEntry
    · extract_lets s1 s2
      have h1 : ContextsNamed s1 := .ite h0.snapCut h0
      have h2 : ContextsNamed s2 := .ite h1.swapNow h1
      exact hd _ h2.dropEntry
    · exact hd _ h0.dropEntry
    · extract_lets s1
      have h1 : ContextsNamed s1 := .ite h0.realignNode h0
      exact hd _ h1.dropEntry
    · exact .ite h0 (.ite h (.releaseQueues (.ite h0.dropEntry.realignCluster h0.dropEntry)))

theorem ContextsNamed.barrierRelease {n : Nat} (h : ContextsNamed s) : ContextsNamed (s.barrierRelease n) := by
  unfold State.barrierRelease
  split
  · exact h.passRelease
  · exact h

theorem ContextsNamed.incVisible {r k n : Nat} (h : ContextsNamed s) : ContextsNamed (s.incVisible r k n) := by
  dsimp only [State.incVisible]
  split
  · exact .ite (h.setRg (h.rg _)) h
  · exact h

/-! ### Packets that arrive (`Machine/Ingress.lean`) -/

theorem ContextsNamed.noteNewer {e : Nat} (h : ContextsNamed s) : ContextsNamed (s.noteNewer e) := .ite h h.setFld.setB

theorem ContextsNamed.transit {x : Pkt} (h : ContextsNamed s) : ContextsNamed (s.transit x) := by
  dsimp only [State.transit]
  split
  · exact h.bump
  · split
    · exact h.bump
    · exact h.egressPkt.send

/-- Whatever the checks of an arriving packet decide, the state they leave names contexts. -/
def Arrived.Named : Arrived → Prop
  | .dropped s | .transit s | .here s => ContextsNamed s

theorem ContextsNamed.securityCheck {x : Pkt} (h : ContextsNamed s) : (s.securityCheck x).Named := by
  unfold State.securityCheck
  split
  · split
    · split
      · exact h.bump
      · exact h
    · split
      · exact h.bump
      · split
        · exact h.bump
        · split
          · exact h.bump
          · split
            · exact h.bump
            · exact .ite h.dropSession h.setSession
  · split
    · exact h.bump
    · exact h

theorem ContextsNamed.arrive {x : Pkt} (h : ContextsNamed s) : (s.arrive x).Named := by
  unfold State.arrive
  split
  · exact h.bump
  · split
    · split
      · exact h.noteNewer.bump
      · exact h.bump
    · split
      · exact h
      · split
        · exact h.bump
        · exact h.securityCheck

theorem ContextsNamed.receive {t : Nat} {x : Pkt} {act : State → State} (h : ContextsNamed s)
    (hf : ∀ {s : State}, ContextsNamed s → ContextsNamed (act s)) : ContextsNamed (s.receive t x act) := by
  have ha : ((s.drainPkt (List.range 8) x).arrive x).Named := h.drainPkt.arrive
  unfold State.receive
  split
  · split <;> rename_i e <;> rw [e] at ha
    · exact ha
    · exact ContextsNamed.transit ha
    · exact .ite (hf ha) ha
  · exact h

theorem ContextsNamed.packetTransit {x : Pkt} (h : ContextsNamed s) : ContextsNamed (s.packetTransit x) := by
  have ha : ((s.drainPkt (List.range 8) x).arrive x).Named := h.drainPkt.arrive
  dsimp only [State.packetTransit]
  split
  · exact h
  · split <;> rename_i e
    · rwa [e] at ha
    · rw [e] at ha
      exact ContextsNamed.transit ha
    · exact h

theorem ContextsNamed.complete {x : Pkt} {ptype status : Nat} {data : List Byte} {mask : Nat} (h : ContextsNamed s) :
    ContextsNamed (s.complete x ptype status data mask) :=
  h.sendPkt

theorem ContextsNamed.ingressFault {kind src c : Nat} (h : ContextsNamed s) : ContextsNamed (s.ingressFault kind src c) :=
  .ite h.bump h.bump.setReg

theorem ContextsNamed.ingressAt {c : Nat} {wr : Bool} {vas : List Nat} (h : ContextsNamed s) :
    ContextsNamed (s.ingressAt c wr vas).2 := by
  dsimp only [State.ingressAt]
  split
  · exact h.frame
  · split <;> exact h.frame

theorem ContextsNamed.countMasked {ls : List Loc} {mask : Nat} (h : ContextsNamed s) : ContextsNamed (s.countMasked ls mask) := by
  unfold State.countMasked
  split
  · exact h.bump
  · exact h

theorem ContextsNamed.holdPkt {p : HeldPkt} (h : ContextsNamed s) : ContextsNamed (s.holdPkt p) := h.frame

theorem ContextsNamed.admitPkt {p : HeldPkt} {c : Nat} {wr : Bool} {vas : List Nat} {fault : State → Nat → State}
    {act : State → List Loc → State} (h : ContextsNamed s) (hf : ∀ {s : State} k, ContextsNamed s → ContextsNamed (fault s k))
    (ha : ∀ {s : State} ls, ContextsNamed s → ContextsNamed (act s ls)) : ContextsNamed (s.admitPkt p c wr vas fault act) := by
  have hi : ContextsNamed (s.ingressAt c wr vas).2 := h.ingressAt
  unfold State.admitPkt
  split
  · exact h.holdPkt
  · split <;> rename_i e <;> rw [e] at hi
    · exact hf _ hi
    · extract_lets path s2
      have h2 : ContextsNamed s2 := .ite hi.endWait.noteTorn hi
      exact .ite hi.holdPkt (.ite hi.waitSnap.holdPkt (.ite hi.holdPkt (.ite (ha _ h2) h2.holdPkt.queueUntimed)))

theorem ContextsNamed.actRead {x : Pkt} {e : Env} {ls : List Loc} (h : ContextsNamed s) : ContextsNamed (s.actRead x e ls) :=
  h.noteReads.noteChip.complete

theorem ContextsNamed.writePkt {x : Pkt} {e : Env} {ls : List Loc} (h : ContextsNamed s) : ContextsNamed (s.writePkt x e ls) :=
  h.noteTargets.countMasked.writeLocs

theorem ContextsNamed.actWrite {x : Pkt} {e : Env} {ls : List Loc} (h : ContextsNamed s) : ContextsNamed (s.actWrite x e ls) :=
  h.writePkt.complete

theorem ContextsNamed.atomPacket {e : Env} {ls : List Loc} {x : Pkt} (h : ContextsNamed s) :
    ContextsNamed (s.atomPacket e ls x) :=
  h.foldl fun _ h => .ite h h.writeLocs

theorem ContextsNamed.actAtom {x : Pkt} {e : Env} {ls : List Loc} (h : ContextsNamed s) : ContextsNamed (s.actAtom x e ls) :=
  .ite h.complete h.noteTargets.noteChip.bump.atomPacket.complete

theorem ContextsNamed.memReq {p : HeldPkt} {cpl : Nat} {wr : Bool} {n : Nat} {act : State → List Loc → State} (h : ContextsNamed s)
    (ha : ∀ {s : State} ls, ContextsNamed s → ContextsNamed (act s ls)) : ContextsNamed (s.memReq p cpl wr n act) := by
  unfold State.memReq
  split
  · exact h.complete
  · exact h.admitPkt (fun _ h => h.ingressFault.complete) ha

theorem ContextsNamed.rdReq {p : HeldPkt} (h : ContextsNamed s) : ContextsNamed (s.rdReq p) := h.memReq fun _ h => h.actRead

theorem ContextsNamed.wrReq {p : HeldPkt} (h : ContextsNamed s) : ContextsNamed (s.wrReq p) := h.memReq fun _ h => h.actWrite

theorem ContextsNamed.atomReq {p : HeldPkt} (h : ContextsNamed s) : ContextsNamed (s.atomReq p) := h.memReq fun _ h => h.actAtom

theorem ContextsNamed.completion {x : Pkt} (h : ContextsNamed s) : ContextsNamed (s.completion x) := by
  dsimp only [State.completion]
  split
  · exact h
  · exact h.bump.frame

theorem ContextsNamed.flagIncReq {x : Pkt} (h : ContextsNamed s) : ContextsNamed (s.flagIncReq x) := by
  unfold State.flagIncReq
  split
  · exact h.bump
  · split
    · exact h.bump
    · exact h.incNode

theorem ContextsNamed.barArrive {x : Pkt} (h : ContextsNamed s) : ContextsNamed (s.barArrive x) := by
  unfold State.barArrive
  split
  · exact h
  · exact h.arriveUp

theorem ContextsNamed.barRelease {x : Pkt} (h : ContextsNamed s) : ContextsNamed (s.barRelease x) := by
  unfold State.barRelease
  split
  · exact h
  · split
    · exact .ite h h.pushRel
    · exact h

theorem ContextsNamed.openSession {peer sendKey recvKey : Nat} (h : ContextsNamed s) :
    ContextsNamed (s.openSession peer sendKey recvKey) :=
  h.frame

theorem ContextsNamed.kexHello {x : Pkt} {chainOk : Bool} (h : ContextsNamed s) : ContextsNamed (s.kexHello x chainOk) :=
  .ite h.holdPkt (.ite h (.ite h.frame (.ite h h.frame.openSession.sendPkt)))

theorem ContextsNamed.kexReply {x : Pkt} {chainOk : Bool} (h : ContextsNamed s) : ContextsNamed (s.kexReply x chainOk) := by
  dsimp only [State.kexReply]
  split
  · exact h.holdPkt
  · split
    · exact h
    · exact .ite h.frame.openSession h.frame

/-! ### Collectives (`Machine/Coll.lean`) -/

theorem ContextsNamed.writeCtx {t : State} {r c a : Nat} {bs : List Byte} (h : ContextsNamed s) (e : s.writeCtx r c a bs = .ok t) :
    ContextsNamed t := by
  dsimp only [State.writeCtx] at e
  split at e
  · cases e
  · cases e
    exact h.writeLocs

theorem ContextsNamed.writeOr {r k : Nat} {l : Lri} {c a : Nat} {bs : List Byte} (h : ContextsNamed s) :
    ContextsNamed (s.writeOr r k l c a bs) := by
  unfold State.writeOr
  split
  · next e => exact h.writeCtx e
  · exact h.recordFault

theorem ContextsNamed.actDec {r k : Nat} {l : Lri} {b : Bucket} {incl : Bool} {e : Env} (h : ContextsNamed s) :
    ContextsNamed (s.actDec r k l b incl e) := by
  dsimp only [State.actDec]
  split
  · exact h
  · exact .ite h.writeOr.finishMover h.writeOr.finishMover

theorem ContextsNamed.tryDec {r k id : Nat} (h : ContextsNamed s) : ContextsNamed (s.tryDec r k id) := by
  dsimp only [State.tryDec]
  split
  · exact h
  · split
    · exact .ite h (.ite h.modCl.waitSnap h.endWait.noteTorn.noteReads.noteChip.noteTargets.mvSlips.actDec)
    · exact h

theorem ContextsNamed.startDec {r k : Nat} {l : Lri} {incl : Bool} {e : Env} (h : ContextsNamed s) :
    ContextsNamed (s.startDec r k l incl e) :=
  h.modCl.queueUntimed.tryDec

theorem ContextsNamed.decide {r k : Nat} {l : Lri} {incl : Bool} {e : Env} (h : ContextsNamed s) :
    ContextsNamed (s.decide r k l incl e) := by
  dsimp only [State.decide]
  split
  · exact h
  · exact h.flipParity.modCx.bump.startDec

theorem ContextsNamed.recvRight {r k id ns : Nat} {e : Env} (h : ContextsNamed s) : ContextsNamed (s.recvRight r k id ns e) := by
  unfold State.recvRight
  split
  · exact h
  · exact .ite h.decide h

theorem ContextsNamed.recvDeadline {r k id ns : Nat} {e : Env} (h : ContextsNamed s) :
    ContextsNamed (s.recvDeadline r k id ns e) := by
  unfold State.recvDeadline
  split
  · exact h
  · split
    · exact .ite h.decide h
    · exact h

theorem ContextsNamed.tryRdown {c bidx : Nat} {b : Bucket} {e : Env} (h : ContextsNamed s) :
    ContextsNamed (s.tryRdown c bidx b e) := by
  unfold State.tryRdown
  split
  · exact .ite h.flipParity.modCx.startDec h
  · exact h

theorem ContextsNamed.moverCommandStart {r k m : Nat} {e : Env} (h : ContextsNamed s) :
    ContextsNamed (s.moverCommandStart r k m e) := by
  dsimp only [State.moverCommandStart]
  split
  · exact h
  · split
    · exact h
    · split
      · split
        · exact .ite h.startMover.startDec (.ite h.startMover.tryRdown h.startMover)
        · exact h.startMover
      · exact h.startMover

theorem ContextsNamed.actColl {x : Pkt} {e : Env} {up : Bool} {c : Nat} {b : Bucket} {ls : List Loc} (h : ContextsNamed s) :
    ContextsNamed (s.actColl x e up c b ls) :=
  .ite h.bump.complete (.ite h.writePkt.modCx.complete h.writePkt.modCx.complete.tryRdown)

theorem ContextsNamed.collReq {p : HeldPkt} {up : Bool} (h : ContextsNamed s) : ContextsNamed (s.collReq p up) := by
  dsimp only [State.collReq]
  split
  · exact h.bump.complete
  · exact .ite h.bump.complete (h.admitPkt (fun _ h => h.ingressFault.complete) fun _ h => h.actColl)

theorem ContextsNamed.takePkt {p : HeldPkt} (h : ContextsNamed s) : ContextsNamed (s.takePkt p) := by
  unfold State.takePkt
  split
  · exact h.rdReq
  · exact h.wrReq
  · exact h.atomReq
  · exact h.collReq
  · exact h.kexHello
  · exact h.kexReply
  · exact h.collReq

theorem ContextsNamed.actPkt {p : HeldPkt} (h : ContextsNamed s) : ContextsNamed (s.actPkt p) := by
  dsimp only [State.actPkt]
  split
  · exact h
  · split
    · exact h
    · split
      · exact h.frame.actRead
      · exact h.frame.actWrite
      · exact h.frame.actAtom
      · split
        · exact h.frame.bump.complete
        · exact h.frame.actColl

theorem ContextsNamed.retryHeld (h : ContextsNamed s) : ContextsNamed s.retryHeld :=
  ((h.foldl fun _ h => h.actPkt).foldl fun _ h => h.tryDec).sendDue.frame.foldl fun _ h => h.takePkt

/-! ### Layout (`Machine/Layout.lean`) -/

theorem ContextsNamed.dropRegs {p : Nat → Bool} (h : ContextsNamed s) : ContextsNamed (s.dropRegs p) := h.frame

/-! ### Keys, scrub and invalidation (`Machine/Keys.lean`) -/

theorem ContextsNamed.newKey (h : ContextsNamed s) : ContextsNamed s.newKey.2 := h.frame

theorem ContextsNamed.setKeyStatus {c state gen : Nat} (h : ContextsNamed s) : ContextsNamed (s.setKeyStatus c state gen) :=
  h.setReg

theorem ContextsNamed.fillKey {c : Nat} (h : ContextsNamed s) : ContextsNamed (s.fillKey c) := .ite h.newKey.modCx.setKeyStatus h

theorem ContextsNamed.eraseKeys {c : Nat} (h : ContextsNamed s) : ContextsNamed (s.eraseKeys c) := h.modCx.setKeyStatus

theorem ContextsNamed.sweepGran {c g : Nat} (h : ContextsNamed s) : ContextsNamed (s.sweepGran c g) := by
  dsimp only [State.sweepGran]
  split
  · exact h
  · split
    · exact h
    · exact h.frame.setGran

theorem ContextsNamed.setLeafGen {p : Page} {gen : Nat} (h : ContextsNamed s) : ContextsNamed (s.setLeafGen p gen) := h.writeAll

theorem ContextsNamed.sweepPage {c : Nat} (h : ContextsNamed s) : ContextsNamed (s.sweepPage c) := by
  unfold State.sweepPage
  split
  · exact h
  · extract_lets s1 last s2 s3
    have h1 : ContextsNamed s1 := .ite (h.foldl fun _ h => h.sweepGran) h
    have h2 : ContextsNamed s2 := .ite h1.setLeafGen.dropLeaves h1
    have h3 : ContextsNamed s3 := h2.bump.modCx
    exact .ite h (.ite h3.modCx.setKeyStatus h3)

theorem ContextsNamed.rotate {c : Nat} (h : ContextsNamed s) : ContextsNamed (s.rotate c) :=
  .ite h.bump (.ite h (.ite h.newKey.setCx.setKeyStatus.modCx.setKeyStatus h.newKey.setCx.setKeyStatus))

theorem ContextsNamed.zeroMem {a n : Nat} (h : ContextsNamed s) : ContextsNamed (s.zeroMem a n) := h.frame

theorem ContextsNamed.scrubGo {parts : Nat} (h : ContextsNamed s) : ContextsNamed (s.scrubGo parts) := .ite h.frame h.setB

theorem ContextsNamed.scrubDone (h : ContextsNamed s) : ContextsNamed s.scrubDone := by
  refine .ite ?_ h
  have h1 := h.foldl (f := fun s a => s.zeroMem a 0x200000) (l := s.scrub) fun _ h => h.zeroMem
  exact h1.frame.setB.setB

theorem ContextsNamed.invalidate {c : Nat} {all : Bool} {page : Nat} (h : ContextsNamed s) :
    ContextsNamed (s.invalidate c all page) := by
  unfold State.invalidate
  extract_lets x s1
  have h1 : ContextsNamed s1 := h.dropLeaves.foldl fun _ h => h.modRg
  clear_value s1
  exact .ite h.bump h1.frame

theorem ContextsNamed.invDone (h : ContextsNamed s) : ContextsNamed s.invDone := by
  dsimp only [State.invDone]
  split
  · exact .ite h h.frame
  · exact h

theorem ContextsNamed.drbgReseed {healthy : Bool} (h : ContextsNamed s) : ContextsNamed (s.drbgReseed healthy) :=
  .ite (.ite h.frame h.setB.send) h

/-! ### Regions: resets, assignment, release (`Machine/Region.lean`) -/

theorem ContextsNamed.sumShape (h : ContextsNamed s) : ContextsNamed s.sumShape := h.setFld.setFld

theorem ContextsNamed.gateSpare {r : Nat} (h : ContextsNamed s) : ContextsNamed (s.gateSpare r) := .ite h.setCl.zeroMem h.setCl

theorem ContextsNamed.reshape {r : Nat} (h : ContextsNamed s) : ContextsNamed (s.reshape r) := h.setReg.gateSpare.sumShape

theorem ContextsNamed.applyWidth {r k map : Nat} (h : ContextsNamed s) : ContextsNamed (s.applyWidth r k map) := h.setReg.setReg

theorem ContextsNamed.applyRetire {r k : Nat} (h : ContextsNamed s) : ContextsNamed (s.applyRetire r k) := h.modCl.setFld

theorem ContextsNamed.applyPending {r : Nat} (h : ContextsNamed s) : ContextsNamed (s.applyPending r) :=
  ((h.foldl fun _ h => h.applyWidth).foldl fun _ h => h.applyRetire).modRg.reshape

theorem ContextsNamed.actOnFlag {r k : Nat} (h : ContextsNamed s) : ContextsNamed (s.actOnFlag r k) :=
  .ite h.setFld.setB.modRg (.setB (.modRg (.ite h.setFld.setB.modRg h)))

theorem ContextsNamed.breakIds {c : Nat} (h : ContextsNamed s) : ContextsNamed (s.breakIds c) := .ite h h.modCx.setReg

theorem ContextsNamed.mendIds {r c : Nat} (h : ContextsNamed s) : ContextsNamed (s.mendIds r c) := .ite h (.ite h.frame h.setCx)

theorem ContextsNamed.abortSlices {r : Nat} (h : ContextsNamed s) : ContextsNamed (s.abortSlices r) :=
  h.foldl fun _ h => .ite h.setB.scramble h

theorem ContextsNamed.resetEffect {r : Nat} (h : ContextsNamed s) : ContextsNamed (s.resetEffect r) := by
  unfold State.resetEffect
  extract_lets s0 s1 s2 s3 s4 s5
  have h1 : ContextsNamed s1 := by
    have h0 : ContextsNamed s0 := h.abortSlices
    unfold s1
    split
    · exact h0.breakIds.mendIds
    · exact h0
  have h4 : ContextsNamed s4 := (h1.foldl fun _ h => h.modCl).dropRegs.modRg
  have h5 : ContextsNamed s5 := by
    clear_value s4
    exact h4.frame
  exact h5.setFld

theorem ContextsNamed.beginReset {r : Nat} (h : ContextsNamed s) : ContextsNamed (s.beginReset r) := h.modRg.setB

theorem ContextsNamed.requestRegionReset {r : Nat} (h : ContextsNamed s) : ContextsNamed (s.requestRegionReset r) :=
  .ite h.setB (h.setB.beginReset.modRg fun _ hg => hg.resetJob)

theorem ContextsNamed.beginDieReset {d : Nat} (h : ContextsNamed s) : ContextsNamed (s.beginDieReset d) := by
  unfold State.beginDieReset
  extract_lets rs s1 s2
  have h1 : ContextsNamed s1 := h.foldl fun _ h => h.beginReset.modRg fun _ hg => hg.resetJob
  have h2 : ContextsNamed s2 := by
    clear_value s1
    exact h1.frame
  exact h2.foldl fun _ h => h.setFld

theorem ContextsNamed.requestDieReset {d : Nat} (h : ContextsNamed s) : ContextsNamed (s.requestDieReset d) :=
  .ite h.setB h.setB.beginDieReset

theorem ContextsNamed.dieCoreTimeout {d ms : Nat} (h : ContextsNamed s) : ContextsNamed (s.dieCoreTimeout d ms) :=
  .ite h.beginDieReset h

theorem ContextsNamed.loadChisel {e : Env} {r c : Nat} (h : ContextsNamed s) : ContextsNamed (s.loadChisel e r c) :=
  h.modRg.setReg

/-- The kernel would compute the table's bytes in `loadMap`'s equation, so what reads them is made opaque inside the definition. -/
theorem ContextsNamed.loadMap {e : Env} {r c : Nat} (h : ContextsNamed s) : ContextsNamed (s.loadMap e r c) := by
  generalize hf : @State.loadMap = f
  delta State.loadMap at hf
  generalize @State.readCtx = read at hf
  subst hf
  beta_reduce
  refine .ite h.modRg.setReg ?_
  split
  · exact h.modRg.setReg
  · exact .ite h.modRg.setReg h.modRg.setReg

/-- As for `loadMap`. -/
theorem ContextsNamed.loadBuckets {e : Env} {c : Nat} (h : ContextsNamed s) : ContextsNamed (s.loadBuckets e c) := by
  generalize hf : @State.loadBuckets = f
  delta State.loadBuckets at hf
  generalize @State.readCtx = read at hf
  subst hf
  beta_reduce
  extract_lets a show_
  have hs (loaded reject : Bool) (bs : List (Nat × Bucket)) : ContextsNamed (show_ s loaded reject bs) :=
    h.modCx.setReg.foldl fun _ h => h.setReg
  refine .ite (hs false false []) ?_
  split
  · exact hs false true []
  · exact hs true false _

theorem ContextsNamed.loadGrain {r c : Nat} (h : ContextsNamed s) : ContextsNamed (s.loadGrain r c) := h.modRg.setReg

theorem ContextsNamed.noteLoads {e : Env} {c : Nat} (h : ContextsNamed s) : ContextsNamed (s.noteLoads e c) :=
  h.foldl fun _ h => h.noteReads

theorem ContextsNamed.loads {e : Env} {r c : Nat} (h : ContextsNamed s) : ContextsNamed (s.loads e r c) :=
  h.noteLoads.loadChisel.loadMap.loadGrain.loadBuckets

theorem ContextsNamed.assignPrepare {r c : Nat} (h : ContextsNamed s) : ContextsNamed (s.assignPrepare r c) := h.dropRegs.fillKey

/-- ASSIGN puts the context into the region's job, so the context has to be one of the sixteen. -/
theorem ContextsNamed.assign {r c : Nat} (h : ContextsNamed s) (hc : c < 16) : ContextsNamed (s.assign r c) := by
  dsimp only [State.assign]
  have h1 : ContextsNamed ((s.setB A.assignStatus 0 true).modRg r fun g => { g with job := .assign c }) :=
    h.setB.modRg fun _ hg => ⟨hg.1, fun _ e => Job.assign.inj e ▸ hc⟩
  exact .ite h.setB (.ite h1.assignPrepare h1.beginReset)

theorem ContextsNamed.release {r : Nat} (h : ContextsNamed s) : ContextsNamed (s.release r) :=
  .ite h.setB (.beginReset (h.setB.modRg fun _ hg => ⟨hg.1, nofun⟩))

theorem ContextsNamed.zeroRegion {r : Nat} (h : ContextsNamed s) : ContextsNamed (s.zeroRegion r) :=
  (h.foldl fun _ h => h.zeroMem).zeroMem

theorem ContextsNamed.clearCtx {c : Nat} (h : ContextsNamed s) : ContextsNamed (s.clearCtx c) :=
  (ContextsNamed.ite h.dropLeaves.eraseKeys.dropRegs.setReg h.dropLeaves.eraseKeys.dropRegs).setCx

theorem ContextsNamed.beginClose {r c : Nat} (h : ContextsNamed s) : ContextsNamed (s.beginClose r c) :=
  .ite (h.modRg fun _ hg => ⟨hg.1, nofun⟩) (h.invalidate.modRg fun _ hg => ⟨hg.1, nofun⟩)

/-- A closing that ends leaves the region without a job. -/
theorem ContextsNamed.endClose {r : Nat} (h : ContextsNamed s) : ContextsNamed (s.endClose r) := by
  unfold State.endClose
  split
  · exact .setB (h.clearCtx.modRg fun _ hg => ⟨hg.1, nofun⟩)
  · exact h.beginClose
  · exact h

theorem ContextsNamed.invComplete (h : ContextsNamed s) : ContextsNamed s.invComplete :=
  .ite (h.invDone.foldl fun _ h => h.endClose) h.invDone

/-- A release takes the owner away. -/
theorem ContextsNamed.finishRelease {r : Nat} (h : ContextsNamed s) : ContextsNamed (s.finishRelease r) := by
  dsimp only [State.finishRelease]
  split
  · exact h.zeroRegion
  · exact .ite (.beginClose (.setReg (h.zeroRegion.modRg fun _ _ => ⟨nofun, nofun⟩)))
      (.setB (.setReg (h.zeroRegion.modRg fun _ _ => ⟨nofun, nofun⟩)))

theorem ContextsNamed.afterReset {r : Nat} (h : ContextsNamed s) : ContextsNamed (s.afterReset r) := by
  dsimp only [State.afterReset]
  split
  · exact h.modRg.setB.adoptShares.applyPending.assignPrepare
  · exact h.modRg.setB.adoptShares.applyPending.finishRelease
  · exact .ite h.modRg.setB.adoptShares (h.modRg.setB.adoptShares.applyPending.modRg fun _ hg => hg.closeJob)

theorem ContextsNamed.regionResetDone {n : Nat} (h : ContextsNamed s) : ContextsNamed (s.regionResetDone n) :=
  .ite (.ite h.resetEffect.afterReset h.resetEffect.afterReset.setB) h

theorem ContextsNamed.dieResetDone {d trained : Nat} (h : ContextsNamed s) : ContextsNamed (s.dieResetDone d trained) := by
  unfold State.dieResetDone
  extract_lets rs s1 s2 s3
  have h1 : ContextsNamed s1 := h.frame
  have h2 : ContextsNamed s2 := h1.foldl fun _ h => .ite h.setB h.send
  have h3 : ContextsNamed s3 := h2.foldl fun _ h => h.resetEffect.afterReset
  exact .ite (.ite h3.setB h3) h

/-- The one step that makes an owner: the context of the ASSIGN whose loads end. -/
theorem ContextsNamed.regionLoadsDone {r : Nat} {e : Env} (h : ContextsNamed s) : ContextsNamed (s.regionLoadsDone r e) := by
  unfold State.regionLoadsDone
  refine .ite h ?_
  split
  · next c hj =>
    have ho : ContextsNamed (s.modRg r fun g => { g with owner := some c }) :=
      h.modRg fun _ hg => ⟨fun _ e => Option.some.inj e ▸ h.2 r c hj, hg.2⟩
    exact .ite h (.setB (ho.loads.modRg fun _ hg => ⟨hg.1, nofun⟩))
  · split
    · exact h.loads.modRg fun _ hg => ⟨hg.1, nofun⟩
    · exact h
  · exact h

/-! ### Snapshots (`Machine/Snap.lean`) -/

theorem ContextsNamed.noteList {e : Env} {c : Nat} (h : ContextsNamed s) : ContextsNamed (s.noteList e c) := h.noteReads

theorem ContextsNamed.snapArm {c : Nat} {e : Env} (h : ContextsNamed s) : ContextsNamed (s.snapArm c e) := by
  dsimp only [State.snapArm]
  split
  · exact h.bump
  · split
    · exact h.noteList.bump.setReg
    · exact h.noteList.frame.modCx.setReg

theorem ContextsNamed.snapWrite {c id va : Nat} {bs : List ByteRead} (h : ContextsNamed s) :
    ContextsNamed (s.snapWrite c id va bs) :=
  .ite (h.foldl fun _ h => h.sendTracked) (.ite h.writeLocs h)

theorem ContextsNamed.copyGran {c : Nat} {e : Env} {l : Loc} (h : ContextsNamed s) : ContextsNamed (s.copyGran c e l).2 := by
  unfold State.copyGran
  split
  · exact h
  · exact h.frame

/-- The kernel would compute `copyPart`'s equation, whose range has 65536 members, so the range is made opaque inside the definition. -/
theorem ContextsNamed.copyPart {c i : Nat} {e : Env} {l : Loc} (h : ContextsNamed s) : ContextsNamed (s.copyPart c i e l) := by
  generalize hf : @State.copyPart = f
  delta State.copyPart at hf
  generalize List.range 65536 = gs at hf
  subst hf
  beta_reduce
  extract_lets s0
  have h0 : ContextsNamed s0 := h.noteReads
  clear_value s0
  split
  next e =>
    refine .snapWrite (.of_snd ?_ e)
    exact List.foldlRecOn _ _ (motive := fun p : _ × State => ContextsNamed p.2) h0 fun _ h _ _ => h.copyGran

theorem ContextsNamed.snapHead {c complete : Nat} (h : ContextsNamed s) : ContextsNamed (s.snapHead c complete) := h.snapWrite

theorem ContextsNamed.snapPartDone {c i : Nat} {skipped : Bool} (h : ContextsNamed s) :
    ContextsNamed (s.snapPartDone c i skipped) :=
  h.snapWrite.modCx.setFld.bump

theorem ContextsNamed.snapForget {c : Nat} (h : ContextsNamed s) : ContextsNamed (s.snapForget c) := h.bump.frame

theorem ContextsNamed.snapLanded {c : Nat} (h : ContextsNamed s) : ContextsNamed (s.snapLanded c) :=
  h.foldl fun _ h => h.frame.snapPartDone

theorem ContextsNamed.snapFinish {c : Nat} (h : ContextsNamed s) : ContextsNamed (s.snapFinish c) :=
  .ite h h.frame.snapHead.setFld

theorem ContextsNamed.snapTake {c i : Nat} {e : Env} (h : ContextsNamed s) : ContextsNamed (s.snapTake c i e) := by
  unfold State.snapTake
  extract_lets s1
  have h1 : ContextsNamed s1 := .ite h.snapHead h
  split
  · exact h1.snapPartDone
  · exact .ite h1.copyPart h1.copyPart.snapPartDone

theorem ContextsNamed.snapPartCopy {c : Nat} {e : Env} (h : ContextsNamed s) : ContextsNamed (s.snapPartCopy c e) := by
  unfold State.snapPartCopy
  extract_lets peer s1 s2
  have h1 : ContextsNamed s1 := .snapLanded (.ite h.snapForget h)
  have h2 : ContextsNamed s2 := by
    unfold s2
    split
    · exact h1
    · exact .ite h1.startKex (.ite h1.snapTake h1)
  exact .ite h h2.snapFinish

/-! ### Images, maquettes and firmware (`Machine/Images.lean`) -/

theorem ContextsNamed.program {o : Nat} {bs : List Byte} (h : ContextsNamed s) : ContextsNamed (s.program o bs) := h.frame

theorem ContextsNamed.blank {sector : Nat} (h : ContextsNamed s) : ContextsNamed (s.blank sector) := h.frame

theorem ContextsNamed.logAppend {sector count : Nat} (h : ContextsNamed s) : ContextsNamed (s.logAppend sector count) := by
  dsimp only [State.logAppend]
  split
  · exact h.program
  · exact h.program.blank.bump.program

theorem ContextsNamed.eraseSector {sector : Nat} (h : ContextsNamed s) : ContextsNamed (s.eraseSector sector) := by
  unfold State.eraseSector
  exact h.blank.bump.logAppend

theorem ContextsNamed.writeArea {o : Nat} {bs : List Byte} (h : ContextsNamed s) : ContextsNamed (s.writeArea o bs) :=
  (h.foldl fun _ h => h.eraseSector).program

theorem ContextsNamed.hdrError {e : Nat} (h : ContextsNamed s) : ContextsNamed (s.hdrError e) := h.setFld

theorem ContextsNamed.writeHeader {slot set : Nat} (h : ContextsNamed s) : ContextsNamed (s.writeHeader slot set) := by
  dsimp only [State.writeHeader]
  split
  · exact h.hdrError
  · exact .ite h.hdrError h.writeArea.setFld.setFld

theorem ContextsNamed.refuseCfg (h : ContextsNamed s) : ContextsNamed s.refuseCfg := h.bump

theorem ContextsNamed.maqLoad (h : ContextsNamed s) : ContextsNamed s.maqLoad := .ite h (.ite h.refuseCfg h.frame)

theorem ContextsNamed.maqLoadDone (h : ContextsNamed s) : ContextsNamed s.maqLoadDone := by
  dsimp only [State.maqLoadDone]
  split
  · exact h
  · split
    · exact h.frame
    · exact h.setReg

theorem ContextsNamed.maqSwap {now : Bool} (h : ContextsNamed s) : ContextsNamed (s.maqSwap now) :=
  .ite h (.ite h.refuseCfg h.setB.setFld)

theorem ContextsNamed.maqDiscard (h : ContextsNamed s) : ContextsNamed s.maqDiscard := .ite h (.ite h.refuseCfg (.ite h.frame h))

theorem ContextsNamed.swapBeat (h : ContextsNamed s) : ContextsNamed s.swapBeat := by
  unfold State.swapBeat
  split
  · exact h
  · split
    · exact h.swapNow
    · split
      · exact h.passRelease
      · exact h

theorem ContextsNamed.setActivating {b : Bool} (h : ContextsNamed s) : ContextsNamed (s.setActivating b) := h.setB.setB

theorem ContextsNamed.fwActivate {persist : Bool} (h : ContextsNamed s) : ContextsNamed (s.fwActivate persist) :=
  .ite h (.ite h.setB (.ite h.setB.refuseCfg.setFld (.ite h.setB.refuseCfg (.ite h.setB.setFld h.frame))))

theorem ContextsNamed.dropHistories (h : ContextsNamed s) : ContextsNamed s.dropHistories := h.foldl fun _ h => h.modCx

theorem ContextsNamed.fwCommit (h : ContextsNamed s) : ContextsNamed s.fwCommit := by
  unfold State.fwCommit
  extract_lets x s0 s1 n s2
  have h0 : ContextsNamed s0 := h.frame
  have h1 : ContextsNamed s1 := h0.setActivating.commitRecord.dropHistories
  have h2 : ContextsNamed s2 := h1.setFld
  exact .ite h (.ite h1 (.ite h2.writeHeader h2))

theorem ContextsNamed.fwTimeout (h : ContextsNamed s) : ContextsNamed s.fwTimeout := .ite h.frame h

theorem ContextsNamed.stageGo {len target : Nat} {e : Env} (h : ContextsNamed s) : ContextsNamed (s.stageGo len target e) := by
  unfold State.stageGo
  extract_lets err s0
  have h0 : ContextsNamed s0 := .ite h h.setFld.setFld
  refine .ite h (.ite h0.setFld.refuseCfg ?_)
  split
  · exact h0
  · exact .of_regions rfl h0

theorem ContextsNamed.stageDone (h : ContextsNamed s) : ContextsNamed s.stageDone := by
  unfold State.stageDone
  split
  · exact h
  · extract_lets s1
    have h1 : ContextsNamed s1 := h.foldl fun _ h => h.writeArea
    clear_value s1
    exact .of_regions rfl h1

theorem ContextsNamed.bootSel {slot set : Nat} (h : ContextsNamed s) : ContextsNamed (s.bootSel slot set) := by
  unfold State.bootSel
  split
  · exact h
  · split
    · exact h.refuseCfg
    · split
      · exact h.refuseCfg.hdrError
      · split
        · exact h.hdrError
        · split
          · exact h.hdrError
          · exact h.writeHeader

/-! ### Mailbox (`Machine/Mail.lean`) -/

theorem ContextsNamed.tellCompanion {a : Nat} {bs : List Byte} (h : ContextsNamed s) : ContextsNamed (s.tellCompanion a bs) :=
  .ite h.sendMlm h

theorem ContextsNamed.mboxPut {ty : Nat} {body : List Byte} (h : ContextsNamed s) : ContextsNamed (s.mboxPut ty body) := by
  unfold State.mboxPut
  extract_lets s1 m s2 n
  have h1 : ContextsNamed s1 := h.tellCompanion
  clear_value s1
  have h2 : ContextsNamed s2 := h1.frame.setReg
  exact .ite h2 h2.tellCompanion

theorem ContextsNamed.mboxHeartbeat {body : List Byte} (h : ContextsNamed s) : ContextsNamed (s.mboxHeartbeat body) :=
  .ite h.bump (.ite h.mboxPut h)

theorem ContextsNamed.mboxSend {body : List Byte} (h : ContextsNamed s) : ContextsNamed (s.mboxSend body) :=
  .ite h.frame (.ite h.mboxPut h.frame)

theorem ContextsNamed.mboxDrain {n : Nat} (h : ContextsNamed s) : ContextsNamed (State.mboxDrain n s) := by
  induction n generalizing s with
  | zero => exact h
  | succ n ih =>
    unfold State.mboxDrain
    split
    · exact h
    · exact .ite (ih h.frame.mboxPut) h

theorem ContextsNamed.mboxTail {tail : Nat} (h : ContextsNamed s) : ContextsNamed (s.mboxTail tail) := .ite h h.setReg.mboxDrain

theorem ContextsNamed.mboxInGo {len : Nat} (h : ContextsNamed s) : ContextsNamed (s.mboxInGo len) :=
  .ite h (.ite h.setFld.setB h.frame)

theorem ContextsNamed.mboxInTaken (h : ContextsNamed s) : ContextsNamed s.mboxInTaken := by
  dsimp only [State.mboxInTaken]
  split
  · exact h
  · exact h.frame

/-! ### Governor, health and self-test (`Machine/Health.lean`) -/

theorem ContextsNamed.showDie {d : Nat} (h : ContextsNamed s) : ContextsNamed (s.showDie d) := h.setReg

theorem ContextsNamed.paceMeasured {r k pace : Nat} (h : ContextsNamed s) : ContextsNamed (s.paceMeasured r k pace) :=
  .ite h.setReg.showDie h

theorem ContextsNamed.admLower (h : ContextsNamed s) : ContextsNamed s.admLower := .ite h.frame h

theorem ContextsNamed.showGov (h : ContextsNamed s) : ContextsNamed s.showGov := h.setFld

theorem ContextsNamed.moveRails {which : Nat → Bool} {f : Nat → Nat} (h : ContextsNamed s) :
    ContextsNamed (s.moveRails which f) :=
  h.frame

theorem ContextsNamed.floorCheck {x : Readings} (h : ContextsNamed s) : ContextsNamed (s.floorCheck x) := .ite h.setB h

theorem ContextsNamed.governorAct {power : Nat} (h : ContextsNamed s) : ContextsNamed (s.governorAct power) :=
  .ite h.admLower (.ite h.moveRails (.ite h.moveRails (.ite h.admLower (.ite h.frame (.ite h.moveRails h)))))

theorem ContextsNamed.notePeak {w : Nat} (h : ContextsNamed s) : ContextsNamed (s.notePeak w) := h.setReg

theorem ContextsNamed.governor {x : Readings} (h : ContextsNamed s) : ContextsNamed (s.governor x) :=
  .ite h (h.floorCheck.governorAct.showGov.notePeak.foldl fun _ h => h.showDie)

theorem ContextsNamed.telemetry {x : Readings} (h : ContextsNamed s) : ContextsNamed (s.telemetry x) :=
  .ite h h.frame.setReg.setReg.bump.notePeak

theorem ContextsNamed.flagSet {r k : Nat} (h : ContextsNamed s) : ContextsNamed (s.flagSet r k) := .ite h.send.actOnFlag h.send

theorem ContextsNamed.patina {r k guard : Nat} (h : ContextsNamed s) : ContextsNamed (s.patina r k guard) :=
  .ite (.ite h.setFld.setB.flagSet h.setFld) h

theorem ContextsNamed.retireReq {r k : Nat} (h : ContextsNamed s) : ContextsNamed (s.retireReq r k) := .ite h.actOnFlag h

theorem ContextsNamed.trigger {e : Env} (h : ContextsNamed s) : ContextsNamed (s.trigger e) := by
  unfold State.trigger
  extract_lets s1
  have h1 : ContextsNamed s1 := h.foldl fun _ h => h.snapArm
  clear_value s1
  exact h1.bump.frame

theorem ContextsNamed.healthTick {e : Env} (h : ContextsNamed s) : ContextsNamed (s.healthTick e) :=
  .ite h (.ite h.frame.setReg.trigger (.ite h.frame h.frame.setReg))

theorem ContextsNamed.sendBeat {state stalled : Nat} (h : ContextsNamed s) : ContextsNamed (s.sendBeat state stalled) :=
  (ContextsNamed.ite h.frame.setReg.setFld.send h.frame.setReg.setFld).send.mboxHeartbeat

theorem ContextsNamed.sampleProgress (h : ContextsNamed s) : ContextsNamed s.sampleProgress.1 := h.foldl fun _ h => h.modCx

theorem ContextsNamed.watchdogFire {stalled : Nat} (h : ContextsNamed s) : ContextsNamed (s.watchdogFire stalled) :=
  h.frame.sendBeat

theorem ContextsNamed.heartbeat (h : ContextsNamed s) : ContextsNamed s.heartbeat := by
  have h1 := h.sampleProgress
  unfold State.heartbeat
  refine .ite h.sendBeat (.ite h ?_)
  split
  next e =>
    rw [e] at h1
    exact .ite (.ite h1.sendBeat h1.watchdogFire) (.ite h1.frame (.ite h1.frame.sendBeat h1.frame.sendBeat))

theorem ContextsNamed.activate {persist : Bool} (h : ContextsNamed s) : ContextsNamed (s.activate persist) :=
  .ite h.sendBeat.fwActivate h.fwActivate

theorem ContextsNamed.sramScrub {r k bank : Nat} {e : Env} (h : ContextsNamed s) : ContextsNamed (s.sramScrub r k bank e) :=
  .ite h h.queueUntimed.noteChip.frame.bump

theorem ContextsNamed.patrolFind {stack a : Nat} {e : Env} (h : ContextsNamed s) : ContextsNamed (s.patrolFind stack a e) := by
  unfold State.patrolFind
  extract_lets s1
  have h1 : ContextsNamed s1 := .ite h.bump.tallyCe h
  exact .ite h1.setGran.bump.setReg.tallyUe h1

theorem ContextsNamed.patrolScrub {stack : Nat} {e : Env} (h : ContextsNamed s) : ContextsNamed (s.patrolScrub stack e) := by
  dsimp only [State.patrolScrub]
  have h2 := h.patrolFind (stack := stack) (a := s.patrolAt stack) (e := e) |>.bump (a := A.hbmOdecc stack) (n := e.status)
  split
  · exact h
  · split
    · exact .of_regions rfl (.bumpW h2.frame)
    · exact h2.frame

theorem ContextsNamed.endRecal (h : ContextsNamed s) : ContextsNamed s.endRecal := h.foldl fun _ h => .ite h.setB h

theorem ContextsNamed.recalibrate {e : Env} (h : ContextsNamed s) : ContextsNamed (s.recalibrate e) :=
  .ite h ((ContextsNamed.ite h.endRecal.bump.setB h.endRecal.bump).frame)

theorem ContextsNamed.analogueCheck {temps vin vref : Nat} (h : ContextsNamed s) :
    ContextsNamed (s.analogueCheck temps vin vref) :=
  .ite h h.orReg

theorem ContextsNamed.abistRerun {loopE loopM loopC : Nat} (h : ContextsNamed s) :
    ContextsNamed (s.abistRerun loopE loopM loopC) :=
  .ite h h.orReg

theorem ContextsNamed.cxlEvents {port corrected media : Nat} (h : ContextsNamed s) :
    ContextsNamed (s.cxlEvents port corrected media) :=
  .ite h.bump.tallyCe.tallyUe h

theorem ContextsNamed.clearW1s (h : ContextsNamed s) : ContextsNamed s.clearW1s := h.foldl fun _ h => h.setB

theorem ContextsNamed.counterSample (h : ContextsNamed s) : ContextsNamed s.counterSample := h.clearW1s.endRecal.frame

theorem ContextsNamed.bistReq {r clusters kinds save : Nat} (h : ContextsNamed s) :
    ContextsNamed (s.bistReq r clusters kinds save) :=
  .ite h (.ite h.setB (h.foldl fun _ h => h.modCl))

theorem ContextsNamed.bistCancel {r : Nat} (h : ContextsNamed s) : ContextsNamed (s.bistCancel r) :=
  .ite (h.foldl fun _ h => h.modCl) h

theorem ContextsNamed.bistSlice {r k : Nat} (h : ContextsNamed s) : ContextsNamed (s.bistSlice r k) := by
  dsimp only [State.bistSlice]
  split
  · exact h
  · exact .ite h.modCl.scramble h

theorem ContextsNamed.sliceComplete {r k : Nat} {failed : Bool} {columns : Nat} (h : ContextsNamed s) :
    ContextsNamed (s.sliceComplete r k failed columns) := by
  dsimp only [State.sliceComplete]
  split
  · exact h
  · exact .ite h.modCl.orReg.orReg.orReg.flagSet h.modCl.orReg

/-! ### Fabric and links (`Machine/Fabric.lean`) -/

theorem ContextsNamed.defaultRoutes (h : ContextsNamed s) : ContextsNamed s.defaultRoutes := by
  dsimp -zeta only [State.defaultRoutes, State.free]
  extract_lets s2
  have h2 : ContextsNamed s2 := .foldl h.frame fun _ h => h.setReg
  clear_value s2
  exact h2.frame

theorem ContextsNamed.routingUpdate (h : ContextsNamed s) : ContextsNamed s.routingUpdate := .ite (.ite h.frame h.defaultRoutes) h

theorem ContextsNamed.dropHeld {counter : Nat} (h : ContextsNamed s) : ContextsNamed (s.dropHeld counter) := h.bump.frame

theorem ContextsNamed.newEpochEffects (h : ContextsNamed s) : ContextsNamed s.newEpochEffects :=
  h.dropHeld.frame.foldl fun _ h => h.modCx

theorem ContextsNamed.adoptEpoch {epoch : Nat} (h : ContextsNamed s) : ContextsNamed (s.adoptEpoch epoch) := by
  unfold State.adoptEpoch
  exact (ContextsNamed.ite h.setFld.setFld h.setFld).newEpochEffects

theorem ContextsNamed.becomeMember {modNum epoch : Nat} (h : ContextsNamed s) : ContextsNamed (s.becomeMember modNum epoch) :=
  .ite h.setFld.setFld.adoptEpoch h.setFld.setFld.adoptEpoch.defaultRoutes

theorem ContextsNamed.ekbJoin {modNum epoch : Nat} (h : ContextsNamed s) : ContextsNamed (s.ekbJoin modNum epoch) := by
  unfold State.ekbJoin
  split
  · exact h.becomeMember
  · exact .ite h.adoptEpoch h.bump
  · exact .ite h.bump h.becomeMember

theorem ContextsNamed.graceExpiry (h : ContextsNamed s) : ContextsNamed s.graceExpiry := .ite h.setFld.dropHeld.send h

theorem ContextsNamed.ctxJobWrite {c job : Nat} {valid : Bool} (h : ContextsNamed s) :
    ContextsNamed (s.ctxJobWrite c job valid) :=
  .ite h.setB h.setReg

theorem ContextsNamed.ekbDown {p : Nat} (h : ContextsNamed s) : ContextsNamed (s.ekbDown p) := by
  unfold State.ekbDown
  extract_lets l s1 x y
  have h1 : ContextsNamed s1 := h.setFld.bump.setLink
  clear_value y x s1
  exact h1.frame

theorem ContextsNamed.mlmDown {m : Nat} (h : ContextsNamed s) : ContextsNamed (s.mlmDown m) := by
  unfold State.mlmDown
  extract_lets l s1
  have h1 : ContextsNamed s1 := h.setReg.bump.setLink
  clear_value s1
  have h2 := h1.dropSession (peer := 65536 + m)
  exact h2.frame

theorem ContextsNamed.linkDown {p : Nat} (h : ContextsNamed s) : ContextsNamed (s.linkDown p) := .ite h.ekbDown h.mlmDown

theorem ContextsNamed.cxlDown {p : Nat} (h : ContextsNamed s) : ContextsNamed (s.cxlDown p) := .ite h.setReg h

theorem ContextsNamed.linkGoesDown {kind p : Nat} (h : ContextsNamed s) : ContextsNamed (s.linkGoesDown kind p) :=
  .ite h (.ite (.ite h.ekbDown h) (.ite h.cxlDown (.ite h.mlmDown h)))

theorem ContextsNamed.setPeer {p width : Nat} {l : LinkCtl} (h : ContextsNamed s) : ContextsNamed (s.setPeer p width l) := h.frame

theorem ContextsNamed.countFec {p : Nat} {f : Flit} (h : ContextsNamed s) : ContextsNamed (s.countFec p f) := .ite h.bump.bump h

theorem ContextsNamed.requestRetry {p : Nat} (h : ContextsNamed s) : ContextsNamed (s.requestRetry p) := h.send

theorem ContextsNamed.flitFails {p : Nat} (h : ContextsNamed s) : ContextsNamed (s.flitFails p) :=
  .ite h.setLink.requestRetry (.ite h.linkDown h.setLink.requestRetry)

theorem ContextsNamed.flitTaken {p : Nat} {f : Flit} (h : ContextsNamed s) : ContextsNamed (s.flitTaken p f) :=
  .ite h.setLink.bumpUnits h.setLink

theorem ContextsNamed.flitReceive {p : Nat} {f : Flit} (h : ContextsNamed s) : ContextsNamed (s.flitReceive p f) := by
  have h1 := h.countFec (p := p) (f := f)
  exact .ite h (.ite (.ite h1 h1.flitFails) (.ite h1.flitTaken (.ite h1 h1.flitFails)))

theorem ContextsNamed.flitReplay {p seq : Nat} (h : ContextsNamed s) : ContextsNamed (s.flitReplay p seq) :=
  .ite h (.ite h.linkDown (.ite h.setLink.send.bump.frame h.setLink.send.bump))

theorem ContextsNamed.linkControl {p : Nat} {l : LinkCtl} (h : ContextsNamed s) : ContextsNamed (s.linkControl p l) :=
  .ite ((ContextsNamed.ite h.setPeer h).takeCredits.sendControl) h

theorem ContextsNamed.portTrained {p lanes rtt : Nat} {l : LinkCtl} (h : ContextsNamed s) :
    ContextsNamed (s.portTrained p lanes rtt l) :=
  .ite h.setReg.setLink.setPeer.sendControl h

theorem ContextsNamed.retrainTimeout {p : Nat} (h : ContextsNamed s) : ContextsNamed (s.retrainTimeout p) := .ite h.setLink h

theorem ContextsNamed.mlmRetrain {m lanes : Nat} (h : ContextsNamed s) : ContextsNamed (s.mlmRetrain m lanes) :=
  .ite h.setReg.setLink.sendControl h

/-! ### Power, boot, recovery (`Machine/Power.lean`) -/

theorem ContextsNamed.powerReset (s : State) (b : Boot) : ContextsNamed (s.powerReset b) := reset_contextsNamed.frame

theorem ContextsNamed.porstAssert (h : ContextsNamed s) : ContextsNamed s.porstAssert :=
  .of_regions rfl (.ite h (powerReset s .porst))

theorem ContextsNamed.selfReset (s : State) : ContextsNamed s.selfReset := .ite (powerReset s .held) (powerReset s .porst)

theorem ContextsNamed.vinLost (s : State) : ContextsNamed s.vinLost := (powerReset s .off).frame

theorem ContextsNamed.vinUnder {mv us : Nat} (h : ContextsNamed s) : ContextsNamed (s.vinUnder mv us) :=
  .ite h (.ite (vinLost s) (.ite h (.ite (.ite h (selfReset s)) (.ite h.setB.setB h))))

theorem ContextsNamed.vinOver {mv us : Nat} (h : ContextsNamed s) : ContextsNamed (s.vinOver mv us) :=
  .ite h (.ite (selfReset s).frame (.ite h.setB.setB h))

theorem ContextsNamed.thermalTrip {junction hbm : Int} {us : Nat} (h : ContextsNamed s) :
    ContextsNamed (s.thermalTrip junction hbm us) :=
  .ite (powerReset s .tripped).frame h

theorem ContextsNamed.bootHalt {err : Nat} (h : ContextsNamed s) : ContextsNamed (s.bootHalt err) := h.frame

theorem ContextsNamed.rebuildIdentity {ok : Bool} (h : ContextsNamed s) : ContextsNamed (s.rebuildIdentity ok) := h.frame

theorem ContextsNamed.applyPowerOn {x : CfgSet} (h : ContextsNamed s) : ContextsNamed (s.applyPowerOn x) := h.frame.setB.setReg

theorem ContextsNamed.trainStacks {e : BootEnv} (h : ContextsNamed s) : ContextsNamed (s.trainStacks e) :=
  h.foldl fun _ h => h.setB.setReg

theorem ContextsNamed.selfTestOne {e : BootEnv} {p : Nat} (h : ContextsNamed s) : ContextsNamed (s.selfTestOne e p) :=
  .ite h.setReg.setFld.modCl h.setReg.setFld

theorem ContextsNamed.selfTest {e : BootEnv} (h : ContextsNamed s) : ContextsNamed (s.selfTest e) :=
  (h.foldl fun _ h => h.selfTestOne).frame

theorem ContextsNamed.bootEkb {e : BootEnv} {p : Nat} (h : ContextsNamed s) : ContextsNamed (s.bootEkb e p) :=
  .ite h.setReg.setReg.setPeer.sendControl h

theorem ContextsNamed.bootMlm {e : BootEnv} {m : Nat} (h : ContextsNamed s) : ContextsNamed (s.bootMlm e m) :=
  .ite h.setReg.sendControl h

theorem ContextsNamed.bootCxl {e : BootEnv} {p : Nat} (h : ContextsNamed s) : ContextsNamed (s.bootCxl e p) :=
  .ite (.ite h.frame h.setReg.setReg.setReg) h

theorem ContextsNamed.bootPorts {e : BootEnv} (h : ContextsNamed s) : ContextsNamed (s.bootPorts e) :=
  ((h.setReg.foldl fun _ h => h.bootEkb).foldl fun _ h => h.bootMlm).foldl fun _ h => h.bootCxl

theorem ContextsNamed.bootSteps {slot set : Nat} {e : BootEnv} (h : ContextsNamed s) :
    ContextsNamed (s.bootSteps slot set e) := by
  unfold State.bootSteps
  extract_lets e0 s1 s2
  have h2 : ContextsNamed s2 := h.setFld.setFld.setB.rebuildIdentity
  refine .ite h.bootHalt ?_
  split
  · exact h2.bootHalt
  · extract_lets s3 s4
    have h3 : ContextsNamed s3 := h2.applyPowerOn
    have h4 : ContextsNamed s4 := h3.trainStacks.selfTest.bootPorts
    exact .ite h3.bootHalt (.ite h4.bootHalt (.of_regions rfl h4))

theorem ContextsNamed.bootFromPower {e : BootEnv} (h : ContextsNamed s) : ContextsNamed (s.bootFromPower e) := by
  dsimp only [State.bootFromPower]
  split
  · exact h.frame.setReg.bootHalt
  · split
    · exact h.frame.setReg.bootHalt
    · exact h.frame.setReg.setFld.setFld.bootSteps

theorem ContextsNamed.porstRelease {railsGood : Bool} {hottest : Int} {e : BootEnv} (h : ContextsNamed s) :
    ContextsNamed (s.porstRelease railsGood hottest e) :=
  .ite (.ite h.frame.bootFromPower h.frame) h

theorem ContextsNamed.internalRelease {railsGood : Bool} {hottest : Int} {e : BootEnv} (h : ContextsNamed s) :
    ContextsNamed (s.internalRelease railsGood hottest e) :=
  .ite h.bootFromPower h

theorem ContextsNamed.showShape (h : ContextsNamed s) : ContextsNamed s.showShape := h.setFld.setFld.setFld.setFld

theorem ContextsNamed.showWidth {r k : Nat} (h : ContextsNamed s) : ContextsNamed (s.showWidth r k) := by
  dsimp only [State.showWidth]
  exact .ite h h.setFld

/-- The last update stands apart, so that it is not unfolded together with the folds before it. -/
theorem ContextsNamed.becomeReady {bootMs : Nat} (h : ContextsNamed s) : ContextsNamed (s.becomeReady bootMs) := by
  have hlast : ∀ t, ContextsNamed t →
      ContextsNamed { t with boot := .ready, wdog := ⟨0, 0, false⟩, mboxSeq := 0, pins := { t.pins with ready := true } } :=
    fun _ h => h.frame
  unfold State.becomeReady
  extract_lets s1 s2 s3 s4
  have h2 : ContextsNamed s2 := h.applySwapFields.showShape.foldl fun _ h => h.reshape
  have h3 : ContextsNamed s3 := h2.foldl fun _ h => h.showWidth
  exact hlast s4 h3.setFld.setFld.commitRecord

theorem ContextsNamed.bootReady {e : BootEnv} (h : ContextsNamed s) : ContextsNamed (s.bootReady e) := .ite h.becomeReady h

theorem ContextsNamed.beginRecovery (h : ContextsNamed s) : ContextsNamed s.beginRecovery := h.frame

theorem ContextsNamed.recovEdge {us : Nat} (h : ContextsNamed s) : ContextsNamed (s.recovEdge us) := .ite h.beginRecovery h

theorem ContextsNamed.hltRecover {key : Nat} {go : Bool} (h : ContextsNamed s) : ContextsNamed (s.hltRecover key go) :=
  .ite h.beginRecovery h

theorem ContextsNamed.moduleReset (s : State) (hbm : Bool) : ContextsNamed (s.moduleReset hbm) := by
  refine .ite (.setB ?_) ?_ <;> exact .foldl reset_contextsNamed.frame fun _ h => h.setReg

theorem ContextsNamed.recoveryComplete {e : BootEnv} (h : ContextsNamed s) : ContextsNamed (s.recoveryComplete e) := by
  have h0 := moduleReset s s.sameInterleave
  exact .ite (.ite (.becomeReady (.bumpW (.ite h0.bootSteps h0.bootHalt))) (.ite h0.bootSteps h0.bootHalt)) h

/-! ### Register accesses (`Machine/Csr.lean`) -/

theorem ContextsNamed.deny (h : ContextsNamed s) : ContextsNamed s.deny := h.bump

theorem ContextsNamed.csrRead {p : Party} {a : Nat} (h : ContextsNamed s) : ContextsNamed (s.csrRead p a).2 := by
  unfold State.csrRead
  split
  · exact h
  · split
    · exact h.deny
    · split
      · exact h
      · split
        · exact h
        · split
          · exact h
          · split
            · exact h
            · split
              · exact h
              · exact h.deny

theorem ContextsNamed.startQueue {r k q : Nat} (h : ContextsNamed s) : ContextsNamed (s.startQueue r k q) := h.setQ

theorem ContextsNamed.doorbell {r k m : Nat} (h : ContextsNamed s) : ContextsNamed (s.doorbell r k m) :=
  .ite h.bump (.ite h.bump ((h.foldl fun _ h => h.startQueue).modCl))

theorem ContextsNamed.ldoorbell {r l m : Nat} (h : ContextsNamed s) : ContextsNamed (s.ldoorbell r l m) := .ite h.doorbell h.bump

theorem ContextsNamed.storeFields {a : Nat} {d : RegDef} {w : Nat} (h : ContextsNamed s) : ContextsNamed (s.storeFields a d w) :=
  h.setReg

theorem ContextsNamed.clearOnZero {a : Nat} {d : RegDef} {w : Nat} (h : ContextsNamed s) : ContextsNamed (s.clearOnZero a d w) :=
  .ite h.clearCounter h

theorem ContextsNamed.rerunLoop {x : WriteEnv} (h : ContextsNamed s) : ContextsNamed (s.rerunLoop x) := by
  dsimp only [State.rerunLoop, State.free]
  split
  · exact h.abistRerun
  · exact h.frame.abistRerun

theorem ContextsNamed.mlmWinWrite {mode : Nat} (h : ContextsNamed s) : ContextsNamed (s.mlmWinWrite mode) :=
  .ite h (.ite h.refuseCfg h.setReg)

theorem ContextsNamed.inboxWrite {o w : Nat} (h : ContextsNamed s) : ContextsNamed (s.inboxWrite o w) := h.frame

theorem ContextsNamed.writeCfg {a : Nat} {d : RegDef} {w : Nat} {x : WriteEnv} (h : ContextsNamed s) :
    ContextsNamed (s.writeCfg a d w x) := by
  unfold State.writeCfg
  extract_lets b s1 s2 s3 s4
  have h1 : ContextsNamed s1 := h.storeFields
  have h2 : ContextsNamed s2 := .ite h1.maqLoad h1
  have h3 : ContextsNamed s3 := .ite h2.maqSwap h2
  exact .ite (.ite h.activate h1) (.ite (.ite h.stageGo h1) (.ite (.ite h.bootSel h) (.ite (.ite h3.maqDiscard h3)
    (.ite (.ite h.mboxInGo h1) (.ite h.setReg.mboxDrain (.ite h.mboxTail (.ite h.inboxWrite h1)))))))

/-- The context that a write to SEC_REGION_ASSIGN names is a field of four bits (R403). -/
theorem ContextsNamed.writeSec {a : Nat} {d : RegDef} {w : Nat} (h : ContextsNamed s) : ContextsNamed (s.writeSec a d w) := by
  dsimp only [State.writeSec]
  split
  · exact .ite h.rotate h
  · split
    · split
      · exact h.assign (Nat.mod_lt _ (by decide))
      · exact h.release
      · exact h
    · exact .ite (.ite h.storeFields.scrubGo h.storeFields) h.storeFields

theorem ContextsNamed.writeHlt {a : Nat} {d : RegDef} {w : Nat} {x : WriteEnv} (h : ContextsNamed s) :
    ContextsNamed (s.writeHlt a d w x) := by
  unfold State.writeHlt
  extract_lets s1 s2
  have h1 : ContextsNamed s1 := .ite h.bistCancel h
  have h2 : ContextsNamed s2 := h.storeFields
  exact .ite h.hltRecover (.ite (.ite h (.ite h.requestDieReset h.requestRegionReset)) (.ite (.ite h1.bistReq h1)
    (.ite (.ite h.retireReq h) (.ite (.ite h2.rerunLoop h2) h2))))

theorem ContextsNamed.writeRest {p : Party} {a : Nat} {d : RegDef} {w : Nat} {x : WriteEnv} (h : ContextsNamed s) :
    ContextsNamed (s.writeRest p a d w x) := by
  unfold State.writeRest
  refine .ite h.setReg (.ite h.setReg (.ite (.ite h.ekbJoin h) (.ite h.invalidate (.ite h.mlmWinWrite ?_))))
  split
  · exact .ite h.ctxJobWrite (.ite (.ite h.storeFields.snapArm h.storeFields) h.storeFields)
  · exact .ite h h.incNode
  · exact h.ldoorbell
  · exact .ite h.doorbell h.storeFields
  · exact h.storeFields

theorem ContextsNamed.writeAction {p : Party} {a : Nat} {d : RegDef} {w : Nat} {x : WriteEnv} (h : ContextsNamed s) :
    ContextsNamed (s.writeAction p a d w x) :=
  .ite h.clearOnZero (.ite h.writeCfg (.ite h.writeSec (.ite h.writeHlt h.writeRest)))

theorem ContextsNamed.writeEffect {p : Party} {a : Nat} {d : RegDef} {w : Nat} {x : WriteEnv} (h : ContextsNamed s) :
    ContextsNamed (s.writeEffect p a d w x) :=
  .ite h (.ite ((ContextsNamed.ite h.setFld h).refuseCfg) (.ite h.writeAction h.writeAction.orReg))

theorem ContextsNamed.csrWrite {p : Party} {a w : Nat} {x : WriteEnv} (h : ContextsNamed s) :
    ContextsNamed (s.csrWrite p a w x) := by
  unfold State.csrWrite
  split
  · exact h
  · split
    · exact h.deny
    · split
      · exact h
      · split
        · exact h
        · split
          · exact .ite h.doorbell h
          · exact .ite h.writeEffect h.deny

/-! ### Companion requests (`Machine/Companion.lean`) -/

theorem ContextsNamed.answerMlm {m : Nat} {x : Pkt} {ptype status : Nat} {data : List Byte} {mask : Nat} (h : ContextsNamed s) :
    ContextsNamed (s.answerMlm m x ptype status data mask) :=
  h.sendMlm

theorem ContextsNamed.mlmFault {m : Nat} {x : Pkt} {ptype : Nat} (h : ContextsNamed s) : ContextsNamed (s.mlmFault m x ptype) :=
  h.bump.answerMlm

theorem ContextsNamed.mlmRead {m : Nat} {x : Pkt} {e : Env} (h : ContextsNamed s) : ContextsNamed (s.mlmRead m x e) :=
  h.noteReads.answerMlm

theorem ContextsNamed.mlmWrite {m : Nat} {x : Pkt} {e : Env} (h : ContextsNamed s) : ContextsNamed (s.mlmWrite m x e) :=
  h.noteTargets.writeAll.answerMlm

theorem ContextsNamed.mlmAtomic {m : Nat} {x : Pkt} {e : Env} (h : ContextsNamed s) : ContextsNamed (s.mlmAtomic m x e) := by
  unfold State.mlmAtomic
  exact (h.noteTargets.foldl fun _ h => .ite h h.writeAll).bump.answerMlm

/-- As for `loadMap`: the split of the address is made opaque. -/
theorem ContextsNamed.mlmCsrRead {m : Nat} {x : Pkt} (h : ContextsNamed s) : ContextsNamed (s.mlmCsrRead m x) := by
  generalize hf : @State.mlmCsrRead = f
  delta State.mlmCsrRead at hf
  generalize @viewOf = view at hf
  subst hf
  beta_reduce
  split
  exact .ite h.deny.answerMlm h.csrRead.answerMlm

/-- As for `mlmCsrRead`. -/
theorem ContextsNamed.mlmCsrWrite {m : Nat} {x : Pkt} {e : Env} (h : ContextsNamed s) : ContextsNamed (s.mlmCsrWrite m x e) := by
  generalize hf : @State.mlmCsrWrite = f
  delta State.mlmCsrWrite at hf
  generalize @viewOf = view at hf
  subst hf
  beta_reduce
  split
  exact .ite h.deny.answerMlm h.csrWrite.answerMlm

theorem ContextsNamed.mlmKex {m : Nat} {x : Pkt} (h : ContextsNamed s) : ContextsNamed (s.mlmKex m x) :=
  .ite h h.frame.openSession.answerMlm.setB

theorem ContextsNamed.holdMlm {m : Nat} {x : Pkt} {e : Env} (h : ContextsNamed s) : ContextsNamed (s.holdMlm m x e) := h.frame

theorem ContextsNamed.mlmServe {m : Nat} {x : Pkt} {e : Env} (h : ContextsNamed s) : ContextsNamed (s.mlmServe m x e) := by
  dsimp only [State.mlmServe]
  refine .ite (.ite h.holdMlm h.mlmKex) (.ite ?_ (.ite h.mlmFault (.ite h.holdMlm ?_)))
  · split
    · exact h.mlmCsrRead
    · exact h.mlmCsrWrite
    · exact h.deny.answerMlm
  · split
    · exact h.mlmRead
    · exact h.mlmWrite
    · exact h.mlmAtomic

theorem ContextsNamed.mlmQueue {m : Nat} {x : Pkt} {e : Env} (h : ContextsNamed s) : ContextsNamed (s.mlmQueue m x e) :=
  .ite h.holdMlm h.mlmServe

theorem ContextsNamed.mlmDrain (h : ContextsNamed s) : ContextsNamed s.mlmDrain := h.frame.foldl fun _ h => h.mlmQueue

theorem ContextsNamed.retryPorts (h : ContextsNamed s) : ContextsNamed s.retryPorts := h.retryHeld.mlmDrain

theorem ContextsNamed.thenRetry {f : State → State} (h : ContextsNamed s) (hf : ∀ {s : State}, ContextsNamed s → ContextsNamed (f s)) :
    ContextsNamed (s.thenRetry f) :=
  .ite (hf h) ((hf h).retryPorts)

theorem ContextsNamed.mlmRequest {m ptype : Nat} {x : Pkt} {e : Env} (h : ContextsNamed s) :
    ContextsNamed (s.mlmRequest m ptype x e) := by
  unfold State.mlmRequest
  extract_lets s1
  have h1 : ContextsNamed s1 := h.drainPkt
  refine .ite h1 (.ite (.ite h1 h1.mlmQueue) ?_)
  split
  · exact h1
  · exact .ite h1 (.ite h1.bump (.ite h1.bump (.ite h1.mlmQueue.dropSession.setB h1.setSession.mlmQueue)))

theorem ContextsNamed.mlmKexHello {m : Nat} {x : Pkt} (h : ContextsNamed s) : ContextsNamed (s.mlmKexHello m x) :=
  .ite h.drainPkt h.drainPkt.mlmServe

/-! ### Debug port and I3C (`Machine/Debug.lean`) -/

theorem ContextsNamed.setIr {code : Nat} (h : ContextsNamed s) : ContextsNamed (s.setIr code) := h.frame

theorem ContextsNamed.csracc {offset : Nat} {write go : Bool} {data : Reg64} (h : ContextsNamed s) :
    ContextsNamed (s.csracc offset write go data) :=
  .ite h.frame (.ite h.setIr.csrWrite.frame h.setIr.csrRead.frame)

theorem ContextsNamed.memacc {addr : Nat} {go : Bool} (h : ContextsNamed s) : ContextsNamed (s.memacc addr go) :=
  .ite h.frame (.ite h.frame (.ite (.ite h.frame h.frame) h.frame))

theorem ContextsNamed.drivePins {code : Nat} {drive : List Bool} (h : ContextsNamed s) : ContextsNamed (s.drivePins code drive) :=
  .ite h.setIr h.frame

theorem ContextsNamed.samplePreload {load : List Bool} (h : ContextsNamed s) : ContextsNamed (s.samplePreload load) := h.frame

theorem ContextsNamed.bypass {code : Nat} (h : ContextsNamed s) : ContextsNamed (s.bypass code) := .ite h h.setIr

theorem ContextsNamed.whenPowered {f : State → State} (h : ContextsNamed s) (hf : ∀ {s : State}, ContextsNamed s → ContextsNamed (f s)) :
    ContextsNamed (s.whenPowered f) :=
  .ite h (hf h)

theorem ContextsNamed.setdasa {static dynamic : Nat} (h : ContextsNamed s) : ContextsNamed (s.setdasa static dynamic) :=
  .ite h.frame h

theorem ContextsNamed.entdaa {dynamic : Nat} (h : ContextsNamed s) : ContextsNamed (s.entdaa dynamic) := .ite h.frame h

theorem ContextsNamed.commonCommand {code : Nat} (h : ContextsNamed s) : ContextsNamed (s.commonCommand code) := by
  dsimp only [State.commonCommand]
  split
  · exact h
  · split
    iterate 9 exact h.frame
    iterate 2 exact h.send
    iterate 4 exact h.free.send
    exact h

theorem ContextsNamed.mctpControl {command eid : Nat} (h : ContextsNamed s) : ContextsNamed (s.mctpControl command eid) := by
  dsimp only [State.mctpControl]
  split
  · exact h
  · split
    · exact h.frame.send
    · exact h.send
    · exact h.free.send
    · exact h.free.send
    · exact h.send
    · exact h.send

theorem ContextsNamed.pldmEffecter {effecter value : Nat} (h : ContextsNamed s) : ContextsNamed (s.pldmEffecter effecter value) :=
  .ite h (.ite h.csrWrite.send h.send)

/-! ### SPDM (`Machine/Attest.lean`) -/

theorem ContextsNamed.spdmSend {body : List Byte} (h : ContextsNamed s) : ContextsNamed (s.spdmSend body) :=
  .ite h.frame.mboxSend h.frame.send

theorem ContextsNamed.spdmError {err data : Nat} (h : ContextsNamed s) : ContextsNamed (s.spdmError err data) := h.spdmSend

theorem ContextsNamed.spdmAnswer {fresh : Bool} {answer : State → State}
    (h : ContextsNamed s) (hf : ∀ {s : State}, ContextsNamed s → ContextsNamed (answer s)) : ContextsNamed (s.spdmAnswer fresh answer) :=
  .ite h (.ite h.bump.spdmError (.ite h.spdmError (hf h)))

theorem ContextsNamed.record {bs : List Byte} (h : ContextsNamed s) : ContextsNamed (s.record bs) := h.frame

theorem ContextsNamed.spdmAfter {ok : Bool} {answer : State → State}
    (h : ContextsNamed s) (hf : ∀ {s : State}, ContextsNamed s → ContextsNamed (answer s)) : ContextsNamed (s.spdmAfter ok answer) :=
  .ite (hf h) h.spdmError

theorem ContextsNamed.getVersion (h : ContextsNamed s) : ContextsNamed s.getVersion := h.spdmAnswer fun h => h.frame.spdmSend

theorem ContextsNamed.getCapabilities (h : ContextsNamed s) : ContextsNamed s.getCapabilities :=
  h.spdmAnswer fun h => h.spdmAfter fun h => h.frame.spdmSend

theorem ContextsNamed.negotiate {asym hash : Nat} (h : ContextsNamed s) : ContextsNamed (s.negotiate asym hash) :=
  h.spdmAnswer fun h => h.spdmAfter fun h => h.frame.spdmSend

theorem ContextsNamed.getDigests (h : ContextsNamed s) : ContextsNamed s.getDigests :=
  h.spdmAnswer fun h => h.spdmAfter fun h => h.record.spdmSend

theorem ContextsNamed.getCertificate {slot offset len : Nat} (h : ContextsNamed s) :
    ContextsNamed (s.getCertificate slot offset len) :=
  h.spdmAnswer fun h => h.spdmAfter fun h => .ite h.spdmError h.record.spdmSend

theorem ContextsNamed.challenge {slot sumKind : Nat} {nonce : List Byte} (h : ContextsNamed s) :
    ContextsNamed (s.challenge slot sumKind nonce) :=
  h.spdmAnswer fun h => h.spdmAfter fun h => .ite h.spdmError (.ite h.spdmError h.frame.spdmSend)

theorem ContextsNamed.getMeasurements {index : Nat} {signed : Bool} {nonce : List Byte} (h : ContextsNamed s) :
    ContextsNamed (s.getMeasurements index signed nonce) :=
  h.spdmAnswer fun h => h.spdmAfter fun h =>
    .ite h.frame.spdmError (.ite h.spdmError (.ite h.spdmError (.ite h.frame.spdmSend h.frame.spdmSend)))

theorem ContextsNamed.spdmUnsupported {code : Nat} (h : ContextsNamed s) : ContextsNamed (s.spdmUnsupported code) :=
  .ite h (h.spdmAnswer fun h => h.spdmError)

/-! ### Guards of the stream rows (`Machine/RowsStream.lean`) -/

theorem ContextsNamed.issueOp {r k q op : Nat} (h : ContextsNamed s) : ContextsNamed (s.issueOp r k q op) := h.issueHead

theorem ContextsNamed.issueSel {r k q op : Nat} {sel : Cmd512 → Nat} {v : Nat} {e : Env} (h : ContextsNamed s) :
    ContextsNamed (s.issueSel r k q op sel v e) :=
  h.issueHead

theorem ContextsNamed.inBeat {r k : Nat} {f : State → State} (h : ContextsNamed s) (hf : ∀ {s : State}, ContextsNamed s → ContextsNamed (f s)) :
    ContextsNamed (s.inBeat r k f) :=
  .ite (hf h) h

theorem ContextsNamed.holdOne {r k : Nat} (h : ContextsNamed s) : ContextsNamed (s.holdOne r k) := by
  dsimp only [State.holdOne]
  split
  · exact .ite h h.beginBeat.descBefore.holdBeat
  · exact h

theorem ContextsNamed.doneOne {r k id : Nat} (h : ContextsNamed s) : ContextsNamed (s.doneOne r k id) := by
  unfold State.doneOne
  split
  · exact h.donePoint
  · exact h

theorem ContextsNamed.regionRuns {r : Nat} {f : State → State} (h : ContextsNamed s) (hf : ∀ {s : State}, ContextsNamed s → ContextsNamed (f s)) :
    ContextsNamed (s.regionRuns r f) :=
  .ite (hf h) h

theorem ContextsNamed.walkOne {r id beats : Nat} {e : Env} (h : ContextsNamed s) : ContextsNamed (s.walkOne r id beats e) := by
  unfold State.walkOne
  split
  · exact h
  · exact .ite h.translate h

theorem ContextsNamed.whenUp {f : State → State} (h : ContextsNamed s) (hf : ∀ {s : State}, ContextsNamed s → ContextsNamed (f s)) :
    ContextsNamed (s.whenUp f) :=
  .ite (hf h) h

/-! ### Guards of the control rows (`Machine/RowsControl.lean`) -/

theorem ContextsNamed.wrReg {p : Party} {a w : Nat} (h : ContextsNamed s) : ContextsNamed (s.wrReg p a w) := h.csrWrite

/-! ### The rows and the step -/

/-- Where an outcome is a next state, the contexts stay named in it. -/
def NamedNext (o : Out) : Prop := ∀ t, o = .next t → ContextsNamed t

theorem NamedNext.next (h : ContextsNamed s) : NamedNext (.next s) := fun _ e => by cases e; exact h

/-- Each row is guarded by its operands' form, and a command whose operands have not that form does nothing. -/
theorem NamedNext.guard {b : Bool} {t : State} (h : ContextsNamed s) (ht : ContextsNamed t) : NamedNext (guard b s (.next t)) := by
  unfold Machine.guard
  split
  · exact .next ht
  · exact .next h

/-- Row by row: what each row does to the state, within the guard of its operands. -/
theorem ContextsNamed.exec (h : ContextsNamed s) (i : Instr) : NamedNext (exec i s) := by
  unfold Machine.exec
  cases i with
  | nop | endq | wait | signal | barrier | stepPoint | evalPoint | evalEnd | mma | distL1 | distL2 | minplus | maxplus | cmpcount | vmap
   | vcvt | vscan | vstat | rmsnorm | vsfu | vchisel | mvcopy | mvset | mvatom | ttin | ttout | descLoad => exact .guard h h.issueOp
  | vcarryStore | vcarryLoad | vredLeaf | vredNode | vredFinal | vredFold | vgrainSetid | vgrainRaw | vgrainUniform | vgrainBernoulli
   | vgrainNormal | mvcollUp | mvcollRecv | mvcollDown | mvcollRdown => exact .guard h h.issueSel
  | seqDoorbell | seqLdoorbell | syncPoke | hltRecover | snapReq | stageGo | abistRerun => exact .guard h h.csrWrite
  | startBeat => exact .guard h (h.inBeat fun h => h.startBeats)
  | queueFetchRequest => exact .guard h (h.inBeat fun h => h.regionRuns fun h => .ite h.fetchReq h)
  | queueFetchComplete => exact .guard h (h.thenRetry fun h => h.queueFetchComplete)
  | clusterBeat => exact .guard h (h.thenRetry fun h => h.clusterBeat)
  | stretchYield => exact .guard h (h.thenRetry fun h => h.inBeat fun h => .ite h.yieldBeat h)
  | holdBeat => exact .guard h (h.thenRetry fun h => h.inBeat fun h => h.holdOne)
  | timedDonePoint => exact .guard h (h.inBeat fun h => h.doneOne)
  | descLoadDone => exact .guard h (h.thenRetry fun h => h.descLoadDone)
  | moverCommandStart => exact .guard h (h.regionRuns fun h => h.moverCommandStart)
  | translationWalk => exact .guard h (h.regionRuns fun h => h.walkOne)
  | admissionAccept => exact .guard h h.admissionAccept
  | moverRequestComplete => exact .guard h (h.thenRetry fun h => h.moverRequestComplete)
  | cxlRequestTimeout => exact .guard h (h.thenRetry fun h => h.cxlTimeout)
  | mlmWindowTimeout => exact .guard h (h.thenRetry fun h => h.mlmTimeout)
  | remoteRequestTimeout => exact .guard h (h.thenRetry fun h => h.remoteTimeout)
  | evalSwitch => exact .guard h (h.inBeat fun h => h.evalSwitch)
  | switchBeat => exact .guard h (h.inBeat fun h => h.switchBeat)
  | stepReturnNoSwitch => exact .guard h (h.inBeat fun h => h.returnNoSwitch)
  | evalReturn => exact .guard h (h.inBeat fun h => h.evalReturn)
  | returnBeat => exact .guard h (h.inBeat fun h => h.returnBeat)
  | incrementVisible => exact .guard h h.incVisible
  | barrierNodeArrival => exact .guard h (h.whenUp fun h => h.nodeArrival)
  | barrierRelease => exact .guard h (h.whenUp fun h => h.barrierRelease)
  | swapBeat => exact .guard h (h.whenUp fun h => h.swapBeat)
  | governorInterval => exact .guard h (h.thenRetry fun h => h.governor)
  | paceMeasurement => exact .guard h h.paceMeasured
  | patinaMonitor => exact .guard h h.patina
  | healthMonitorTick => exact .guard h h.healthTick
  | telemetryUpdate => exact .guard h h.telemetry
  | heartbeat => exact .guard h h.heartbeat
  | sramScrubRead => exact .guard h h.sramScrub
  | patrolScrub => exact .guard h h.patrolScrub
  | hbmRecalibration => exact .guard h (h.thenRetry fun h => h.recalibrate)
  | analogueCheck => exact .guard h h.analogueCheck
  | drbgReseed => exact .guard h h.drbgReseed
  | porstAssert => exact .guard h h.porstAssert
  | porstRelease => exact .guard h h.porstRelease
  | bootReady => exact .guard h h.bootReady
  | vinUndervoltage => exact .guard h h.vinUnder
  | vinOvervoltage => exact .guard h h.vinOver
  | thermalTrip => exact .guard h h.thermalTrip
  | recovEdge => exact .guard h h.recovEdge
  | recoveryComplete => exact .guard h h.recoveryComplete
  | regionReset | dieReset | assign | release | secRotate | scrubGo | memXlateInv | ekbJoin | ekbCtxJobWrite | maqLoad | maqSwap
   | maqDiscard | fwActivate | cfgBootSel | mboxInGo | cfgMboxOutTail | memMlmWin | pwrGovCtrlWrite | ekbGraceWrite | bistReqGo
    | bistReqCancel | hltRetire | registerWrite => exact .guard h h.wrReg
  | dieCoreTimeout => exact .guard h h.dieCoreTimeout
  | sweepPageComplete => exact .guard h (h.whenUp fun h => h.sweepPage)
  | scrubDone => exact .guard h (h.whenUp fun h => h.scrubDone)
  | invalidationComplete => exact .guard h (h.whenUp fun h => h.invComplete)
  | graceExpiry => exact .guard h h.graceExpiry
  | defaultRoutingUpdate => exact .guard h (h.thenRetry fun h => h.routingUpdate)
  | flitReceive => exact .guard h h.flitReceive
  | flitReplay => exact .guard h h.flitReplay
  | linkControlFlit => exact .guard h (h.thenRetry fun h => h.linkControl)
  | portTrainingComplete => exact .guard h (h.thenRetry fun h => h.portTrained)
  | portRetrainTimeout => exact .guard h h.retrainTimeout
  | packetTransit => exact .guard h h.packetTransit
  | rdReq => exact .guard h (h.receive fun h => h.rdReq)
  | rdData | wrCpl | atomCpl | collCpl => exact .guard h (h.receive fun h => h.completion)
  | wr => exact .guard h (h.receive fun h => h.wrReq)
  | atom => exact .guard h (h.receive fun h => h.atomReq)
  | flagInc => exact .guard h (h.receive fun h => h.flagIncReq)
  | barArrive => exact .guard h (h.receive fun h => h.barArrive)
  | barRelease => exact .guard h (h.receive fun h => h.barRelease)
  | collUp | collDown => exact .guard h (h.receive fun h => h.collReq)
  | kexHello => exact .guard h (h.thenRetry fun h => h.receive fun h => h.kexHello)
  | kexReply => exact .guard h (h.thenRetry fun h => h.receive fun h => h.kexReply)
  | recvRightComplete => exact .guard h (h.whenUp fun h => h.recvRight)
  | recvDeadline => exact .guard h (h.whenUp fun h => h.recvDeadline)
  | snapPartCopy => exact .guard h (h.thenRetry fun h => h.whenUp fun h => h.snapPartCopy)
  | maqLoadDone => exact .guard h (h.whenUp fun h => h.maqLoadDone)
  | fwCommit => exact .guard h (h.thenRetry fun h => h.whenUp fun h => h.fwCommit)
  | fwActivateTimeout => exact .guard h (h.whenUp fun h => h.fwTimeout)
  | stageDone => exact .guard h (.ite h.stageDone h)
  | mboxInTaken => exact .guard h (h.whenUp fun h => h.mboxInTaken)
  | mlmRdReq | mlmWr | mlmAtom => exact .guard h h.mlmRequest
  | mlmKexHello => exact .guard h h.mlmKexHello
  | mlmPortRetrain => exact .guard h h.mlmRetrain
  | bistSlice => exact .guard h h.bistSlice
  | csracc => exact .guard h (h.whenPowered fun h => h.csracc)
  | memacc => exact .guard h (h.whenPowered fun h => h.memacc)
  | idcode => exact .guard h (h.whenPowered fun h => h.setIr)
  | extest | extestPulse | extestTrain => exact .guard h (h.whenPowered fun h => h.drivePins)
  | samplePreload => exact .guard h (h.whenPowered fun h => h.samplePreload)
  | bypass => exact .guard h (h.whenPowered fun h => h.bypass)
  | getVersion => exact .guard h h.getVersion
  | getCapabilities => exact .guard h h.getCapabilities
  | negotiateAlgorithms => exact .guard h h.negotiate
  | getDigests => exact .guard h h.getDigests
  | getCertificate => exact .guard h h.getCertificate
  | challenge => exact .guard h h.challenge
  | getMeasurements => exact .guard h h.getMeasurements
  | setdasa => exact .guard h h.setdasa
  | entdaa => exact .guard h h.entdaa
  | pldmEffecterSet => exact .guard h h.pldmEffecter
  | internalResetRelease => exact .guard h h.internalRelease
  | linkGoesDown => exact .guard h h.linkGoesDown
  | cxlEventRecord => exact .guard h h.cxlEvents
  | counterSample => exact .guard h (h.thenRetry fun h => h.counterSample)
  | sliceComplete => exact .guard h (h.thenRetry fun h => h.whenUp fun h => h.sliceComplete)
  | resetComplete => exact .guard h (h.thenRetry fun h => h.whenUp fun h => .ite h.dieResetDone h.regionResetDone)
  | regionLoadsComplete => exact .guard h (h.whenUp fun h => h.regionLoadsDone)
  | spdmUnsupportedRequest => exact .guard h h.spdmUnsupported
  | mctpControlMessage => exact .guard h h.mctpControl
  | mandatoryCommonCommand => exact .guard h h.commonCommand

/-- Settles O60, row by row: a context enters a region by ASSIGN alone, whose field has four bits. -/
theorem ownersStayContexts : Obligations.OwnersStayContexts := by
  unfold Obligations.OwnersStayContexts
  intro s t h _ e
  unfold step at e
  split at e
  · exact NamedNext.next h t e
  · exact ContextsNamed.exec h.frame _ t e

end Sys2Proof.Machine
end

section
/-!
SUPPORT. What a change of registers alone leaves as it was, and rules about lists that later sections share.
-/
namespace Sys2Proof.Machine

/-! ### Rows that answer a next state -/

theorem Completes.of_exec {i : Instr} {s t : State} {P : State → Prop} (h : exec i s = .next t) (hp : P t) : Completes i s P := ⟨t, h, hp⟩

/-! ### Changes of registers alone -/

theorem State.regN_setReg_same (s : State) (a n : Nat) : (s.setReg a (BitVec.ofNat 64 n)).regN a = n % 2 ^ 64 := by
  simp [State.regN]

/-- `t` is `s` but for registers whose offsets meet `K`, and what the counters hide. -/
structure RegsOnly (K : Nat → Prop) (s t : State) : Prop where
  rest : t = { s with regs := t.regs, hidden := t.hidden, counted := t.counted }
  reg  : ∀ a, ¬ K a → t.reg a = s.reg a

namespace RegsOnly
variable {K : Nat → Prop} {s t u : State}

theorem refl (s : State) : RegsOnly K s s := ⟨rfl, fun _ _ => rfl⟩

theorem trans (h : RegsOnly K s t) (h' : RegsOnly K t u) : RegsOnly K s u where
  rest := h'.rest.trans (congrArg (fun v : State => { v with regs := u.regs, hidden := u.hidden, counted := u.counted }) h.rest)
  reg a ha := (h'.reg a ha).trans (h.reg a ha)

theorem mono {K' : Nat → Prop} (h : RegsOnly K s t) (hk : ∀ a, K a → K' a) : RegsOnly K' s t := ⟨h.rest, fun a ha => h.reg a (mt (hk a) ha)⟩

theorem setReg (s : State) {a : Nat} (w : Reg64) (ha : K a) : RegsOnly K s (s.setReg a w) :=
  ⟨rfl, fun _ hb => s.reg_setReg_ne w fun e => hb (e ▸ ha)⟩

theorem bump (s : State) {a : Nat} (n : Nat) (ha : K a) : RegsOnly K s (s.bump a n) where
  rest := by unfold State.bump; split <;> rfl
  reg _ hb := s.reg_bump_ne n fun e => hb (e ▸ ha)

theorem ite {c : Prop} [Decidable c] (ht : RegsOnly K s t) (hu : RegsOnly K s u) : RegsOnly K s (if c then t else u) := by
  split
  · exact ht
  · exact hu

theorem foldl {α : Type} {f : State → α → State} : ∀ (l : List α), (∀ s, ∀ x ∈ l, RegsOnly K s (f s x)) → ∀ s, RegsOnly K s (l.foldl f s)
  | [], _, s => .refl s
  | x :: xs, h, s => (h s x (by simp)).trans (foldl xs (fun s y hy => h s y (by simp [hy])) (f s x))

theorem regN (h : RegsOnly K s t) {a : Nat} (ha : ¬ K a) : t.regN a = s.regN a := congrArg BitVec.toNat (h.reg a ha)
theorem fieldN (h : RegsOnly K s t) {a lo len : Nat} (ha : ¬ K a) : t.fieldN a lo len = s.fieldN a lo len := congrArg (regField · lo len) (h.reg a ha)
theorem bit (h : RegsOnly K s t) {a i : Nat} (ha : ¬ K a) : t.bit a i = s.bit a i := congrArg (fun w => w.toNat.testBit i) (h.reg a ha)
theorem clusters (h : RegsOnly K s t) : t.clusters = s.clusters := (congrArg State.clusters h.rest).trans rfl
theorem regions (h : RegsOnly K s t) : t.regions = s.regions := (congrArg State.regions h.rest).trans rfl
theorem ctxs (h : RegsOnly K s t) : t.ctxs = s.ctxs := (congrArg State.ctxs h.rest).trans rfl
theorem cl (h : RegsOnly K s t) (r k : Nat) : t.cl r k = s.cl r k := (congrArg (fun v => State.cl v r k) h.rest).trans rfl
theorem rg (h : RegsOnly K s t) (r : Nat) : t.rg r = s.rg r := (congrArg (fun v => State.rg v r) h.rest).trans rfl
theorem cx (h : RegsOnly K s t) (c : Nat) : t.cx c = s.cx c := (congrArg (fun v => State.cx v c) h.rest).trans rfl
theorem mem (h : RegsOnly K s t) : t.mem = s.mem := (congrArg State.mem h.rest).trans rfl
theorem gran (h : RegsOnly K s t) : t.gran = s.gran := (congrArg State.gran h.rest).trans rfl
theorem flash (h : RegsOnly K s t) : t.flash = s.flash := (congrArg State.flash h.rest).trans rfl
theorem sameMemory (h : RegsOnly K s t) : SameMemory s t := ⟨fun _ => by rw [h.mem], h.gran, h.flash⟩

end RegsOnly

/-! ### Lists -/

theorem nth_numberFrom {α : Type} (f : Nat → α → α) (d : α) (l : List α) (n i : Nat) :
    nth d (numberFrom f n l) i = if i < l.length then f (n + i) (nth d l i) else d := by
  induction l generalizing n i with
  | nil => cases i <;> rfl
  | cons x xs ih =>
    cases i with
    | zero => simp [numberFrom, nth]
    | succ i => simp [numberFrom, nth, ih, Nat.add_assoc, Nat.add_comm 1]

theorem nth_of_length_le {α : Type} (d : α) (l : List α) (i : Nat) (h : l.length ≤ i) : nth d l i = d := by
  induction l generalizing i with
  | nil => cases i <;> rfl
  | cons x xs ih =>
    cases i with
    | zero => simp at h
    | succ i => exact ih i (by simpa using h)

/-- What a sparse list reads at a key is its default, or one of its entries. -/
theorem Sparse.get_mem {α : Type} (d : α) (m : Sparse α) (a : Nat) : Sparse.get d m a = d ∨ (a, Sparse.get d m a) ∈ m := by
  induction m with
  | nil => exact .inl rfl
  | cons e m ih =>
    obtain ⟨k, v⟩ := e
    unfold Sparse.get
    split
    · next h => exact .inr (h ▸ List.mem_cons_self)
    · split
      · exact .inl rfl
      · exact ih.imp id (List.mem_cons_of_mem _)

end Sys2Proof.Machine
end

section
/-!
SUPPORT. The cap of the governor (R43).
-/
namespace Sys2Proof.Machine

/-! ### The cap (R43) -/

theorem regAt_govCtrl : regAt A.govCtrl = some ⟨0x7FF, 0, 0, false, .status, .gov, .module⟩ := by decide

theorem clampCap_eq (v : Nat) : clampCap v = max 600 (min 1600 v) := by
  unfold clampCap
  split_ifs <;> omega

/-- R43: a write that reaches PWR_GOV_CTRL stores its low eleven bits, clamped. -/
theorem State.csrWrite_govCtrl {s : State} {p : Party} {d : RegDef} {w : Nat} (h : Reaches s p A.govCtrl d w) (x : WriteEnv) :
    s.csrWrite p A.govCtrl w x = s.setReg A.govCtrl (BitVec.ofNat 64 (max 600 (min 1600 (w % 2048)))) := by
  obtain ⟨ho, hv, hs, hd, hg, hm⟩ := h
  obtain rfl : d = _ := Option.some.inj (hd.symm.trans regAt_govCtrl)
  have hf : field w 0 11 = w % 2048 := by simp [field]
  rw [State.csrWrite_reaches x ho hv hs hd hg hm, ← clampCap_eq, ← hf]
  have hr : refusedActivating A.govCtrl = false := by decide
  have ha : s.writeAction p A.govCtrl ⟨0x7FF, 0, 0, false, .status, .gov, .module⟩ w x
      = s.setReg A.govCtrl (BitVec.ofNat 64 (clampCap (field w 0 11))) := rfl
  unfold State.writeEffect
  rw [hr, ha]
  simp

theorem exec_pwrGovCtrlWrite {p : Party} {cap : Nat} (s : State) (hw : Instr.wf (.pwrGovCtrlWrite p cap) = true) :
    exec (.pwrGovCtrlWrite p cap) s = .next (s.csrWrite p A.govCtrl (cap % 2048) WriteEnv.none) := if_pos hw

/-- Settles O23: either row comes to the same write of PWR_GOV_CTRL. -/
theorem powerCapIsClamped : Obligations.PowerCapIsClamped := by
  refine ⟨rfl, by decide +kernel, fun s p cap w d => ⟨fun hw hc hr => ?_, fun hw hr => ?_⟩⟩
  · rw [← Nat.mod_eq_of_lt hc] at hr
    refine .of_exec (exec_pwrGovCtrlWrite s hw) ?_
    rw [State.csrWrite_govCtrl hr]
    refine ⟨?_, fun b hb => s.reg_setReg_ne _ hb, rfl, fun _ => rfl, rfl, rfl⟩
    rw [State.regN_setReg_same]
    omega
  · refine .of_exec (exec_registerWrite s hw) ?_
    rw [State.csrWrite_govCtrl hr, State.regN_setReg_same]
    omega

end Sys2Proof.Machine
end

section
/-!
SUPPORT. Intervals of the governor (R39 to R44), pace windows and telemetry (R38, R45, R463, R487).
-/
namespace Sys2Proof.Machine

/-! ### Paces of a die (R38, R45) -/

/-- What the paces of a die are read from stays the same. -/
theorem State.diePaces_congr {s t : State} {d : Nat} (hd : d < 4) (hs : ∀ r, r < 48 → t.reg (A.regionShape r) = s.reg (A.regionShape r))
    (hp : ∀ r k, r < 48 → k < 9 → t.reg (A.pace r k) = s.reg (A.pace r k)) (hc : ∀ r k, t.cl r k = s.cl r k) : t.diePaces d = s.diePaces d := by
  have hin : ∀ r k, r < 48 → t.inService r k = s.inService r k := fun r k hr => by simp only [State.inService, State.bit, hs r hr, hc]
  have hcl : t.dieClusters d = s.dieClusters d := by
    refine List.flatMap_congr fun i hi => ?_
    rw [List.filter_congr fun k _ => hin (12 * d + i) k (by have := List.mem_range.1 hi; omega)]
  have hm : ∀ p ∈ s.dieClusters d, p.1 < 48 ∧ p.2 < 9 := by
    intro p h
    simp only [State.dieClusters, List.mem_flatMap, List.mem_map, List.mem_filter, List.mem_range] at h
    obtain ⟨i, hi, k, ⟨hk, -⟩, rfl⟩ := h
    exact ⟨by omega, hk⟩
  have hn : ∀ p ∈ s.dieClusters d, t.regN (A.pace p.1 p.2) = s.regN (A.pace p.1 p.2) := fun p h =>
    congrArg BitVec.toNat (hp p.1 p.2 (hm p h).1 (hm p h).2)
  rw [State.diePaces, hcl, List.map_congr_left hn, State.diePaces]

/-- R45: showing a die's paces writes its register alone. -/
theorem State.showDie_only (s : State) (d : Nat) : RegsOnly (· = A.diePace d) s (s.showDie d) := .setReg s _ rfl

/-- R45: the lowest pace shown is the lowest measured. -/
theorem State.fieldN_showDie (s : State) (d : Nat) : (s.showDie d).fieldN (A.diePace d) 0 16 = (minOf (s.diePaces d)).getD 0 % 65536 := by
  have hlow : ∀ m x v : Nat, m < 65536 → (m + x * 65536 + v * 2 ^ 32) % 2 ^ 64 % 2 ^ 16 = m := by omega
  simp only [State.showDie, State.fieldN, State.reg_setReg_same, regField, field, BitVec.toNat_ofNat, Nat.shiftRight_zero]
  exact hlow _ _ _ (Nat.mod_lt _ (by norm_num))

/-! ### The governor's one action (R39, R42) -/

theorem State.nth_moveRails (s : State) (which : Nat → Bool) (f : Nat → Nat) (d : Nat) (hd : d < s.rails.length) :
    nth 0 (s.moveRails which f).rails d = if which d then f (nth 0 s.rails d) else nth 0 s.rails d := by
  simp only [State.moveRails, nth_numberFrom, if_pos hd, Nat.zero_add]

/-- A move of the rails that meet a condition takes no rail further than a move of the setpoint alone would. -/
theorem State.moveRails_near (s : State) {which : Nat → Bool} {f : Nat → Nat}
    (h : ∀ d, which d = true → f (nth 0 s.rails d) ≤ nth 0 s.rails d + 5 ∧ nth 0 s.rails d ≤ f (nth 0 s.rails d) + 5) (d : Nat) :
    nth 0 (s.moveRails which f).rails d ≤ nth 0 s.rails d + 5 ∧ nth 0 s.rails d ≤ nth 0 (s.moveRails which f).rails d + 5 := by
  by_cases hd : d < s.rails.length
  · rw [State.nth_moveRails s which f d hd]
    split
    · exact h d ‹_›
    · omega
  · have hm : nth 0 (s.moveRails which f).rails d = 0 := by simp [State.moveRails, nth_numberFrom, hd]
    rw [hm, nth_of_length_le 0 s.rails d (by omega)]
    omega

/-- R39: an interval takes one of three actions, or none. -/
theorem State.governorAct_cases (s : State) (power : Nat) :
    s.governorAct power = s ∨ s.governorAct power = s.admLower ∨ (s.admDown ≠ 0 ∧ s.governorAct power = { s with admDown := s.admDown - 1 })
      ∨ ∃ which f, s.governorAct power = s.moveRails which f
          ∧ ∀ d, which d = true → f (nth 0 s.rails d) ≤ nth 0 s.rails d + 5 ∧ nth 0 s.rails d ≤ f (nth 0 s.rails d) + 5 := by
  unfold State.governorAct
  extract_lets cap pace low high rail dies under
  split
  · exact .inr (.inl rfl)
  split
  · refine .inr (.inr (.inr ⟨_, _, rfl, fun d h => ?_⟩))
    simp only [rail, Bool.and_eq_true, decide_eq_true_eq] at h
    omega
  split
  · refine .inr (.inr (.inr ⟨_, _, rfl, fun d h => ?_⟩))
    simp only [rail, Bool.and_eq_true, decide_eq_true_eq] at h
    omega
  split
  · exact .inr (.inl rfl)
  split
  · exact .inr (.inr (.inl ⟨‹_ ∧ _›.2, rfl⟩))
  split
  · refine .inr (.inr (.inr ⟨_, _, rfl, fun d h => ?_⟩))
    simp only [rail, decide_eq_true_eq] at h
    omega
  · exact .inl rfl

/-- R39, R42: above the cap, with no die that could slow down by its rail, the action is a step down. -/
theorem State.governorAct_over (s : State) {power : Nat} (hp : s.fieldN A.govCtrl 0 11 < power)
    (hd : ∀ d, d < 4 → nth 0 s.rails d = 640 ∨ ∀ v, minOf (s.diePaces d) = some v → v ≤ 1120) : s.governorAct power = s.admLower := by
  unfold State.governorAct
  extract_lets cap pace low high rail dies under
  have hhigh : ∀ d, d < 4 → rail d = 640 ∨ high d = false := by
    intro d h
    refine (hd d h).imp id fun hv => ?_
    simp only [high, pace]
    split
    · simpa using hv _ ‹_›
    · rfl
  have hnone : dies.any (fun d => high d && 640 < rail d) = false := by
    simp only [List.any_eq_false, dies, List.mem_range, Bool.and_eq_true, decide_eq_true_eq, not_and]
    intro d h hh
    rcases hhigh d h with e | e
    · omega
    · simp [e] at hh
  have hall : dies.all (fun d => !high d || rail d == 640) = true := by
    simp only [List.all_eq_true, dies, List.mem_range, Bool.or_eq_true, beq_iff_eq, Bool.not_eq_true']
    exact fun d h => (hhigh d h).symm
  split
  · rfl
  · rw [if_neg (by omega), hnone, if_neg (by simp), if_pos ⟨hp, hall⟩]

/-- R42: a step down, where one is left, is counted. -/
theorem State.admLower_of_lt (s : State) (h : s.admDown < 24) : s.admLower = { s.bump A.admSteps 1 with admDown := s.admDown + 1 } := if_pos h

theorem State.admLower_of_ge (s : State) (h : ¬ s.admDown < 24) : s.admLower = s := if_neg h

/-- What an action of the governor leaves: registers but the counter of steps, clusters, regions and memory. -/
structure GovernorFrame (s t : State) : Prop where
  reg  : ∀ a, a ≠ A.admSteps → t.reg a = s.reg a
  cl   : ∀ r k, t.cl r k = s.cl r k
  rg   : ∀ r, t.rg r = s.rg r
  kept : SameMemory s t

theorem State.governorAct_frame (s : State) (power : Nat) : GovernorFrame s (s.governorAct power) := by
  rcases s.governorAct_cases power with h | h | ⟨-, h⟩ | ⟨which, f, h, -⟩ <;> rw [h]
  · exact ⟨fun _ _ => rfl, fun _ _ => rfl, fun _ => rfl, fun _ => rfl, rfl, rfl⟩
  · unfold State.admLower
    split
    · exact ⟨fun _ ha => s.reg_bump_ne 1 ha, fun _ _ => s.cl_bump _ _ _ _, fun _ => s.rg_bump _ _ _, fun _ => by simp, by simp, by simp⟩
    · exact ⟨fun _ _ => rfl, fun _ _ => rfl, fun _ => rfl, fun _ => rfl, rfl, rfl⟩
  · exact ⟨fun _ _ => rfl, fun _ _ => rfl, fun _ => rfl, fun _ => rfl, rfl, rfl⟩
  · exact ⟨fun _ _ => rfl, fun _ _ => rfl, fun _ => rfl, fun _ => rfl, rfl, rfl⟩

/-! ### What an interval shows (R41, R44, R487) -/

/-- PWR_GOV_STATUS and the peak, with the dies' registers, which an interval shows. -/
def GovernorShows (a : Nat) : Prop := a = A.govStatus ∨ a = A.pwrPeak ∨ ∃ d, d < 4 ∧ a = A.diePace d

theorem State.floorCheck_only (s : State) (x : Readings) : RegsOnly GovernorShows s (s.floorCheck x) :=
  .ite (.setReg s _ (.inl rfl)) (.refl s)

/-- R41: FLOOR_LOST. -/
theorem State.floorCheck_bit (s : State) {x : Readings} (h : x.vin < 54000 ∨ 63000 < x.vin ∨ ∃ j ∈ x.temps, 105 < j) :
    (s.floorCheck x).bit A.govStatus 9 = true := by
  have hc : (x.temps.any (fun t => 105 < t) || x.vin < 54000 || 63000 < x.vin) = true := by
    simp only [Bool.or_eq_true, List.any_eq_true, decide_eq_true_eq, or_assoc]
    exact h.elim (.inr ∘ .inl) (Or.elim · (.inr ∘ .inr) .inl)
  rw [State.floorCheck, if_pos hc, State.setB_eq, State.bit, State.reg_setReg_same, setBit_testBit _ 9 true (by norm_num)]

/-- What an interval shows once its action is taken. -/
def State.governorShow (s : State) (peak : Nat) : State := (List.range 4).foldl State.showDie (s.showGov.notePeak peak)

theorem State.governor_eq (s : State) (x : Readings) (h : s.up = true) :
    s.governor x = ((s.floorCheck x).governorAct x.power).governorShow x.peak := by
  simp only [State.governor, h]
  rfl

theorem State.showDies_only (s : State) : RegsOnly (fun a => ∃ d, d < 4 ∧ a = A.diePace d) s ((List.range 4).foldl State.showDie s) :=
  .foldl _ (fun s d hd => (s.showDie_only d).mono fun _ ha => ⟨d, List.mem_range.1 hd, ha⟩) s

theorem State.governorShow_only (s : State) (peak : Nat) : RegsOnly GovernorShows s (s.governorShow peak) :=
  ((RegsOnly.setReg s _ (.inl rfl)).trans (.setReg _ _ (.inr (.inl rfl)))).trans ((State.showDies_only _).mono fun _ h => .inr (.inr h))

theorem A.diePace_ne {a d : Nat} (h : a < 0x10040 ∨ 0x10060 ≤ a) (hd : d < 4) : a ≠ A.diePace d := by unfold A.diePace A.pwr; omega

theorem State.governorShow_floor (s : State) (peak : Nat) : (s.governorShow peak).bit A.govStatus 9 = s.bit A.govStatus 9 := by
  have hd := (State.showDies_only (s.showGov.notePeak peak)).bit (a := A.govStatus) (i := 9)
    fun ⟨d, hd, e⟩ => A.diePace_ne (by decide) hd e
  rw [State.governorShow, hd, State.notePeak, State.bit, State.reg_setReg_ne _ _ (by decide), State.showGov, State.setFld_eq,
    State.reg_setReg_same, setField_testBit, if_neg (by omega)]
  rfl

theorem State.regN_notePeak (s : State) (w : Nat) : (s.notePeak w).regN A.pwrPeak = max (s.regN A.pwrPeak) (min w 4095) := by
  rw [State.notePeak, State.regN_setReg_same, Nat.mod_eq_of_lt]
  have := (s.reg A.pwrPeak).isLt
  unfold State.regN
  omega

theorem State.governorShow_peak (s : State) (peak : Nat) : (s.governorShow peak).regN A.pwrPeak = max (s.regN A.pwrPeak) (min peak 4095) := by
  have hd := (State.showDies_only (s.showGov.notePeak peak)).regN (a := A.pwrPeak) fun ⟨d, hd, e⟩ => A.diePace_ne (by decide) hd e
  have hg : s.showGov.regN A.pwrPeak = s.regN A.pwrPeak := congrArg BitVec.toNat (s.reg_setReg_ne _ (by decide))
  rw [State.governorShow, hd, State.regN_notePeak, hg]

theorem State.thenRetry_of_idle {s : State} (h : s.portsIdle = true) (f : State → State) : s.thenRetry f = f s := if_pos h

/-- R39, R42: the action of an interval, and its count. -/
theorem State.governorAct_one (s : State) (power : Nat) :
    (s.governorAct power).admDown = s.admDown ∨ (s.governorAct power).rails = s.rails ∧ (s.governorAct power).admDown + 1 = s.admDown
      ∨ (s.governorAct power).rails = s.rails ∧ (s.governorAct power).admDown = s.admDown + 1 ∧ (s.governorAct power).admDown ≤ 24
          ∧ (s.governorAct power).reg A.admSteps = BitVec.ofNat 64 (satAdd 48 (s.regN A.admSteps) 1) := by
  rcases s.governorAct_cases power with h | h | ⟨hn, h⟩ | ⟨which, f, h, -⟩ <;> rw [h]
  · exact .inl rfl
  · by_cases hl : s.admDown < 24
    · refine .inr (.inr ?_)
      rw [s.admLower_of_lt hl]
      exact ⟨s.bump_rails _ _, rfl, by show s.admDown + 1 ≤ 24; omega, (s.reg_bump _ _ _).trans (by simp)⟩
    · rw [s.admLower_of_ge hl]
      exact .inl rfl
  · exact .inr (.inl ⟨rfl, by show s.admDown - 1 + 1 = _; omega⟩)
  · exact .inl rfl

theorem State.governorAct_near (s : State) (power d : Nat) :
    nth 0 (s.governorAct power).rails d ≤ nth 0 s.rails d + 5 ∧ nth 0 s.rails d ≤ nth 0 (s.governorAct power).rails d + 5 := by
  rcases s.governorAct_cases power with h | h | ⟨-, h⟩ | ⟨which, f, h, hf⟩ <;> rw [h]
  · omega
  · have : s.admLower.rails = s.rails := by unfold State.admLower; split <;> simp
    rw [this]
    omega
  · exact ⟨Nat.le_add_right _ _, Nat.le_add_right _ _⟩
  · exact s.moveRails_near hf d

theorem exec_governorInterval {x : Readings} (s : State) (h : s.portsIdle = true) : exec (.governorInterval x) s = .next (s.governor x) :=
  congrArg Host.Outcome.next (State.thenRetry_of_idle h _)

/-- The counter of steps, the cap and what paces are read from are not among what an interval shows. -/
theorem not_governorShows {a : Nat} (h : a < 0x10008 ∨ 0x10010 = a ∨ 0x12000 ≤ a) : ¬ GovernorShows a := by
  rintro (e | e | ⟨d, hd, e⟩)
  · have : A.govStatus = 0x10008 := rfl
    omega
  · have : A.pwrPeak = 0x10088 := rfl
    omega
  · exact A.diePace_ne (by omega) hd e

theorem A.regionShape_lt {r : Nat} (h : r < 48) : A.regionShape r < 0x10000 := by unfold A.regionShape A.cfg; omega

theorem A.pace_ge (r k : Nat) : 0x1000000 ≤ A.pace r k := by unfold A.pace A.seq A.cl A.rtr; omega

theorem State.diePaces_floorCheck (s : State) (x : Readings) {d : Nat} (hd : d < 4) : (s.floorCheck x).diePaces d = s.diePaces d :=
  have h := s.floorCheck_only x
  State.diePaces_congr hd (fun r hr => h.reg _ (not_governorShows (.inl (by have := A.regionShape_lt hr; omega))))
    (fun r k _ _ => h.reg _ (not_governorShows (.inr (.inr (by have := A.pace_ge r k; omega))))) h.cl

/-- Settles O30: the checks before the action and what is shown after it touch neither the rails nor the admission steps. -/
theorem governorTakesOneAction : Obligations.GovernorTakesOneAction := by
  intro s x hup hidle
  refine .of_exec (exec_governorInterval s hidle) ?_
  rw [s.governor_eq x hup]
  have hpre := s.floorCheck_only x
  have hpost := ((s.floorCheck x).governorAct x.power).governorShow_only x.peak
  have hact := (s.floorCheck x).governorAct_frame x.power
  have hone := (s.floorCheck x).governorAct_one x.power
  have hnear := (s.floorCheck x).governorAct_near x.power
  have hr : (s.floorCheck x).rails = s.rails := (congrArg State.rails hpre.rest).trans rfl
  have ha : (s.floorCheck x).admDown = s.admDown := (congrArg State.admDown hpre.rest).trans rfl
  have hr' := (congrArg State.rails hpost.rest).trans rfl
  have ha' := (congrArg State.admDown hpost.rest).trans rfl
  have hcnt : ¬ GovernorShows A.admSteps := not_governorShows (.inr (.inl rfl))
  refine ⟨?_, ?_, fun hcap hlt hd => ?_, fun hfl => ?_, ?_, fun r k => ?_, fun r => ?_, ?_⟩
  · rwa [hr', ha', hpost.reg _ hcnt, ← hr, ← ha, ← hpre.regN hcnt]
  · rwa [hr', ← hr]
  · have hcap' : (s.floorCheck x).fieldN A.govCtrl 0 11 < x.power := by rwa [hpre.fieldN (not_governorShows (.inl (by decide)))]
    rw [ha', State.governorAct_over _ hcap' fun d h => by rw [hr, s.diePaces_floorCheck x h]; exact hd d h,
      State.admLower_of_lt _ (by rwa [ha]), ha]
  · rw [State.governorShow_floor, State.bit, hact.reg _ (by decide)]
    exact s.floorCheck_bit hfl
  · have hp : (s.floorCheck x).regN A.pwrPeak = s.regN A.pwrPeak := by
      unfold State.floorCheck
      split
      · exact congrArg BitVec.toNat (s.reg_setReg_ne _ (by decide))
      · rfl
    rw [State.governorShow_peak, State.regN, hact.reg _ (by decide)]
    exact congrArg (max · _) hp
  · rw [hpost.cl, hact.cl, hpre.cl]
  · rw [hpost.rg, hact.rg, hpre.rg]
  · obtain ⟨hm, hg, hf⟩ := hact.kept
    exact ⟨fun a => by rw [hpost.mem, hm, hpre.mem], by rw [hpost.gran, hg, hpre.gran], by rw [hpost.flash, hf, hpre.flash]⟩

end Sys2Proof.Machine
end

section
/-!
SUPPORT. Pace windows and telemetry (R38, R45, R463, R487).
-/
namespace Sys2Proof.Machine

/-! ### Pace windows (R38) -/

theorem exec_paceMeasurement {r k : Nat} (pace : Nat) (s : State) (hr : r < 48) (hk : k < 9) :
    exec (.paceMeasurement r k pace) s = .next (s.paceMeasured r k pace) :=
  if_pos (show Instr.wf (.paceMeasurement r k pace) = true by simp [Instr.wf, hr, hk])

theorem A.pace_ne_diePace {r k d : Nat} (hd : d < 4) : A.pace r k ≠ A.diePace d := A.diePace_ne (.inr (by have := A.pace_ge r k; omega)) hd

/-- Paces of a die do not depend on what PWR_DIE_PACE shows. -/
theorem State.diePaces_showDie (s : State) {d : Nat} (hd : d < 4) : (s.showDie d).diePaces d = s.diePaces d :=
  have h := s.showDie_only d
  State.diePaces_congr hd (fun r hr => h.reg _ (A.diePace_ne (.inl (by have := A.regionShape_lt hr; omega)) hd))
    (fun r k _ _ => h.reg _ (A.pace_ne_diePace hd)) h.cl

theorem dieOf_lt {r : Nat} (h : r < 48) : dieOf r < 4 := by unfold dieOf; omega

/-! ### Readings in their registers (R487) -/

/-- A byte that holds an integer of eight bits reads as it. -/
theorem signed_toBits {z : Int} (h : -128 ≤ z) (h' : z < 128) : signed 8 (toBits 8 z) = z := by
  have hlt : toBits 8 z < 256 := by unfold toBits; omega
  have hsign : (toBits 8 z).testBit 7 = true ↔ 128 ≤ toBits 8 z := by rw [Nat.testBit_eq_decide_div_mod_eq, decide_eq_true_eq]; omega
  unfold signed
  simp only [Nat.mod_eq_of_lt (show toBits 8 z < 2 ^ 8 from hlt), Nat.add_one_sub_one, hsign]
  unfold toBits
  split <;> omega

theorem toBits_lt (z : Int) : toBits 8 z < 256 := by unfold toBits; omega

/-- Five bytes side by side, read one at a time. -/
theorem byte_of_packed (b : Nat → Nat) (hb : ∀ i, b i < 256) (h : Nat) {i : Nat} (hi : i < 5) :
    field ((b 0 + (b 1 * 2 ^ 8 + (b 2 * 2 ^ 16 + (b 3 * 2 ^ 24 + b 4 * 2 ^ 32))) + h * 2 ^ 40) % 2 ^ 64) (8 * i) 8 = b i := by
  have h0 := hb 0
  have h1 := hb 1
  have h2 := hb 2
  have h3 := hb 3
  have h4 := hb 4
  have : i = 0 ∨ i = 1 ∨ i = 2 ∨ i = 3 ∨ i = 4 := by omega
  rcases this with rfl | rfl | rfl | rfl | rfl <;> simp only [field, Nat.shiftRight_eq_div_pow] <;> omega

/-- What PWR_TEMP packs of five temperatures. -/
def packTemps (ts : List Int) : Nat := sumNat (numberFrom (fun i t => toBits 8 t * 2 ^ (8 * i)) 0 ts)

/-- The byte of a temperature, 0 where none is read. -/
def tempByte (ts : List Int) (i : Nat) : Nat := (ts[i]?.map (toBits 8)).getD 0

theorem tempByte_lt (ts : List Int) (i : Nat) : tempByte ts i < 256 := by
  unfold tempByte
  cases ts[i]? with
  | none => exact Nat.zero_lt_succ _
  | some z => exact toBits_lt z

theorem packTemps_take (ts : List Int) : packTemps (ts.take 5)
    = tempByte ts 0 + (tempByte ts 1 * 2 ^ 8 + (tempByte ts 2 * 2 ^ 16 + (tempByte ts 3 * 2 ^ 24 + tempByte ts 4 * 2 ^ 32))) := by
  rcases ts with _ | ⟨a, _ | ⟨b, _ | ⟨c, _ | ⟨d, _ | ⟨e, ts⟩⟩⟩⟩⟩ <;> simp [packTemps, numberFrom, sumNat, tempByte]

/-! ### Telemetry -/

theorem exec_telemetryUpdate (x : Readings) (s : State) : exec (.telemetryUpdate x) s = .next (s.telemetry x) := rfl

/-- R487: the input's power, voltage and current, side by side. -/
def inputWord (x : Readings) : Reg64 := BitVec.ofNat 64 (min x.power 4095 + min x.vin 65535 * 2 ^ 12 + min x.iin 65535 * 2 ^ 28)

/-- R487: the temperatures of the five dies and of the hottest stack, side by side. -/
def tempWord (x : Readings) : Reg64 := BitVec.ofNat 64 (packTemps (x.temps.take 5) + toBits 8 x.hbm * 2 ^ 40)

theorem State.telemetry_eq (s : State) (x : Readings) (h : s.up = true) :
    s.telemetry x = (((({ s with sensors := s.sensorsNow x }.setReg A.pwrIn (inputWord x)).setReg A.pwrTemp (tempWord x)).bump A.energy x.energy).notePeak
      x.peak) := by
  unfold State.telemetry
  rw [h]
  rfl

theorem inputWord_power (x : Readings) : regField (inputWord x) 0 12 = min x.power 4095 := by
  simp only [regField, inputWord, field, BitVec.toNat_ofNat, Nat.shiftRight_eq_div_pow]
  omega

theorem inputWord_voltage (x : Readings) : regField (inputWord x) 12 16 = min x.vin 65535 := by
  simp only [regField, inputWord, field, BitVec.toNat_ofNat, Nat.shiftRight_eq_div_pow]
  omega

theorem tempWord_byte (x : Readings) {i : Nat} {j : Int} (hi : i < 5) (hj : x.temps[i]? = some j) : regField (tempWord x) (8 * i) 8 = toBits 8 j := by
  rw [regField, tempWord, BitVec.toNat_ofNat, packTemps_take, byte_of_packed (tempByte x.temps) (tempByte_lt x.temps) _ hi, tempByte, hj]
  rfl

/-- What a register of the measurement reads after the update: the last write of it. -/
theorem State.reg_telemetry (s : State) (x : Readings) (h : s.up = true) {a : Nat} (ha : a ≠ A.pwrPeak) :
    (s.telemetry x).reg a = if a = A.energy ∧ x.energy ≠ 0 then BitVec.ofNat 64 (satAdd 48 (s.regN A.energy) x.energy)
      else if a = A.pwrTemp then tempWord x else if a = A.pwrIn then inputWord x else s.reg a := by
  rw [s.telemetry_eq x h, State.notePeak, State.reg_setReg_ne _ _ ha, State.reg_bump, State.regN, State.reg_setReg_ne _ _ (by decide),
    State.reg_setReg_ne _ _ (by decide), State.reg_setReg, State.reg_setReg]
  rfl

theorem State.telemetry_peak (s : State) (x : Readings) (h : s.up = true) :
    (s.telemetry x).regN A.pwrPeak = max (s.regN A.pwrPeak) (min x.peak 4095) := by
  rw [s.telemetry_eq x h, State.regN_notePeak, State.regN, State.reg_bump_ne _ _ (by decide), State.reg_setReg_ne _ _ (by decide),
    State.reg_setReg_ne _ _ (by decide)]
  rfl

/-- Settles O31: each measurement writes its own registers. -/
theorem measurementsAreShown : Obligations.MeasurementsAreShown := by
  refine fun s hup => ⟨fun r k pace hr hk hin => ?_, fun x hx => ?_⟩
  · refine .of_exec (exec_paceMeasurement pace s hr hk) ?_
    have hd := dieOf_lt hr
    have ht : s.paceMeasured r k pace
        = (s.setReg (A.pace r k) (BitVec.ofNat 64 (min (pace - s.fieldN (A.hltCluster (9 * r + k)) 16 8) 65535))).showDie (dieOf r) := by
      simp [State.paceMeasured, hup, hin]
    rw [ht]
    have hshow := State.showDie_only (s.setReg (A.pace r k) (BitVec.ofNat 64 (min (pace - s.fieldN (A.hltCluster (9 * r + k)) 16 8) 65535))) (dieOf r)
    refine ⟨?_, ?_, fun a ha hne => ?_, hshow.cl, hshow.sameMemory⟩
    · rw [hshow.regN (A.pace_ne_diePace hd), State.regN_setReg_same]
      omega
    · rw [State.diePaces_showDie _ hd, State.fieldN_showDie]
    · rw [hshow.reg a hne, State.reg_setReg_ne _ _ ha]
  · refine .of_exec (exec_telemetryUpdate x s) ⟨?_, ?_, fun i j hi hj hlo hhi => ?_, ?_, s.telemetry_peak x hup, fun a h1 h2 h3 h4 => ?_, ?_, ?_⟩
    · rw [State.fieldN, s.reg_telemetry x hup (by decide)]
      exact inputWord_power x
    · rw [State.fieldN, s.reg_telemetry x hup (by decide)]
      exact inputWord_voltage x
    · have hw : (s.telemetry x).reg A.pwrTemp = tempWord x := s.reg_telemetry x hup (by decide)
      rw [State.fieldN, hw, tempWord_byte x hi hj, signed_toBits hlo hhi]
    · rw [s.reg_telemetry x hup (by decide), if_pos ⟨rfl, hx.ne'⟩]
    · rw [s.reg_telemetry x hup h4, if_neg (fun h => h3 h.1), if_neg h2, if_neg h1]
    · rw [s.telemetry_eq x hup]
      exact fun r k => State.cl_bump _ _ _ _ _
    · rw [s.telemetry_eq x hup]
      exact ⟨fun a => congrArg (Memory.read · a) (State.bump_mem _ _ _), State.bump_gran _ _ _, State.bump_flash _ _ _⟩

end Sys2Proof.Machine
end

section
/-!
SUPPORT. What moving data leaves alone (R251, R266, R270, R310, R499): reads with their errors, writes, and packets that leave.
-/
namespace Sys2Proof.Machine

/-! ### Registers that moving data may write -/

/-- The registers that reads, writes and leaving packets count in. -/
inductive DataReg : Nat → Prop
  | nokey : DataReg A.nokeyReads
  | atomPoison : DataReg A.atomPoison
  | poisonReads (r : Nat) : DataReg (A.poisonReads r)
  | spCe (r : Nat) : DataReg (A.spCe r)
  | spUe (r : Nat) : DataReg (A.spUe r)
  | hbmCe {k : Nat} (h : k < 20) : DataReg (A.hbmCe k)
  | hbmUe {k : Nat} (h : k < 20) : DataReg (A.hbmUe k)
  | hbmPoisonSet {k : Nat} (h : k < 20) : DataReg (A.hbmPoisonSet k)
  | hbmErrAddr {k : Nat} (h : k < 20) : DataReg (A.hbmErrAddr k)
  | cxlPoison (p : Nat) : DataReg (A.cxlPoison p)
  | mlmStatus {m : Nat} (h : m < 2) : DataReg (A.mlmStatus m)
  | txBytes {p : Nat} (h : p < 8) : DataReg (A.txBytes p)
  | transitFlits {p : Nat} (h : p < 8) : DataReg (A.transitFlits p)

/-- Where these registers lie (R510). -/
theorem DataReg.place {a : Nat} (h : DataReg a) : a = 0x11050 ∨ a = 0x20070 ∨ a = 0x16608 ∨ a = 0x16610 ∨ (0x21000 ≤ a ∧ a < 0x114000)
    ∨ (0x1000000 ≤ a ∧ (a % 0x1000 = 0x28 ∨ a % 0x1000 = 0x30 ∨ a % 0x1000 = 0x38))
    ∨ (0x100000000 ≤ a ∧ a % 0x1000 = 0x20) := by
  cases h with
  | nokey => exact .inl rfl
  | atomPoison => exact .inr (.inl rfl)
  | poisonReads r | spCe r | spUe r => simp only [A.poisonReads, A.spCe, A.spUe, A.rtr]; omega
  | hbmCe h | hbmUe h | hbmPoisonSet h | hbmErrAddr h => simp only [A.hbmCe, A.hbmUe, A.hbmPoisonSet, A.hbmErrAddr, A.hbm]; omega
  | cxlPoison p => simp only [A.cxlPoison, A.cxl]; omega
  | mlmStatus h => simp only [A.mlmStatus, A.mem]; omega
  | txBytes h | transitFlits h => simp only [A.txBytes, A.transitFlits, A.ekb]; omega

/-! ### The frame -/

/-- `t` is `s` after data has moved: memory, links, sessions, messages that leave, counters of errors and free draws apart, nothing changed. -/
structure DataStep (s t : State) : Prop where
  rest : t = { s with
    mem := t.mem, gran := t.gran, regs := t.regs, hidden := t.hidden, counted := t.counted, links := t.links, outbox := t.outbox
    sessions := t.sessions, health := t.health, freeCtr := t.freeCtr }
  reg : ∀ a, ¬ DataReg a → t.reg a = s.reg a

namespace DataStep
variable {s t u : State}

theorem refl (s : State) : DataStep s s := ⟨rfl, fun _ _ => rfl⟩

theorem trans (h : DataStep s t) (h' : DataStep t u) : DataStep s u where
  rest := h'.rest.trans (congrArg (fun v : State => { v with
    mem := u.mem, gran := u.gran, regs := u.regs, hidden := u.hidden, counted := u.counted, links := u.links, outbox := u.outbox
    sessions := u.sessions, health := u.health, freeCtr := u.freeCtr }) h.rest)
  reg a ha := (h'.reg a ha).trans (h.reg a ha)

theorem ite {c : Prop} [Decidable c] (ht : DataStep s t) (hu : DataStep s u) : DataStep s (if c then t else u) := by
  split
  · exact ht
  · exact hu

theorem foldl {α : Type} {f : State → α → State} : ∀ (l : List α), (∀ s, ∀ x ∈ l, DataStep s (f s x)) → ∀ s, DataStep s (l.foldl f s)
  | [], _, s => .refl s
  | x :: xs, h, s => (h s x (by simp)).trans (foldl xs (fun s y hy => h s y (by simp [hy])) (f s x))

theorem regsOnly (h : RegsOnly DataReg s t) : DataStep s t where
  rest := by
    obtain ⟨hr, -⟩ := h
    rw [hr]
  reg := h.reg

theorem bump (s : State) {a : Nat} (n : Nat) (ha : DataReg a) : DataStep s (s.bump a n) := regsOnly (.bump s n ha)
theorem setReg (s : State) {a : Nat} (w : Reg64) (ha : DataReg a) : DataStep s (s.setReg a w) := regsOnly (.setReg s w ha)

theorem bumpUnits (s : State) {a : Nat} (n : Nat) (ha : DataReg a) : DataStep s (s.bumpUnits a n) where
  rest := by unfold State.bumpUnits; split <;> rfl
  reg _ hb := s.reg_bumpUnits_ne n fun e => hb (e ▸ ha)

theorem regN (h : DataStep s t) {a : Nat} (ha : ¬ DataReg a) : t.regN a = s.regN a := congrArg BitVec.toNat (h.reg a ha)
theorem fieldN (h : DataStep s t) {a lo len : Nat} (ha : ¬ DataReg a) : t.fieldN a lo len = s.fieldN a lo len := congrArg (regField · lo len) (h.reg a ha)
theorem bit (h : DataStep s t) {a i : Nat} (ha : ¬ DataReg a) : t.bit a i = s.bit a i := congrArg (fun w => w.toNat.testBit i) (h.reg a ha)
theorem clusters (h : DataStep s t) : t.clusters = s.clusters := (congrArg State.clusters h.rest).trans rfl
theorem regions (h : DataStep s t) : t.regions = s.regions := (congrArg State.regions h.rest).trans rfl
theorem ctxs (h : DataStep s t) : t.ctxs = s.ctxs := (congrArg State.ctxs h.rest).trans rfl
theorem sent (h : DataStep s t) : t.sent = s.sent := (congrArg State.sent h.rest).trans rfl
theorem cl (h : DataStep s t) (r k : Nat) : t.cl r k = s.cl r k := (congrArg (fun v => State.cl v r k) h.rest).trans rfl
theorem rg (h : DataStep s t) (r : Nat) : t.rg r = s.rg r := (congrArg (fun v => State.rg v r) h.rest).trans rfl
theorem cx (h : DataStep s t) (c : Nat) : t.cx c = s.cx c := (congrArg (fun v => State.cx v c) h.rest).trans rfl
theorem flash (h : DataStep s t) : t.flash = s.flash := (congrArg State.flash h.rest).trans rfl

end DataStep

/-! ### Errors that reads meet (R251, R266, R270) -/

theorem stackOf_lt {a : Nat} (h : isHbm a = true) (span gran : Nat) : stackOf span gran a < 20 := by
  have ha : a < 0x00F000000000 := of_decide_eq_true h
  unfold stackOf
  dsimp only
  split <;> omega

theorem State.stack_lt (s : State) {a : Nat} (h : isHbm a = true) : s.stack a < 20 := stackOf_lt h _ _

theorem State.setGran_data (s : State) (a : Nat) (g : Gran) : DataStep s (s.setGran a g) := ⟨rfl, fun _ _ => rfl⟩
theorem State.tallyCe_data (s : State) (n : Nat) : DataStep s (s.tallyCe n) := ⟨rfl, fun _ _ => rfl⟩
theorem State.tallyUe_data (s : State) (n : Nat) : DataStep s (s.tallyUe n) := ⟨rfl, fun _ _ => rfl⟩
theorem State.scramble_data (s : State) (a n : Nat) : DataStep s (s.scramble a n) := ⟨rfl, fun _ _ => rfl⟩

theorem State.noteUe_data (s : State) (g : Nat) : DataStep s (s.noteUe g) := by
  unfold State.noteUe
  refine .ite (.refl s) ?_
  have h0 := s.setGran_data g { s.granAt g with poison := true }
  extract_lets
  split
  · have hk := s.stack_lt ‹isHbm g = true›
    exact (((h0.trans (.bump _ 1 (.hbmPoisonSet hk))).trans (.bump _ 1 (.hbmUe hk))).trans (.setReg _ _ (.hbmErrAddr hk))).trans
      (State.tallyUe_data _ 1)
  · exact h0

theorem State.noteGran_data (s : State) (e : Env) (g : Nat) : DataStep s (s.noteGran e g) := by
  unfold State.noteGran
  have h0 : DataStep s (if e.bad.contains g then s.noteUe g else s) := .ite (s.noteUe_data g) (.refl s)
  extract_lets s1
  split
  · have hg : isHbm g = true := by simp_all
    exact (h0.trans (.bump _ 1 (.hbmCe (s1.stack_lt hg)))).trans (State.tallyCe_data _ 1)
  · exact h0

theorem State.noteCxl_data (s : State) (g : Nat) : DataStep s (s.noteCxl g) :=
  .ite ((DataStep.bump s 1 (.cxlPoison _)).trans (State.tallyUe_data _ 1)) (.refl s)

theorem State.noteReads_data (s : State) (r : Option Nat) (e : Env) (ls : List Loc) : DataStep s (s.noteReads r e ls) := by
  unfold State.noteReads
  extract_lets count
  have hcount : ∀ s, DataStep s (count s) := by
    intro s
    cases r with
    | none => exact .refl s
    | some r => exact .bump s 1 (.poisonReads r)
  refine .foldl _ (fun s p _ => .ite (.ite (hcount s) (.refl s)) ?_) s
  have h1 := (s.noteGran_data e p.2).trans (.bump _ (if ((s.noteGran e p.2).readGran p.1.via p.2).nokey then 1 else 0) .nokey)
  exact .ite ((h1.trans (hcount _)).trans (State.noteCxl_data _ _)) h1

theorem State.noteTargets_data (s : State) (always : Bool) (e : Env) (ls : List Loc) : DataStep s (s.noteTargets always e ls) :=
  .foldl _ (fun s g _ => .ite ((s.noteGran_data e g).trans (State.noteCxl_data _ _)) (s.noteGran_data e g)) s

theorem State.chipUe_data (s : State) (w : Nat) : DataStep s (s.chipUe w) :=
  ((DataStep.bump s 1 (.spUe _)).trans (State.tallyUe_data _ 1)).trans (State.scramble_data _ _ _)

theorem State.noteChip_data (s : State) (e : Env) (ls : List Loc) : DataStep s (s.noteChip e ls) :=
  .trans (.foldl _ (fun s _ _ => (DataStep.bump s 1 (.spCe _)).trans (State.tallyCe_data _ 1)) s) (.foldl _ (fun s w _ => s.chipUe_data w) _)

/-! ### Packets that leave (R310, R320, R414, R494) -/

theorem State.setLink_data (s : State) (p : Nat) (l : Link) : DataStep s (s.setLink p l) := ⟨rfl, fun _ _ => rfl⟩

theorem State.countFlit_data (s : State) (p : Nat) (transit : Bool) : DataStep s (s.countFlit p transit) := by
  unfold State.countFlit
  split
  · exact (DataStep.bumpUnits s 242 (.txBytes ‹_›)).trans (.bump _ _ (.transitFlits ‹_›))
  · exact .refl s

theorem State.pump_data (s : State) (p n : Nat) : DataStep s (s.pump p n) := by
  induction n generalizing s with
  | zero => exact .refl s
  | succ n ih =>
    unfold State.pump
    split
    · exact .refl s
    · exact ((s.setLink_data p _).trans (State.countFlit_data _ p _)).trans (ih _)

theorem State.egressPkt_data (s : State) (p : Nat) (key : Option Nat) (x : Pkt) : DataStep s (s.egressPkt p key x) :=
  (s.setLink_data p _).trans (State.pump_data _ p _)

theorem State.send_data (s : State) (m : OutMsg) : DataStep s (s.send m) := ⟨rfl, fun _ _ => rfl⟩
theorem State.setSession_data (s : State) (x : Session) : DataStep s (s.setSession x) := ⟨rfl, fun _ _ => rfl⟩
theorem State.dropSession_data (s : State) (peer : Nat) : DataStep s (s.dropSession peer) := ⟨rfl, fun _ _ => rfl⟩

theorem State.sealPkt_data (s : State) (x : Pkt) : DataStep s (s.sealPkt x).1 := by
  unfold State.sealPkt
  split
  · split
    · exact .refl s
    · exact .ite (s.dropSession_data _) (s.setSession_data _)
  · exact .refl s

theorem State.sendPkt_data (s : State) (x : Pkt) : DataStep s (s.sendPkt x) := by
  unfold State.sendPkt
  refine .ite (.refl s) ?_
  split
  · exact .refl s
  · exact .ite (.refl s) (((s.sealPkt_data _).trans (State.egressPkt_data _ _ _ _)).trans (State.send_data _ _))

theorem State.sendMlm_data (s : State) {m : Nat} (hm : m < 2) (x : Pkt) : DataStep s (s.sendMlm m x) := by
  unfold State.sendMlm
  refine .ite ((s.egressPkt_data _ _ _).trans (State.send_data _ _)) ?_
  split
  · exact .refl s
  · next y _ =>
    have h := (s.egressPkt_data (8 + m) (some y.sendKey) { x with ctr := y.sent }).trans (State.send_data _ (.mlm m { x with ctr := y.sent }))
    exact .ite ((h.trans (State.dropSession_data _ _)).trans (.setReg _ _ (.mlmStatus hm))) (h.trans (State.setSession_data _ _))

/-! ### Writes (R266, R497, R499) -/

theorem State.mlmPort_lt (s : State) (a : Nat) : s.mlmPort a < 2 := by
  unfold State.mlmPort
  dsimp only
  split
  · split <;> omega
  · split <;> omega
  · omega

theorem State.writeChip_data (s : State) (w : Wr) : DataStep s (s.writeChip w) := ⟨rfl, fun _ _ => rfl⟩
theorem State.writeGran_data (s : State) (via : Via) (g : Nat) (ws : List Wr) : DataStep s (s.writeGran via g ws) := ⟨rfl, fun _ _ => rfl⟩

theorem State.writeLocs_data (s : State) (ws : List (Loc × Wr)) : DataStep s (s.writeLocs ws) :=
  .trans (.trans (.foldl _ (fun s _ _ => s.writeChip_data _) s) (.foldl _ (fun s _ _ => s.writeGran_data _ _ _) _))
    (.foldl _ (fun s x _ => s.sendMlm_data (s.mlmPort_lt x.1) _) _)

end Sys2Proof.Machine
end

section
/-!
SUPPORT. Beats of a cluster that pass (R33, R37, R50, R102).
-/
namespace Sys2Proof.Machine

/-! ### What stays within one beat -/

/-- From `b` to `s` no beat of the cluster has passed, and no other cluster has changed. -/
structure InBeat (r k : Nat) (b s : State) : Prop where
  beat    : (s.cl r k).beat = (b.cl r k).beat
  elapsed : (s.cl r k).elapsed = (b.cl r k).elapsed
  other   : ∀ r' k', otherCluster r k r' k' → s.cl r' k' = b.cl r' k'

/-- A change of a cluster that is no change of its beats. -/
def KeepsBeat (f : Cluster → Cluster) : Prop := ∀ c, (f c).beat = c.beat ∧ (f c).elapsed = c.elapsed

section
variable {r k : Nat} {b s t : State}

theorem InBeat.refl (r k : Nat) (s : State) : InBeat r k s s := ⟨rfl, rfl, fun _ _ _ => rfl⟩

theorem InBeat.of_cl (h : InBeat r k b s) (hc : ∀ r' k', t.cl r' k' = s.cl r' k') : InBeat r k b t where
  beat := by rw [hc, h.beat]
  elapsed := by rw [hc, h.elapsed]
  other r' k' ho := by rw [hc, h.other r' k' ho]

theorem InBeat.data (h : InBeat r k b s) (hd : DataStep s t) : InBeat r k b t := h.of_cl hd.cl

theorem InBeat.bump {a n : Nat} (h : InBeat r k b s) : InBeat r k b (s.bump a n) := h.of_cl (s.cl_bump a n)

theorem InBeat.setReg {a : Nat} {w : Reg64} (h : InBeat r k b s) : InBeat r k b (s.setReg a w) := h.of_cl (s.cl_setReg a w)

theorem InBeat.setRg {r' : Nat} {g : Region} (h : InBeat r k b s) : InBeat r k b (s.setRg r' g) := h.of_cl (s.cl_setRg r' g)

theorem InBeat.modCl {f : Cluster → Cluster} (h : InBeat r k b s) (hf : KeepsBeat f := by exact fun _ => ⟨rfl, rfl⟩) :
    InBeat r k b (s.modCl r k f) where
  beat := by rw [State.modCl_eq, State.cl_setCl_same, (hf _).1, h.beat]
  elapsed := by rw [State.modCl_eq, State.cl_setCl_same, (hf _).2, h.elapsed]
  other r' k' ho := by rw [State.modCl_eq, State.cl_setCl_ne _ _ ho, h.other r' k' ho]

theorem InBeat.setCl {c : Cluster} (h : InBeat r k b s) (hb : c.beat = (s.cl r k).beat := by rfl)
    (he : c.elapsed = (s.cl r k).elapsed := by rfl) :
    InBeat r k b (s.setCl r k c) where
  beat := by rw [State.cl_setCl_same, hb, h.beat]
  elapsed := by rw [State.cl_setCl_same, he, h.elapsed]
  other r' k' ho := by rw [State.cl_setCl_ne _ _ ho, h.other r' k' ho]

theorem InBeat.ite {c : Prop} [Decidable c] (hs : InBeat r k b s) (ht : InBeat r k b t) : InBeat r k b (if c then s else t) := by
  split
  · exact hs
  · exact ht

theorem InBeat.foldl {α : Type} {f : State → α → State} (hf : ∀ s x, InBeat r k b s → InBeat r k b (f s x)) :
    ∀ {l : List α} {s : State}, InBeat r k b s → InBeat r k b (l.foldl f s)
  | [], _, h => h
  | x :: xs, s, h => InBeat.foldl hf (l := xs) (s := f s x) (hf s x h)

/-! ### Heads of queues (R104, R106, R107, R109) -/

theorem InBeat.addReq {r' : Nat} {q : Req} (h : InBeat r k b s) : InBeat r k b (s.addReq r' q) := h.setRg

theorem InBeat.incOwn {i n : Nat} (h : InBeat r k b s) : InBeat r k b (s.incOwn r k i n) := ((h.setCl).setRg).bump

theorem InBeat.incNode {i n bound : Nat} (h : InBeat r k b s) : InBeat r k b (s.incNode r i n bound) := h.setRg.bump

theorem InBeat.incFlag {v n : Nat} (h : InBeat r k b s) : InBeat r k b (s.incFlag r k v n) := by
  unfold State.incFlag
  split
  case h_1 => exact h
  case h_2 => exact h.bump
  case h_3 => exact h.incOwn
  case h_4 => exact h.incNode
  case h_5 =>
    split
    · exact h.addReq
    · exact h.bump
  case h_6 => exact h.addReq
  case h_7 => exact h.addReq

theorem InBeat.doneFlag {c : Cmd512} (h : InBeat r k b s) : InBeat r k b (s.doneFlag r k c) := .ite h.incFlag h

theorem InBeat.laterFlag {n : Nat} {c : Cmd512} (h : InBeat r k b s) : InBeat r k b (s.laterFlag r k n c) :=
  .ite (h.modCl) h

theorem InBeat.advance {q : Nat} (h : InBeat r k b s) : InBeat r k b (s.advance r k q) := h.modCl

theorem InBeat.setQ {q : Nat} {f : Cluster → Queue} (h : InBeat r k b s) : InBeat r k b (s.modCl r k fun c => c.setQ q (f c)) :=
  h.modCl

theorem InBeat.skipCmd {q n : Nat} {c : Cmd512} (h : InBeat r k b s) : InBeat r k b (s.skipCmd r k q c n) := h.laterFlag.bump.advance.bump

theorem InBeat.passCmd {q : Nat} {c : Cmd512} (h : InBeat r k b s) : InBeat r k b (s.passCmd r k q c) := h.doneFlag.bump.advance

theorem InBeat.setNow {a v : Nat} (h : InBeat r k b s) : InBeat r k b (s.setNow r k a v) := h.setReg.modCl

theorem InBeat.evalStop {q pos : Nat} {why : EvalStop} (h : InBeat r k b s) : InBeat r k b (s.evalStop r k q pos why) := by
  unfold State.evalStop
  have h1 := (h.setQ (q := q) (f := fun c => { c.queue q with st := .stopped, stop := why, pos })).setReg (a := A.evalPos r k q)
    (w := BitVec.ofNat 64 (pos % 2 ^ 24))
  exact .ite (.foldl (fun _ _ h => h.setReg) h1.setNow) h1

theorem InBeat.endQueue {q pos : Nat} (h : InBeat r k b s) : InBeat r k b (s.endQueue r k q pos) := .ite h.evalStop h.setQ

theorem InBeat.raiseMatched {own : Bool} {i n : Nat} (h : InBeat r k b s) : InBeat r k b (s.raiseMatched r k own i n) :=
  .ite (h.modCl) h.setRg

theorem InBeat.waitIssue {q : Nat} {c : Cmd512} (h : InBeat r k b s) : InBeat r k b (s.waitIssue r k q c) := by
  refine InBeat.passCmd (.ite h ?_)
  split
  · exact h.raiseMatched
  · exact h.raiseMatched
  · exact h

theorem InBeat.arriveAt {r' n m : Nat} {node : Node} {f : BarF} {fs : List Nat} (h : InBeat r k b s) : InBeat r k b (s.arriveAt r' node f n m fs) := by
  unfold State.arriveAt
  split
  · exact h.of_cl fun _ _ => rfl
  · exact .ite (h.of_cl fun _ _ => rfl) (InBeat.bump (h.of_cl fun _ _ => rfl))

theorem InBeat.noteRanks {e : Env} {c : Cmd512} (h : InBeat r k b s) : InBeat r k b (s.noteRanks r e c) := by
  unfold State.noteRanks
  dsimp only
  split
  · split
    · exact .ite (h.data (s.noteReads_data _ _ _)) h
    · exact h
  · exact h

theorem InBeat.issueEffects {q : Nat} {c : Cmd512} (h : InBeat r k b s) : InBeat r k b (s.issueEffects r k q c) := by
  unfold State.issueEffects
  split
  · exact .ite h.setReg.setReg h
  · split
    · exact .ite h h.bump
    · exact h
  · exact h

theorem Cluster.setBusy_keeps (q : Nat) (x : Cmd512) (p : VePlan) : KeepsBeat fun c => c.setBusy q x p := by
  intro c
  unfold Cluster.setBusy
  split <;> exact ⟨rfl, rfl⟩

theorem InBeat.issueLri {q : Nat} {c : Cmd512} {aux : List Nat} (h : InBeat r k b s) : InBeat r k b (s.issueLri r k q c aux) := by
  unfold State.issueLri
  extract_lets l s1 s2 s3
  have h1 : InBeat r k b s1 := h.issueEffects.modCl
  have h2 : InBeat r k b s2 := by
    unfold s2
    split
    · exact h1.modCl (Cluster.setBusy_keeps _ _ _)
    · exact h1
  have h3 : InBeat r k b s3 := .ite ((h2.modCl).addReq) h2
  exact h3.advance

theorem InBeat.actOn {q : Nat} {c : Cmd512} {e : Env} (h : InBeat r k b s) : InBeat r k b (s.actOn r k q c e) := by
  unfold State.actOn
  split
  · exact h.skipCmd
  · exact h.noteRanks.skipCmd
  · exact h.skipCmd
  · extract_lets ev pos hold
    split
    · exact h.passCmd
    · exact h.passCmd.endQueue
    · exact .ite h.waitIssue h.setQ
    · exact h.incFlag.passCmd
    · exact h.arriveAt.setQ
    · exact .ite h.passCmd h.passCmd.setQ
    · exact .ite h.passCmd.evalStop h.passCmd
    · exact .ite h.passCmd.evalStop h.passCmd
    · exact h.noteRanks.issueLri

/-- R101: what a queue does in a beat takes no beat. -/
theorem InBeat.stepQueue {q : Nat} {e : Env} (h : InBeat r k b s) : InBeat r k b (s.stepQueue r k q e) := by
  unfold State.stepQueue
  extract_lets x
  split
  · exact h
  · exact h
  · exact h.endQueue
  · exact .ite (.ite h.waitIssue h) h.actOn

/-! ### Timed work of a beat (R47, R118, R155, R204) -/

theorem InBeat.slip {u : EUnit} {i t n : Nat} {wr : Bool} (h : InBeat r k b s) : InBeat r k b (s.slip r k u i t wr n) := by
  unfold State.slip
  extract_lets c hs has s1
  have h1 : InBeat r k b s1 := h.bump.bump.bump
  split
  · exact h1
  · exact .ite h1 (h1.modCl)

theorem InBeat.recordSlip (h : InBeat r k b s) : InBeat r k b (s.recordSlip r k) := by
  unfold State.recordSlip
  extract_lets c
  split
  · exact h
  · exact .ite (h.setCl) (h.setCl).setReg.setReg

theorem InBeat.latch {a : TAcc} (h : InBeat r k b s) : InBeat r k b (s.latch r k a) := by
  unfold State.latch
  split
  · exact h
  · exact h.modCl

theorem InBeat.carryReads {l : Lri} (h : InBeat r k b s) : InBeat r k b (s.carryReads r k l) :=
  .foldl (fun _ _ h => (h.modCl).bump) h

theorem Cluster.setCarry_keeps (u : EUnit) (i : Cluster → Nat) (v : Cluster → Nat) : KeepsBeat fun c => c.setCarry u (i c) (v c) := by
  intro c
  unfold Cluster.setCarry
  split <;> exact ⟨rfl, rfl⟩

theorem InBeat.carryWrites {l : Lri} (h : InBeat r k b s) : InBeat r k b (s.carryWrites r k l) := by
  unfold State.carryWrites
  refine .ite h (.foldl (fun _ x h => ?_) h)
  split
  · exact h
  · exact h.modCl (Cluster.setCarry_keeps _ _ _)

theorem InBeat.tileRead {l : Lri} (h : InBeat r k b s) : InBeat r k b (s.tileRead r k l) := by
  unfold State.tileRead
  split
  · exact .ite (h.modCl) h
  · exact h

theorem InBeat.tileWrite {l : Lri} (h : InBeat r k b s) : InBeat r k b (s.tileWrite r k l) := by
  unfold State.tileWrite
  split
  · exact h.modCl
  · exact h

theorem State.cl_setSpLine (s : State) (r k line v : Nat) (r' k' : Nat) : (s.setSpLine r k line v).cl r' k' = s.cl r' k' := by
  unfold State.setSpLine State.cl
  dsimp only

theorem InBeat.storeAcc {o : Nat → VeOut} {a : TAcc} (h : InBeat r k b s) : InBeat r k b (s.storeAcc r k o a) := by
  unfold State.storeAcc
  split
  · exact (h.of_cl (State.cl_setSpLine _ _ _ _ _)).modCl
  · exact h

end

/-! ### Beats that pass -/

/-- `n` elapsed beats pass, as the change `f` of the cluster says. -/
theorem State.cl_nextBeat (s : State) (r k n : Nat) (f : Cluster → Cluster) :
    (s.nextBeat r k n f).cl r k
      = { f (s.cl r k) with elapsed := (s.cl r k).elapsed + n, begun := false, setNow := [], beganAt := s.ticks + 1 } := by
  exact State.cl_setCl_same s r k _

theorem State.cl_nextBeat_other (s : State) {r k r' k' : Nat} (n : Nat) (f : Cluster → Cluster) (h : otherCluster r k r' k') :
    (s.nextBeat r k n f).cl r' k' = s.cl r' k' := by
  exact State.cl_setCl_ne s _ h

/-- R37: a stretch beat of a cluster without a slip to record. -/
theorem State.stretchBeat_eq {s : State} {r k : Nat} (a : Nat) (serve : List UAcc → List UAcc) (h : (s.cl r k).slipNow = []) :
    s.stretchBeat r k a serve = (s.bump a 1).nextBeat r k 1 fun c => { c with uaccs := serve c.uaccs } := by
  have : s.recordSlip r k = s := by
    simp only [State.recordSlip, h, firstSlip]
  rw [State.stretchBeat, this]

/-- What a beat that is no schedule beat changes: elapsed beats and the counter of its cause. -/
structure Stretched (r k a : Nat) (s t : State) : Prop where
  beat    : (t.cl r k).beat = (s.cl r k).beat
  elapsed : (t.cl r k).elapsed = (s.cl r k).elapsed + 1
  queues  : (t.cl r k).queues = (s.cl r k).queues
  lris    : (t.cl r k).lris = (s.cl r k).lris
  counted : t.reg a = BitVec.ofNat 64 (satAdd 48 (s.regN a) 1)
  regs    : ∀ b, b ≠ a → t.reg b = s.reg b
  other   : ∀ r' k', otherCluster r k r' k' → t.cl r' k' = s.cl r' k'
  kept    : SameMemory s t

theorem State.stretchBeat_spec {s : State} {r k : Nat} (a : Nat) (serve : List UAcc → List UAcc) (h : (s.cl r k).slipNow = []) :
    Stretched r k a s (s.stretchBeat r k a serve) := by
  rw [State.stretchBeat_eq a serve h]
  refine ⟨?_, ?_, ?_, ?_, ?_, fun b hb => s.reg_bump_ne 1 hb, fun r' k' ho => ?_, ?_⟩
  · rw [State.cl_nextBeat, State.cl_bump]
  · rw [State.cl_nextBeat, State.cl_bump]
  · rw [State.cl_nextBeat, State.cl_bump]
  · rw [State.cl_nextBeat, State.cl_bump]
  · exact (s.reg_bump a a 1).trans (if_pos ⟨rfl, by norm_num⟩)
  · rw [State.cl_nextBeat_other _ _ _ ho, State.cl_bump]
  · exact ⟨fun b => congrArg (Memory.read · b) (s.bump_mem a 1), s.bump_gran a 1, s.bump_flash a 1⟩

/-! ### The rows -/

theorem State.inBeat_of_beats {s : State} {r k : Nat} (h : s.beats r k = true) (f : State → State) : s.inBeat r k f = f s := if_pos h

theorem exec_stretchYield {r k : Nat} {s : State} (hw : Instr.wf (.stretchYield r k) = true) (hi : s.portsIdle = true) (hb : s.beats r k = true)
    (hy : (s.cl r k).yields = true) : exec (.stretchYield r k) s = .next (s.yieldBeat r k) := by
  refine (if_pos hw).trans (congrArg Host.Outcome.next ?_)
  rw [State.thenRetry_of_idle hi, State.inBeat_of_beats hb, if_pos hy]

theorem exec_clusterBeat {r k : Nat} {e : Env} {s : State} (hw : Instr.wf (.clusterBeat r k e) = true) (hi : s.portsIdle = true) :
    exec (.clusterBeat r k e) s = .next (s.clusterBeat r k e) :=
  (if_pos hw).trans (congrArg Host.Outcome.next (State.thenRetry_of_idle hi _))

theorem exec_holdBeat {r k : Nat} {s : State} (hw : Instr.wf (.holdBeat r k) = true) (hi : s.portsIdle = true) (hb : s.beats r k = true) :
    exec (.holdBeat r k) s = .next (s.holdOne r k) := by
  refine (if_pos hw).trans (congrArg Host.Outcome.next ?_)
  rw [State.thenRetry_of_idle hi, State.inBeat_of_beats hb]

theorem State.clusterBeat_yields {s : State} {r k : Nat} (e : Env) (hb : s.beats r k = true) (hy : (s.cl r k).yields = true) :
    s.clusterBeat r k e = s.yieldBeat r k := by
  simp only [State.clusterBeat, hb, hy]
  rfl

/-- R113: nothing issues before a hold that has a cause of its own. -/
theorem State.descBefore_of_hold {s : State} {r k a : Nat} {e : Env} (h : s.holdCause r k e = some a) : s.descBefore r k e = s := by
  rw [State.descBefore, h]
  rfl

theorem State.clusterBeat_hold {s : State} {r k a : Nat} {e : Env} (hb : s.beats r k = true) (hy : (s.cl r k).yields = false)
    (hbegin : s.beginBeat r k = s) (h : s.holdCause r k e = some a) : s.clusterBeat r k e = s.holdBeat r k a := by
  simp only [State.clusterBeat, hb, hy, hbegin, State.descBefore_of_hold h, h]
  rfl

theorem State.holdOne_hold {s : State} {r k a : Nat} (hy : (s.cl r k).yields = false) (hbegin : s.beginBeat r k = s)
    (h : s.holdCause r k = some a) : s.holdOne r k = s.holdBeat r k a := by
  unfold State.holdOne
  rw [hbegin, State.descBefore_of_hold h]
  dsimp only
  rw [h, hy]
  exact if_neg Bool.false_ne_true

/-- R33, R37: where nothing holds, the heads of the queues act, then the timed work of the schedule beat. -/
theorem State.clusterBeat_runs {s : State} {r k : Nat} {e : Env} (hb : s.beats r k = true) (hy : (s.cl r k).yields = false)
    (hbegin : s.beginBeat r k = s) (h : Unheld s r k e) :
    s.clusterBeat r k e = ((List.range 4).foldl (fun s q => s.stepQueue r k q e) s).timedBeat r k e := by
  have hd : s.descBefore r k e = s := by
    rw [State.descBefore, h.2]
    simp
  simp only [State.clusterBeat, hb, hy, hbegin, hd, h.1]
  rfl

/-- R33: the timed work of a beat, up to the beat that follows. -/
theorem State.timedBeat_next (s : State) (r k : Nat) (e : Env) :
    ∃ u n f, InBeat r k s u ∧ (∀ c, (f c).beat = c.beat + 1) ∧ s.timedBeat r k e = (u.nextBeat r k (n + 1) f).pruneUnseen r k := by
  unfold State.timedBeat
  extract_lets as n s1 rds s1' s2 ls s3 ls' stores writers outs o s4 s5 s6
  refine ⟨s6, n, _, ?_, ?_, rfl⟩
  swap
  · exact fun _ => rfl
  have h0 : InBeat r k s (s.countAccs r k as) := (InBeat.refl r k s).bump.bump
  have h1 : InBeat r k s s1 := .foldl (fun _ _ h => h.slip) h0
  have h2 : InBeat r k s s2 := .foldl (fun _ _ h => h.latch) (h1.data (s1.noteChip_data _ _))
  have h3 : InBeat r k s s3 := .foldl (fun _ _ h => h.carryReads.tileRead) h2
  have h4 : InBeat r k s s4 := .foldl (fun _ _ h => h.storeAcc) h3
  have h5 : InBeat r k s s5 := .foldl (fun _ _ h => h.carryWrites.tileWrite) h4
  exact h5.recordSlip.bump

/-- Settles O13: a yield and a hold are stretch beats; a schedule beat's work takes no beat but its own. -/
theorem beatsPass : Obligations.BeatsPass := by
  constructor
  · intro i s r k a e hw hi hb hslip hcase
    have hs : ∀ serve, Stretched r k a s (s.stretchBeat r k a serve) := fun serve => State.stretchBeat_spec a serve hslip
    have hex : ∃ serve, exec i s = .next (s.stretchBeat r k a serve) := by
      rcases hcase with ⟨rfl | rfl, hy, rfl⟩ | ⟨⟨rfl, rfl⟩ | rfl, hy, hbegin, hc⟩
      · exact ⟨_, exec_stretchYield hw hi hb hy⟩
      · exact ⟨_, (exec_clusterBeat hw hi).trans (congrArg _ (State.clusterBeat_yields e hb hy))⟩
      · exact ⟨_, (exec_holdBeat hw hi hb).trans (congrArg _ (State.holdOne_hold hy hbegin hc))⟩
      · exact ⟨_, (exec_clusterBeat hw hi).trans (congrArg _ (State.clusterBeat_hold hb hy hbegin hc))⟩
    obtain ⟨serve, hex⟩ := hex
    obtain ⟨h1, h2, h3, h4, h5, h6, h7, h8⟩ := hs serve
    exact ⟨_, hex, h1, h2, h3, h4, h5, h6, h7, h8⟩
  · intro s r k e hw hi hb hy hbegin hun
    have hq : InBeat r k s ((List.range 4).foldl (fun s q => s.stepQueue r k q e) s) := .foldl (fun _ _ h => h.stepQueue) (.refl r k s)
    obtain ⟨u, n, f, hu, hf, ht⟩ := State.timedBeat_next ((List.range 4).foldl (fun s q => s.stepQueue r k q e) s) r k e
    have hcl : ∀ r' k', ((u.nextBeat r k (n + 1) f).pruneUnseen r k).cl r' k' = (u.nextBeat r k (n + 1) f).cl r' k' := fun r' k' =>
      State.cl_setRg _ _ _ _ _
    refine ⟨_, (exec_clusterBeat hw hi).trans (congrArg _ ((State.clusterBeat_runs hb hy hbegin hun).trans ht)), ?_, ?_, fun r' k' ho => ?_⟩
    · rw [hcl, State.cl_nextBeat]
      show (f _).beat = _
      rw [hf, hu.beat, hq.beat]
    · rw [hcl, State.cl_nextBeat]
      show _ ≤ (u.cl r k).elapsed + (n + 1)
      rw [hu.elapsed, hq.elapsed]
      omega
    · rw [hcl, State.cl_nextBeat_other _ _ _ ho, hu.other r' k' ho, hq.other r' k' ho]

end Sys2Proof.Machine
end

section
/-!
SUPPORT. Requests that end at their router (R60, R153, R270, R274, R327).
-/
namespace Sys2Proof.Machine

/-! ### What moving the data of a request leaves alone -/

theorem State.noteSources_data (s : State) (r : Nat) (e : Env) (lost : Bool) (ls : List Loc) : DataStep s (s.noteSources r e lost ls) :=
  ((s.noteReads_data _ _ _).trans (State.noteChip_data _ _ _)).trans (.bump _ _ (.poisonReads r))

theorem State.moveData_data (s : State) (e : Env) (src dst : Nat → Loc) (held : List (Nat × Nat × List Bool)) (ms : List Move) :
    DataStep s (s.moveData e src dst held ms) := s.writeLocs_data _

theorem State.moveOrdered_data (s : State) (e : Env) (src dst : Nat → Loc) (held : List (Nat × Nat × List Bool)) (ms rest : List Move) :
    DataStep s (s.moveOrdered e src dst held ms rest).1 := by
  unfold State.moveOrdered
  exact List.foldlRecOn (motive := fun (x : State × List (Nat × Nat × List Bool)) => DataStep s x.1) _ _ (.refl s) fun x h _ _ =>
    h.trans (State.moveData_data x.1 _ _ _ _ _)

theorem State.atomOne_data (s : State) (e : Env) (aop : Nat) (sgn : Bool) (dst : Nat → Loc) (m : Move) (v : Nat) (bad : Bool) :
    DataStep s (s.atomOne e aop sgn dst m v bad) := .ite (.refl s) (s.writeLocs_data _)

theorem State.atomData_data (s : State) (e : Env) (aop : Nat) (sgn : Bool) (src dst : Nat → Loc) (ms : List Move) :
    DataStep s (s.atomData e aop sgn src dst ms) := by
  refine (DataStep.bump s _ .atomPoison).trans (.foldl _ (fun s m _ => ?_) _)
  dsimp only
  split
  · exact .ite (.ite (.refl s) (s.sendMlm_data (s.mlmPort_lt _) _)) (s.atomOne_data ..)
  · exact s.atomOne_data ..

/-- R60, R270: whatever a mover request moves, only data moves. -/
theorem State.mvData_data (s : State) (r : Nat) (q : Req) (l : Lri) (o : MvOp) (e : Env) (far : FarEnd) : DataStep s (s.mvData r q l o e far).1 := by
  have keep : ∀ {t : State} {c : Prop} [Decidable c], DataStep s t → DataStep s (if c then t else s) := fun h => .ite h (.refl s)
  unfold State.mvData
  dsimp only
  split
  · split
    · exact keep (s.moveOrdered_data ..)
    · exact keep (s.moveData_data ..)
  · exact keep (s.moveData_data ..)
  · exact keep (s.atomData_data ..)
  · exact .refl s

/-! ### A request's end -/

/-- The counters of requests that a far end did not answer (R270, R274, R327). -/
def TimeoutReg (a : Nat) : Prop := a = A.mlmTimeouts ∨ a = A.remoteTimeouts ∨ ∃ p, a = A.cxlTimeouts p

/-- A register of a region or of its clusters (R510). -/
def OfRegion (a : Nat) : Prop := 0x1000000 ≤ a ∧ a < 0x100000000

theorem TimeoutReg.place {a : Nat} (h : TimeoutReg a) : a = 0x16120 ∨ a = 0x20058 ∨ 0x100000000 ≤ a ∧ a % 0x1000 = 0x18 := by
  rcases h with rfl | rfl | ⟨p, rfl⟩
  · exact .inl rfl
  · exact .inr (.inl rfl)
  · simp only [A.cxlTimeouts, A.cxl]
    omega

theorem TimeoutReg.not_data {a : Nat} (h : TimeoutReg a) : ¬ DataReg a := fun hd => by
  have h1 := h.place
  have h2 := hd.place
  omega

theorem TimeoutReg.ne {a b : Nat} (h : TimeoutReg a) (hb : OfRegion b) : a ≠ b := by
  have h1 := h.place
  obtain ⟨h2, h3⟩ := hb
  omega

theorem OfRegion.cl {r k o : Nat} (hr : r < 48) (hk : k < 9) (ho : o < 0x10000) : OfRegion (A.cl r k o) := by
  unfold OfRegion A.cl A.rtr
  omega

theorem OfRegion.rtr {r o : Nat} (hr : r < 48) (ho : o < 0x10000) : OfRegion (A.rtr r o) := by
  unfold OfRegion A.rtr
  omega

theorem OfRegion.mvBytes {r k m : Nat} (hr : r < 48) (hk : k < 9) (hm : m < 2) : OfRegion (A.mvBytes r k m) := .cl hr hk (by omega)

/-- From `b` to `s` a cluster's request has gone on towards its end: its router's accepted requests and one counter stand, and the
commands in flight name the four queues. -/
structure Ending (r k a : Nat) (b s : State) : Prop where
  accepted : (s.rg r).accepted = (b.rg r).accepted
  reg      : s.reg a = b.reg a
  units    : ∀ l ∈ (s.cl r k).lris, l.q < 4

section
variable {r k a : Nat} {b s t : State}

theorem Ending.data (h : Ending r k a b s) (ha : TimeoutReg a) (hd : DataStep s t) : Ending r k a b t where
  accepted := by rw [hd.rg, h.accepted]
  reg := by rw [hd.reg a ha.not_data, h.reg]
  units := by rw [hd.cl]; exact h.units

theorem Ending.bump {c n : Nat} (h : Ending r k a b s) (ha : TimeoutReg a) (hc : OfRegion c) : Ending r k a b (s.bump c n) where
  accepted := by rw [State.rg_bump, h.accepted]
  reg := by rw [State.reg_bump_ne _ _ (ha.ne hc), h.reg]
  units := by rw [State.cl_bump]; exact h.units

theorem Ending.setCl {c : Cluster} (h : Ending r k a b s) (hc : ∀ l ∈ c.lris, l.q < 4) : Ending r k a b (s.setCl r k c) where
  accepted := by rw [State.rg_setCl, h.accepted]
  reg := by rw [State.reg_setCl, h.reg]
  units := by rw [State.cl_setCl_same]; exact hc

theorem Ending.modCl {f : Cluster → Cluster} (h : Ending r k a b s) (hf : ∀ l ∈ (f (s.cl r k)).lris, l.q < 4) : Ending r k a b (s.modCl r k f) :=
  h.setCl hf

theorem Ending.modLri {id : Nat} {f : Lri → Lri} (h : Ending r k a b s) (hf : ∀ l, (f l).q = l.q) :
    Ending r k a b (s.modCl r k fun c => c.modLri id f) := by
  refine h.modCl fun l hl => ?_
  obtain ⟨m, hm, rfl⟩ := List.mem_map.1 hl
  split
  · rw [hf]
    exact h.units m hm
  · exact h.units m hm

theorem Ending.setRg {r' : Nat} {g : Region} (h : Ending r k a b s) (hg : g.accepted = (s.rg r').accepted := by rfl) :
    Ending r k a b (s.setRg r' g) where
  accepted := by
    rw [State.rg_setRg, ← h.accepted]
    split
    · next e => rw [hg, e]
    · rfl
  reg := by rw [State.reg_setRg, h.reg]
  units := by rw [State.cl_setRg]; exact h.units

theorem Ending.ite {c : Prop} [Decidable c] (hs : Ending r k a b s) (ht : Ending r k a b t) : Ending r k a b (if c then s else t) := by
  split
  · exact hs
  · exact ht

theorem Ending.foldl {α : Type} {f : State → α → State} (l : List α) (hf : ∀ s x, Ending r k a b s → Ending r k a b (f s x))
    (h : Ending r k a b s) : Ending r k a b (l.foldl f s) := List.foldlRecOn l f h fun s h x _ => hf s x h

/-! ### Flags and the last request of a command (R103, R109, R110, R286) -/

theorem Ending.incFlag {v n : Nat} (h : Ending r k a b s) (ha : TimeoutReg a) (hr : r < 48) : Ending r k a b (s.incFlag r k v n) := by
  have hsat : OfRegion (A.syncSat r) := .rtr hr (by norm_num)
  unfold State.incFlag
  split
  case h_1 => exact h
  case h_2 => exact h.bump ha (.rtr hr (by norm_num))
  case h_3 => exact ((h.setCl (by exact h.units)).setRg).bump ha hsat
  case h_4 => exact (h.setRg).bump ha hsat
  case h_5 =>
    split
    · exact h.setRg
    · exact h.bump ha (.rtr hr (by norm_num))
  case h_6 => exact h.setRg
  case h_7 => exact h.setRg

theorem Ending.doneFlag {c : Cmd512} (h : Ending r k a b s) (ha : TimeoutReg a) (hr : r < 48) : Ending r k a b (s.doneFlag r k c) :=
  .ite (h.incFlag ha hr) h

theorem Ending.laterFlag {n : Nat} {c : Cmd512} (h : Ending r k a b s) : Ending r k a b (s.laterFlag r k n c) := .ite (h.modCl (by exact h.units)) h

theorem Ending.retire {q : Nat} (h : Ending r k a b s) (ha : TimeoutReg a) (hr : r < 48) (hk : k < 9) (hq : q < 4) : Ending r k a b (s.retire r k q) :=
  h.bump ha (.cl hr hk (by omega))

theorem Ending.finishMover {l : Lri} {dropped : Bool} (h : Ending r k a b s) (ha : TimeoutReg a) (hr : r < 48) (hk : k < 9) (hq : l.q < 4) :
    Ending r k a b (s.finishMover r k l dropped) := by
  have h1 : Ending r k a b (s.modCl r k fun c => { c with lris := c.lris.filter fun x => x.id != l.id }) :=
    h.modCl fun m hm => h.units m (List.mem_of_mem_filter hm)
  exact (Ending.ite (.ite (h1.doneFlag ha hr) h1.laterFlag) h1.laterFlag).retire ha hr hk hq

theorem Cluster.lri_mem {c : Cluster} {id : Nat} {l : Lri} (h : c.lri id = some l) : l ∈ c.lris := List.mem_of_find?_eq_some h

theorem Ending.partOver {lri part : Nat} {ms : Option (List Move)} (h : Ending r k a b s) (ha : TimeoutReg a) (hr : r < 48) (hk : k < 9) :
    Ending r k a b (s.partOver r k lri part ms) := by
  unfold State.partOver
  split
  · exact h
  · next l hl =>
    have h1 := fun mv => h.modLri (id := lri) (f := fun x => { x with mv := mv }) fun _ => rfl
    exact .ite ((h1 _).finishMover ha hr hk (h.units l (Cluster.lri_mem hl))) (h1 _)

theorem Ending.finishDesc {lri : Nat} {ds : List Desc1024} (h : Ending r k a b s) (ha : TimeoutReg a) (hr : r < 48) (hk : k < 9) :
    Ending r k a b (s.finishDesc r k lri ds) := by
  unfold State.finishDesc
  split
  · exact h
  · next l hl =>
    exact ((h.modCl (by exact fun m hm => h.units m (List.mem_of_mem_filter hm))).doneFlag ha hr).retire ha hr hk (h.units l (Cluster.lri_mem hl))

/-! ### Slips, held values, packets and waiting accesses -/

theorem Ending.slip {u : EUnit} {i t n : Nat} {wr : Bool} (h : Ending r k a b s) (ha : TimeoutReg a) (hr : r < 48) (hk : k < 9) :
    Ending r k a b (s.slip r k u i t wr n) := by
  unfold State.slip
  extract_lets c hs has s1
  have h1 : Ending r k a b s1 :=
    ((h.bump ha (.cl hr hk (by norm_num))).bump ha (.cl hr hk (by norm_num))).bump ha (.cl hr hk (by norm_num))
  split
  · exact h1
  · exact .ite h1 (h1.modCl (by exact h1.units))

theorem Ending.mvSlips {l : Lri} {src dst : List Loc} (h : Ending r k a b s) (ha : TimeoutReg a) (hr : r < 48) (hk : k < 9) :
    Ending r k a b (s.mvSlips r k l src dst) :=
  .foldl _ (fun _ _ h => h.slip ha hr hk) (.foldl _ (fun _ _ h => h.slip ha hr hk) h)

theorem Ending.holdValues {lri : Nat} {v : List (Nat × Nat × List Bool)} (h : Ending r k a b s) : Ending r k a b (s.holdValues r k lri v) :=
  h.modLri fun _ => rfl

theorem Ending.forget {id : Nat} (h : Ending r k a b s) : Ending r k a b (s.forget r id) := ⟨h.accepted, h.reg, h.units⟩

theorem Ending.modCl_at {r' k' : Nat} {f : Cluster → Cluster} (h : Ending r k a b s) (hf : ∀ c, (f c).lris = c.lris) :
    Ending r k a b (s.modCl r' k' f) where
  accepted := by rw [State.modCl_eq, State.rg_setCl, h.accepted]
  reg := by rw [State.modCl_eq, State.reg_setCl, h.reg]
  units := by
    rw [State.modCl_eq, State.cl_setCl]
    split
    · next e =>
      have hcl : s.cl r' k' = s.cl r k := by unfold State.cl; rw [e]
      rw [hf, hcl]
      exact h.units
    · exact h.units

theorem Ending.dropUntimed {home id : Nat} (h : Ending r k a b s) : Ending r k a b (s.dropUntimed home id) :=
  .foldl _ (fun _ _ h => h.setRg) (.foldl _ (fun _ _ h => h.modCl_at fun _ => rfl) h)

/-! ### What ends a request -/

/-- From `b` to `t` the request `id` has left its router and one counter stands. -/
structure Left (r id a : Nat) (b t : State) : Prop where
  gone : t.acceptedReq r id = none
  reg  : t.reg a = b.reg a

/-- R60: once its request is taken off the router, what is left to do brings none back. -/
theorem Ending.left {id : Nat} (h : Ending r k a (s.takeReq r id) t) (hs : s.reg a = b.reg a) : Left r id a b t where
  gone := by
    have : (t.rg r).accepted = (s.rg r).accepted.filter fun x => x.id != id := by
      rw [h.accepted, State.takeReq, State.modRg_eq, State.rg_setRg_same]
    rw [State.acceptedReq, this, List.find?_eq_none]
    intro x hx
    simpa using (List.mem_filter.1 hx).2
  reg := h.reg.trans hs

/-- A request taken off the router: what follows is counted from there. -/
theorem Ending.take (h : Ending r k a b s) (id : Nat) : Ending r k a (s.takeReq r id) (s.takeReq r id) := ⟨rfl, rfl, h.units⟩

theorem State.completeMover_left {q : Req} {l : Lri} {o : MvOp} {m part : Nat} {e : Env} {far : FarEnd} (h : Ending r q.k a b s) (ha : TimeoutReg a)
    (hr : r < 48) (hk : q.k < 9) (hm : m < 2) : Left r q.id a b (s.completeMover r q l o m part e far) := by
  unfold State.completeMover
  extract_lets pl rmw s1 x s2
  have h1 : Ending r q.k a b s1 := h.data ha (s.noteSources_data ..)
  have h2 : Ending r q.k a b x.1 := ((h1.data ha (s1.noteTargets_data ..)).mvSlips ha hr hk).data ha (State.mvData_data ..)
  have h3 : Ending r q.k a b s2 := (h2.bump ha (.mvBytes hr hk hm)).holdValues
  exact ((h3.take q.id).partOver ha hr hk).left h3.reg

theorem State.completeRemote_left {q : Req} {l : Lri} {o : MvOp} {m part : Nat} {e : Env} {far : FarEnd} (h : Ending r q.k a b s) (ha : TimeoutReg a)
    (hr : r < 48) (hk : q.k < 9) (hm : m < 2) : Left r q.id a b (s.completeRemote r q l o m part e far) := by
  unfold State.completeRemote
  extract_lets xs pl dst s0 s1
  have h0 : Ending r q.k a b s0 := ((h.data ha (.bump s _ (.poisonReads r))).data ha (State.noteTargets_data ..)).mvSlips ha hr hk
  have h1 : Ending r q.k a b s1 := .ite (.ite (h0.data ha (State.writeLocs_data ..)) h0) h
  have h2 := (h1.bump (n := payload q.moves) ha (.mvBytes hr hk hm)).forget (id := q.id)
  exact ((h2.take q.id).partOver ha hr hk).left h2.reg

theorem State.fetchDone_left {q : Req} {e : Env} {lost : Bool} {qi gen base idx n : Nat} (h : Ending r q.k a b s) (ha : TimeoutReg a) :
    Left r q.id a b (s.fetchDone r q e lost qi gen base idx n) := by
  unfold State.fetchDone
  extract_lets va s1 bs cmds s2
  have h1 : Ending r q.k a b s1 := h.data ha (s.noteSources_data ..)
  refine ((h1.take q.id).modCl ?_).left h1.reg
  split <;> exact h1.units

theorem State.descDone_left {q : Req} {e : Env} {lost : Bool} {l : Lri} (h : Ending r q.k a b s) (ha : TimeoutReg a) (hr : r < 48) (hk : q.k < 9) :
    Left r q.id a b (s.descDone r q e lost l) := by
  unfold State.descDone
  extract_lets n s1 bs
  have h1 : Ending r q.k a b s1 := h.data ha (s.noteSources_data ..)
  exact ((h1.take q.id).finishDesc ha hr hk).left h1.reg

/-! ### The rows -/

theorem State.acceptedReq_id {id : Nat} {x : Req} (h : s.acceptedReq r id = some x) : x.id = id := by
  simpa using List.find?_some h

/-- R60: with no packet of an accepted request still to leave, one that wrote to another module has sent it. -/
theorem State.sent_of_portsIdle {id : Nat} {x : Req} (hi : s.portsIdle = true) (h : s.acceptedReq r id = some x) : x.sent = true := by
  have hx : x ∈ (s.rg r).accepted := List.mem_of_find?_eq_some h
  rcases Sparse.get_mem Region.init s.regions r with hd | hd
  · rw [State.rg, hd] at hx
    simp [Region.init] at hx
  · simp only [State.portsIdle, Bool.and_eq_true, List.all_eq_true] at hi
    exact hi.2 _ hd x hx

theorem State.moverOn_left {q : Req} {l : Lri} {o : MvOp} {m part : Nat} {e : Env} {far : FarEnd} (h : Ending r q.k a b s) (ha : TimeoutReg a)
    (hr : r < 48) (hk : q.k < 9) (hm : m < 2) (hsent : q.sent = true) : Left r q.id a b (s.moverOn r q l o m part e far) := by
  unfold State.moverOn
  split
  · rw [if_pos hsent]
    exact State.completeRemote_left h ha hr hk hm
  · exact State.completeMover_left h ha hr hk hm

end

theorem exec_moverRequestComplete {r id : Nat} {e : Env} {s : State} (hr : r < 48) (hi : s.portsIdle = true) :
    exec (.moverRequestComplete r id e) s = .next (s.moverRequestComplete r id e) :=
  (if_pos (show Instr.wf (.moverRequestComplete r id e) = true by simp [Instr.wf, hr])).trans (congrArg Host.Outcome.next (State.thenRetry_of_idle hi _))

theorem exec_cxlRequestTimeout {r id : Nat} {e : Env} {s : State} (hr : r < 48) (hi : s.portsIdle = true) :
    exec (.cxlRequestTimeout r id e) s = .next (s.cxlTimeout r id e) :=
  (if_pos (show Instr.wf (.cxlRequestTimeout r id e) = true by simp [Instr.wf, hr])).trans (congrArg Host.Outcome.next (State.thenRetry_of_idle hi _))

theorem exec_mlmWindowTimeout {r id : Nat} {e : Env} {s : State} (hr : r < 48) (hi : s.portsIdle = true) :
    exec (.mlmWindowTimeout r id e) s = .next (s.mlmTimeout r id e) :=
  (if_pos (show Instr.wf (.mlmWindowTimeout r id e) = true by simp [Instr.wf, hr])).trans (congrArg Host.Outcome.next (State.thenRetry_of_idle hi _))

theorem exec_remoteRequestTimeout {r id : Nat} {e : Env} {s : State} (hr : r < 48) (hi : s.portsIdle = true) :
    exec (.remoteRequestTimeout r id e) s = .next (s.remoteTimeout r id e) :=
  (if_pos (show Instr.wf (.remoteRequestTimeout r id e) = true by simp [Instr.wf, hr])).trans (congrArg Host.Outcome.next (State.thenRetry_of_idle hi _))

/-- One counter taken before a request ends. -/
theorem Ending.counted {s : State} {r : Nat} {x : Req} (hn : Named s r x) (c n : Nat) :
    Ending r x.k c (s.bump c n) (s.bump c n) := by
  obtain ⟨-, -, -, hq⟩ := hn
  exact ⟨rfl, rfl, by rwa [State.cl_bump]⟩

section
variable {s : State} {r id : Nat} {x : Req} (hn : Named s r x) (hi : s.portsIdle = true) (hx : s.acceptedReq r id = some x)
include hn hi hx

theorem State.moverRequestComplete_left {lri m part lo hi' : Nat} (e : Env) (hkind : x.kind = .mover lri m part lo hi') (hf : Finishes s r x) :
    (s.moverRequestComplete r id e).acceptedReq r id = none := by
  obtain ⟨hr, hk, hm, hq⟩ := hn
  obtain rfl := State.acceptedReq_id hx
  have hm := hm _ _ _ _ _ hkind
  have hsent := State.sent_of_portsIdle hi hx
  have ha : TimeoutReg A.mlmTimeouts := .inl rfl
  simp only [Finishes, hkind] at hf
  obtain ⟨l, o, hlo, hripe⟩ := hf
  have h0 : Ending r x.k A.mlmTimeouts s s := ⟨rfl, rfl, hq⟩
  have h1 : Ending r x.k A.mlmTimeouts s (s.bump A.remoteRefused 1) :=
    ⟨by rw [State.rg_bump], s.reg_bump_ne 1 (by decide), by rw [State.cl_bump]; exact hq⟩
  simp only [State.moverRequestComplete, hx, hkind, hlo, hripe, Bool.not_true, Bool.false_eq_true, if_false]
  split
  · exact (State.moverOn_left h1 ha hr hk hm hsent).gone
  · exact (State.moverOn_left h0 ha hr hk hm hsent).gone

/-- R270, R274: a far end outside the module did not answer: the request ends, and its counter takes one. -/
theorem State.farTimeout_left {which : Loc → Bool} {count : State → Loc → State} {c : Nat} {p : Loc} (e : Env) (ha : TimeoutReg c)
    (hcount : ∀ s, count s p = s.bump c 1) (hf : Finishes s r x) (hp : ((s.reqPlaces r x).1 ++ (s.reqPlaces r x).2).find? which = some p) :
    Left r id c (s.bump c 1) (s.farTimeout r id e which count) := by
  have h0 := Ending.counted hn c 1
  have hsent := State.sent_of_portsIdle hi hx
  obtain ⟨hr, hk, hm, -⟩ := hn
  obtain rfl := State.acceptedReq_id hx
  have hserved : s.served r x = true := by
    unfold Finishes at hf
    split at hf
    · obtain ⟨l, o, -, hripe⟩ := hf
      simp only [State.ripe, Bool.and_eq_true] at hripe
      exact hripe.1.1
    · exact hf
    · exact hf.1
    · exact hf.elim
  unfold State.farTimeout
  simp only [hx, hp, hserved, hcount, Bool.not_true, Bool.false_eq_true, if_false]
  unfold Finishes at hf
  split
  · next hkind =>
    simp only [hkind] at hf
    obtain ⟨l, o, hlo, hripe⟩ := hf
    simp only [hlo, hripe, if_true]
    exact State.moverOn_left h0 ha hr hk (hm _ _ _ _ _ hkind) hsent
  · exact State.fetchDone_left h0 ha
  · next hkind =>
    simp only [hkind] at hf
    obtain ⟨l, hl⟩ := Option.isSome_iff_exists.1 hf.2
    rw [hl]
    exact State.descDone_left h0 ha hr hk
  · next hkind =>
    simp only [hkind] at hf

omit hi in
theorem State.remoteTimeout_left {lri m part lo hi' : Nat} {l : Lri} {o : MvOp} (e : Env) (hkind : x.kind = .mover lri m part lo hi')
    (hlo : s.mvOf r x = some (l, o)) (hturn : inTurn l part = true) (hfar : (s.farMod r x).isSome = true) (hy : ∃ y ∈ s.sentOf r id, y.done = false) :
    Left r id A.remoteTimeouts (s.bump A.remoteTimeouts 1) (s.remoteTimeout r id e) := by
  have h0 := (Ending.counted hn A.remoteTimeouts 1).dropUntimed (home := r) (id := id)
  obtain ⟨hr, hk, hm, -⟩ := hn
  obtain rfl := State.acceptedReq_id hx
  have hany : (s.sentOf r x.id).any (fun y => !y.done) = true := by
    obtain ⟨y, hy, hd⟩ := hy
    exact List.any_eq_true.2 ⟨y, hy, by rw [hd]; rfl⟩
  unfold State.remoteTimeout
  simp only [hx, hkind, hlo, hfar, hturn, hany, Bool.and_self, if_true]
  exact State.completeRemote_left h0 (.inr (.inl rfl)) hr hk (hm _ _ _ _ _ hkind)

end

theorem State.reg_bump_one (s : State) (a : Nat) : (s.bump a 1).reg a = BitVec.ofNat 64 (satAdd 48 (s.regN a) 1) :=
  (s.reg_bump a a 1).trans (if_pos ⟨rfl, one_ne_zero⟩)

/-- Settles O17: whichever way a request ends, it is taken off its router, and the counter of its cause is not touched again. -/
theorem requestsLeaveTheRouter : Obligations.RequestsLeaveTheRouter := by
  intro s r id e x hn hi hx
  refine ⟨fun lri m part lo hi' hkind hf => ⟨_, exec_moverRequestComplete hn.1 hi, State.moverRequestComplete_left hn hi hx e hkind hf⟩,
    fun hf p hp => ?_, fun hf hp => ?_, fun lri m part lo hi' l o hkind hlo hturn hfar hy => ?_⟩
  · obtain ⟨hgone, hreg⟩ := State.farTimeout_left hn hi hx (count := fun s l => s.bump (A.cxlTimeouts (cxlPort l.addr)) 1) e
      (.inr (.inr ⟨_, rfl⟩)) (fun _ => rfl) hf hp
    exact ⟨_, exec_cxlRequestTimeout hn.1 hi, hgone, hreg.trans (s.reg_bump_one _)⟩
  · obtain ⟨p, hp⟩ := Option.isSome_iff_exists.1 (List.find?_isSome.2 (List.any_eq_true.1 hp))
    obtain ⟨hgone, hreg⟩ := State.farTimeout_left hn hi hx (count := fun s _ => s.bump A.mlmTimeouts 1) e (.inl rfl) (fun _ => rfl) hf hp
    exact ⟨_, exec_mlmWindowTimeout hn.1 hi, hgone, hreg.trans (s.reg_bump_one _)⟩
  · obtain ⟨hgone, hreg⟩ := State.remoteTimeout_left hn hx e hkind hlo hturn hfar hy
    exact ⟨_, exec_remoteRequestTimeout hn.1 hi, hgone, hreg.trans (s.reg_bump_one _)⟩

end Sys2Proof.Machine
end

section
/-!
SUPPORT. Requests that pass their router: starts of mover commands, translations and acceptances (R56, R57, R60, R115, R257).
-/
namespace Sys2Proof.Machine

/-! ### Commands in flight that stand -/

/-- A change of a cluster's commands in flight that adds none and neither starts nor stops one. -/
def KeepsStarted (c d : Cluster) : Prop := ∀ l ∈ d.lris, ∃ m ∈ c.lris, m.id = l.id ∧ m.mv.started = l.mv.started

theorem KeepsStarted.of_eq {c d : Cluster} (h : d.lris = c.lris) : KeepsStarted c d := fun l hl => ⟨l, h ▸ hl, rfl, rfl⟩

theorem KeepsStarted.filter (c : Cluster) (p : Lri → Bool) : KeepsStarted c { c with lris := c.lris.filter p } :=
  fun l hl => ⟨l, List.mem_of_mem_filter hl, rfl, rfl⟩

/-- The commands of one ID take another mover state, none of them starting or stopping by it. -/
theorem KeepsStarted.modLri (c : Cluster) (id : Nat) {f : Lri → Lri} (hid : ∀ l, (f l).id = l.id)
    (hf : ∀ l ∈ c.lris, l.id = id → ∃ m ∈ c.lris, m.id = id ∧ m.mv.started = (f l).mv.started) : KeepsStarted c (c.modLri id f) := by
  intro l hl
  obtain ⟨x, hx, rfl⟩ := List.mem_map.1 hl
  by_cases h : x.id = id
  · obtain ⟨m, hm, hmid, hms⟩ := hf x hx h
    simp only [beq_iff_eq, h, if_true]
    exact ⟨m, hm, by rw [hid, hmid, h], hms⟩
  · simp only [beq_iff_eq, h, if_false]
    exact ⟨x, hx, rfl, rfl⟩

/-- From `b` to `s` the accepted requests of a region stand, and no command of one of its clusters has begun or been added. -/
structure Standing (r k : Nat) (b s : State) : Prop where
  accepted : (s.rg r).accepted = (b.rg r).accepted
  lris     : KeepsStarted (b.cl r k) (s.cl r k)

section
variable {r k : Nat} {b s t : State}

theorem Standing.refl (r k : Nat) (s : State) : Standing r k s s := ⟨rfl, .of_eq rfl⟩

theorem Standing.trans (h : Standing r k b s) (h' : Standing r k s t) : Standing r k b t where
  accepted := h'.accepted.trans h.accepted
  lris l hl := by
    obtain ⟨m, hm, hid, hst⟩ := h'.lris l hl
    obtain ⟨n, hn, hid', hst'⟩ := h.lris m hm
    exact ⟨n, hn, hid'.trans hid, hst'.trans hst⟩

theorem Standing.of_eq (h : Standing r k b s) (hg : (t.rg r).accepted = (s.rg r).accepted) (hc : (t.cl r k).lris = (s.cl r k).lris) :
    Standing r k b t := h.trans ⟨hg, .of_eq hc⟩

theorem Standing.data (h : Standing r k b s) (hd : DataStep s t) : Standing r k b t := h.of_eq (by rw [hd.rg]) (by rw [hd.cl])

theorem Standing.bump {c n : Nat} (h : Standing r k b s) : Standing r k b (s.bump c n) := h.of_eq (by rw [State.rg_bump]) (by rw [State.cl_bump])

theorem Standing.setReg {c : Nat} {w : Reg64} (h : Standing r k b s) : Standing r k b (s.setReg c w) := h.of_eq rfl rfl

theorem Standing.setCx {c : Nat} {x : Ctx} (h : Standing r k b s) : Standing r k b (s.setCx c x) := h.of_eq rfl rfl

theorem Standing.setRg {r' : Nat} {g : Region} (h : Standing r k b s) (hg : g.accepted = (s.rg r').accepted := by rfl) :
    Standing r k b (s.setRg r' g) := by
  refine h.of_eq ?_ rfl
  rw [State.rg_setRg]
  split
  · next e => rw [hg, e]
  · rfl

theorem Standing.setCl {r' k' : Nat} {c : Cluster} (h : Standing r k b s) (hc : KeepsStarted (s.cl r' k') c) : Standing r k b (s.setCl r' k' c) := by
  refine h.trans ⟨rfl, ?_⟩
  rw [State.cl_setCl]
  split
  · next e =>
    have hcl : s.cl r k = s.cl r' k' := by unfold State.cl; rw [e]
    rwa [hcl]
  · exact .of_eq rfl

theorem Standing.setCl_same {r' k' : Nat} {c : Cluster} (h : Standing r k b s) (hc : c.lris = (s.cl r' k').lris := by rfl) :
    Standing r k b (s.setCl r' k' c) := h.setCl (.of_eq hc)

theorem Standing.ite {c : Prop} [Decidable c] (hs : Standing r k b s) (ht : Standing r k b t) : Standing r k b (if c then s else t) := by
  split
  · exact hs
  · exact ht

theorem Standing.foldl {α : Type} {f : State → α → State} (l : List α) (hf : ∀ s x, Standing r k b s → Standing r k b (f s x))
    (h : Standing r k b s) : Standing r k b (l.foldl f s) := List.foldlRecOn l f h fun s h x _ => hf s x h

/-! ### Flags, faults and the last request of a command (R103, R109, R110, R259, R286) -/

theorem Standing.addReq {r' : Nat} {q : Req} (h : Standing r k b s) : Standing r k b (s.addReq r' q) := h.setRg

theorem Standing.incFlag {r' k' v n : Nat} (h : Standing r k b s) : Standing r k b (s.incFlag r' k' v n) := by
  unfold State.incFlag
  split
  case h_1 => exact h
  case h_2 => exact h.bump
  case h_3 => exact h.setCl_same.setRg.bump
  case h_4 => exact h.setRg.bump
  case h_5 =>
    split
    · exact h.addReq
    · exact h.bump
  case h_6 => exact h.addReq
  case h_7 => exact h.addReq

theorem Standing.doneFlag {r' k' : Nat} {c : Cmd512} (h : Standing r k b s) : Standing r k b (s.doneFlag r' k' c) := .ite h.incFlag h

theorem Standing.laterFlag {r' k' n : Nat} {c : Cmd512} (h : Standing r k b s) : Standing r k b (s.laterFlag r' k' n c) := .ite h.setCl_same h

theorem Standing.finishMover {r' k' : Nat} {l : Lri} {dropped : Bool} (h : Standing r k b s) : Standing r k b (s.finishMover r' k' l dropped) := by
  have h1 : Standing r k b (s.modCl r' k' fun c => { c with lris := c.lris.filter fun x => x.id != l.id }) := h.setCl (.filter _ _)
  unfold State.finishMover
  extract_lets s1 c d s2
  have h2 : Standing r k b s2 := .ite (.ite h1.doneFlag h1.laterFlag) h1.laterFlag
  exact h2.bump

/-- R115: a part's end neither starts nor stops its command. -/
theorem Standing.partOver {r' k' lri part : Nat} {ms : Option (List Move)} (h : Standing r k b s) : Standing r k b (s.partOver r' k' lri part ms) := by
  unfold State.partOver
  split
  · exact h
  · next l hl =>
    have hid : l.id = lri := by simpa using List.find?_some hl
    have h1 := fun (mv : MvState) (hmv : mv.started = l.mv.started) => h.setCl (r' := r') (k' := k')
      (KeepsStarted.modLri (s.cl r' k') lri (f := fun x => { x with mv := mv }) (fun _ => rfl) fun x _ _ => ⟨l, Cluster.lri_mem hl, hid, hmv.symm⟩)
    exact .ite (h1 _ (by rfl)).finishMover (h1 _ (by rfl))

theorem Standing.recordFault {r' kind va lk source mover tag : Nat} (h : Standing r k b s) :
    Standing r k b (s.recordFault r' kind va lk source mover tag) := .ite h.bump h.bump.setReg.setReg

theorem Standing.finishDesc {r' k' lri : Nat} {ds : List Desc1024} (h : Standing r k b s) : Standing r k b (s.finishDesc r' k' lri ds) := by
  unfold State.finishDesc
  split
  · exact h
  · exact (h.setCl fun m hm => ⟨m, List.mem_of_mem_filter hm, rfl, rfl⟩).doneFlag.bump

theorem Standing.dropReq {q : Req} {kind va : Nat} (h : Standing r k b s) : Standing r k b (s.dropReq r q kind va) := by
  have h1 := fun a b c d => h.recordFault (r' := r) (kind := kind) (va := va) (lk := a) (source := b) (mover := c) (tag := d)
  unfold State.dropReq
  dsimp only
  split
  · exact (h1 ..).partOver
  · refine (h1 ..).setCl (.of_eq ?_)
    dsimp only
    split <;> rfl
  · exact (h1 ..).finishDesc
  · exact h1 ..

/-! ### Translation (R257, R258) -/

theorem SameMemory.trans (h : SameMemory b s) (h' : SameMemory s t) : SameMemory b t :=
  ⟨fun a => (h'.1 a).trans (h.1 a), h'.2.1.trans h.2.1, h'.2.2.trans h.2.2⟩

theorem SameMemory.of_eq (hm : t.mem = s.mem) (hg : t.gran = s.gran) (hf : t.flash = s.flash) : SameMemory s t := ⟨fun _ => by rw [hm], hg, hf⟩

/-- From `s` to `u` a router has looked up what it translates: registers and what it has cached apart, nothing changed. -/
structure LookedUp (r : Nat) (s u : State) : Prop where
  clusters : u.clusters = s.clusters
  accepted : (u.rg r).accepted = (s.rg r).accepted
  waiting  : (u.rg r).waiting = (s.rg r).waiting
  kept     : SameMemory s u

theorem LookedUp.trans {u : State} (h : LookedUp r b s) (h' : LookedUp r s u) : LookedUp r b u where
  clusters := h'.clusters.trans h.clusters
  accepted := h'.accepted.trans h.accepted
  waiting := h'.waiting.trans h.waiting
  kept := h.kept.trans h'.kept

theorem LookedUp.only {K : Nat → Prop} (h : RegsOnly K s t) : LookedUp r s t := ⟨h.clusters, by rw [h.rg], by rw [h.rg], h.sameMemory⟩

theorem State.recordFault_only (s : State) (r' kind va lk source mover tag : Nat) :
    RegsOnly (fun _ => True) s (s.recordFault r' kind va lk source mover tag) :=
  have h := RegsOnly.bump (K := fun _ => True) s (a := A.xFaults r') 1 trivial
  .ite h ((h.trans (.setReg _ _ trivial)).trans (.setReg _ _ trivial))

/-- R257, R259: a translation either presents its request or drops it. -/
theorem State.translate_cases (s : State) (r : Nat) (q : Req) (beats : Nat) (e : Env) : ∃ u, LookedUp r s u ∧
    ((∃ f : Nat × Nat, s.translate r q beats e
        = (u.modRg r fun g => { g with waiting := g.waiting.filter fun y => y.id != q.id }).dropReq r q f.1 f.2)
      ∨ ∃ q', q'.id = q.id ∧ q'.walked = true ∧ s.translate r q beats e = u.modRg r fun g => g.presented q') := by
  unfold State.translate
  extract_lets xm ms vas x s1 s2 new s3 bad
  refine ⟨s3, ?_, ?_⟩
  · have h1 : RegsOnly (fun _ => True) s s1 := ((RegsOnly.bump s _ trivial).trans (.bump _ _ trivial)).trans (.bump _ _ trivial)
    have h2 : LookedUp r s1 s2 := ⟨rfl, by simp [s2], by simp [s2], fun _ => rfl, rfl, rfl⟩
    have h3 : RegsOnly (fun _ => True) s2 s3 := .foldl _ (fun s _ _ => s.recordFault_only ..) _
    exact ((LookedUp.only h1).trans h2).trans (.only h3)
  · clear_value bad
    cases bad with
    | some f => exact .inl ⟨f, rfl⟩
    | none => refine .inr ⟨_, ?_, ?_, rfl⟩ <;> rfl

theorem Standing.lookedUp {k : Nat} (h : Standing r k b s) (hl : LookedUp r s t) : Standing r k b t :=
  h.of_eq hl.accepted (by rw [State.cl, hl.clusters]; rfl)

theorem Standing.translate {q : Req} {beats : Nat} {e : Env} (h : Standing r k b s) : Standing r k b (s.translate r q beats e) := by
  obtain ⟨u, hu, ⟨f, hf⟩ | ⟨q', -, -, hq⟩⟩ := s.translate_cases r q beats e
  · rw [hf]
    exact (h.lookedUp hu).setRg.dropReq
  · rw [hq]
    exact (h.lookedUp hu).setRg

theorem Standing.present {q : Req} {e : Env} (h : Standing r k b s) : Standing r k b (s.present r q e) := by
  unfold State.present
  extract_lets s1
  have h1 : Standing r k b s1 := h.addReq
  split
  · exact h1
  · exact .ite h1.translate h1

/-! ### Decisions of RECV and RDOWN (R49, R351, R357) -/

theorem Standing.queueUntimed {home id : Nat} {ls : List Loc} (h : Standing r k b s) : Standing r k b (s.queueUntimed home id ls) :=
  .foldl _ (fun _ _ h => .ite h.setRg h.setCl_same) h

theorem Standing.slip {r' k' : Nat} {u : EUnit} {i t n : Nat} {wr : Bool} (h : Standing r k b s) : Standing r k b (s.slip r' k' u i t wr n) := by
  unfold State.slip
  extract_lets c hs has s1
  have h1 : Standing r k b s1 := h.bump.bump.bump
  split
  · exact h1
  · exact .ite h1 h1.setCl_same

theorem Standing.mvSlips {r' k' : Nat} {l : Lri} {src dst : List Loc} (h : Standing r k b s) : Standing r k b (s.mvSlips r' k' l src dst) :=
  .foldl _ (fun _ _ h => h.slip) (.foldl _ (fun _ _ h => h.slip) h)

theorem Standing.promote {ls : List Loc} (h : Standing r k b s) : Standing r k b (s.promote ls) := by
  refine .foldl _ (fun s l h => ?_) h
  split
  · exact .ite h.setCx h
  · exact h

theorem Standing.waitSnap {counted : Bool} {ls : List Loc} (h : Standing r k b s) : Standing r k b (s.waitSnap counted ls) := h.bump.promote

theorem Standing.endWait {waited : Bool} {ls : List Loc} (h : Standing r k b s) : Standing r k b (s.endWait waited ls) :=
  .ite (Standing.bump (h.of_eq rfl rfl)) h

theorem Standing.noteTorn {ls : List Loc} (h : Standing r k b s) : Standing r k b (s.noteTorn ls) := by
  refine .foldl _ (fun s p h => ?_) h.bump
  split
  · exact h.setCx
  · exact h

theorem State.writeCtx_data {s t : State} {r c a : Nat} {bs : List Byte} (h : s.writeCtx r c a bs = .ok t) : DataStep s t := by
  unfold State.writeCtx at h
  dsimp only at h
  split at h
  · cases h
  · cases h
    exact s.writeLocs_data _

theorem Standing.writeOr {r' k' : Nat} {l : Lri} {c a : Nat} {bs : List Byte} (h : Standing r k b s) : Standing r k b (s.writeOr r' k' l c a bs) := by
  unfold State.writeOr
  split
  · exact h.data (State.writeCtx_data ‹_›)
  · exact h.recordFault

theorem Standing.actDec {r' k' : Nat} {l : Lri} {u : Bucket} {incl : Bool} {e : Env} (h : Standing r k b s) :
    Standing r k b (s.actDec r' k' l u incl e) := by
  unfold State.actDec
  dsimp only
  split
  · exact h
  · exact .ite h.writeOr.finishMover h.writeOr.finishMover

/-- Only what a command has decided changes. -/
theorem Standing.setDec {r' k' id : Nat} {dec : Option (Bool × Env × Bool)} (h : Standing r k b s) :
    Standing r k b (s.modCl r' k' fun c => c.modLri id fun x => { x with mv := { x.mv with dec := dec } }) :=
  h.setCl (.modLri _ _ (fun _ => rfl) fun l hl hid => ⟨l, hl, hid, rfl⟩)

theorem Standing.tryDec {r' k' id : Nat} (h : Standing r k b s) : Standing r k b (s.tryDec r' k' id) := by
  unfold State.tryDec
  split
  · exact h
  · split
    · exact .ite h (.ite h.setDec.waitSnap (Standing.actDec (.mvSlips (.data (.data (.data h.endWait.noteTorn (State.noteReads_data ..))
        (State.noteChip_data ..)) (State.noteTargets_data ..)))))
    · exact h

theorem Standing.startDec {r' k' : Nat} {l : Lri} {incl : Bool} {e : Env} (h : Standing r k b s) : Standing r k b (s.startDec r' k' l incl e) :=
  h.setDec.queueUntimed.tryDec

theorem Standing.tryRdown {c i : Nat} {u : Bucket} {e : Env} (h : Standing r k b s) : Standing r k b (s.tryRdown c i u e) := by
  unfold State.tryRdown
  split
  · refine .ite (Standing.startDec ?_) h
    exact Standing.setCx h.setCx
  · exact h

/-! ### What dropping a mover request leaves alone -/

/-- From `b` to `s` a cluster's queues and memory stand. -/
structure Quiet (r k : Nat) (b s : State) : Prop where
  kept   : SameMemory b s
  queues : (s.cl r k).queues = (b.cl r k).queues

/-- The same, and every request that joined its region's router needs no walk. -/
structure Dropping (r k : Nat) (b s : State) : Prop extends Quiet r k b s where
  waiting : ∀ q ∈ (s.rg r).waiting, q.walked = true ∨ q ∈ (b.rg r).waiting

theorem Quiet.trans (h : Quiet r k b s) (h' : Quiet r k s t) : Quiet r k b t := ⟨h.kept.trans h'.kept, h'.queues.trans h.queues⟩

theorem Dropping.refl (r k : Nat) (s : State) : Dropping r k s s := ⟨⟨⟨fun _ => rfl, rfl, rfl⟩, rfl⟩, fun _ h => .inr h⟩

theorem Dropping.trans (h : Dropping r k b s) (h' : Dropping r k s t) : Dropping r k b t :=
  ⟨h.toQuiet.trans h'.toQuiet, fun q hq => (h'.waiting q hq).elim .inl (h.waiting q)⟩

theorem Dropping.only {K : Nat → Prop} (h : RegsOnly K s t) : Dropping r k s t :=
  ⟨⟨h.sameMemory, by rw [h.cl]⟩, fun q hq => .inr (by rwa [h.rg] at hq)⟩

theorem Dropping.bump {c n : Nat} (h : Dropping r k b s) : Dropping r k b (s.bump c n) := h.trans (.only (.bump (K := fun _ => True) s n trivial))

theorem Dropping.setCl {c : Cluster} (h : Dropping r k b s) (hc : c.queues = (s.cl r k).queues := by rfl) : Dropping r k b (s.setCl r k c) :=
  h.trans ⟨⟨⟨fun _ => rfl, rfl, rfl⟩, by rw [State.cl_setCl_same, hc]⟩, fun _ => .inr⟩

theorem Dropping.ite {c : Prop} [Decidable c] (hs : Dropping r k b s) (ht : Dropping r k b t) : Dropping r k b (if c then s else t) := by
  split
  · exact hs
  · exact ht

/-- A flag's request is presented without a walk (R289). -/
theorem State.waiting_newFlagReq (s : State) (r k target : Nat) (remote : Option Nat) (idx inc : Nat) :
    ∀ q ∈ ((s.newFlagReq r k target remote idx inc).rg r).waiting, q.walked = true ∨ q ∈ (s.rg r).waiting := by
  intro q hq
  rw [State.newFlagReq, State.addReq, State.modRg_eq, State.rg_setRg_same] at hq
  rcases List.mem_append.1 hq with h | h
  · exact .inr h
  · exact .inl (by rw [List.mem_singleton.1 h])

theorem Dropping.incFlag {v n : Nat} (h : Dropping r k b s) : Dropping r k b (s.incFlag r k v n) := by
  have f := s.incFlag_frame r k v n
  refine h.trans ⟨⟨.of_eq f.mem f.gran f.flash, f.queues⟩, ?_⟩
  unfold State.incFlag
  split
  case h_1 => exact fun _ => .inr
  case h_2 => exact fun q hq => .inr (by rwa [State.rg_bump] at hq)
  case h_3 => exact fun q hq => .inr (by rwa [State.incOwn, State.rg_bump, State.modRg_eq, State.rg_setRg_same] at hq)
  case h_4 => exact fun q hq => .inr (by rwa [State.incNode, State.rg_bump, State.rg_setRg_same] at hq)
  case h_5 =>
    split
    · exact s.waiting_newFlagReq _ _ _ _ _ _
    · exact fun q hq => .inr (by rwa [State.rg_bump] at hq)
  case h_6 => exact s.waiting_newFlagReq _ _ _ _ _ _
  case h_7 => exact s.waiting_newFlagReq _ _ _ _ _ _

theorem Dropping.doneFlag {c : Cmd512} (h : Dropping r k b s) : Dropping r k b (s.doneFlag r k c) := .ite h.incFlag h

theorem Dropping.laterFlag {n : Nat} {c : Cmd512} (h : Dropping r k b s) : Dropping r k b (s.laterFlag r k n c) := .ite h.setCl h

theorem Dropping.finishMover {l : Lri} {dropped : Bool} (h : Dropping r k b s) : Dropping r k b (s.finishMover r k l dropped) := by
  have h1 : Dropping r k b (s.modCl r k fun c => { c with lris := c.lris.filter fun x => x.id != l.id }) := h.setCl
  unfold State.finishMover
  extract_lets s1 c d s2
  have h2 : Dropping r k b s2 := .ite (.ite h1.doneFlag h1.laterFlag) h1.laterFlag
  exact h2.bump

theorem Dropping.partOver {lri part : Nat} {ms : Option (List Move)} (h : Dropping r k b s) : Dropping r k b (s.partOver r k lri part ms) := by
  unfold State.partOver
  split
  · exact h
  · exact .ite (h.setCl (c := (s.cl r k).modLri lri _)).finishMover h.setCl

theorem Dropping.finishDesc {lri : Nat} {ds : List Desc1024} (h : Dropping r k b s) : Dropping r k b (s.finishDesc r k lri ds) := by
  unfold State.finishDesc
  split
  · exact h
  · exact h.setCl.doneFlag.bump

theorem Dropping.recordFault {r' kind va lk source mover tag : Nat} (h : Dropping r k b s) :
    Dropping r k b (s.recordFault r' kind va lk source mover tag) := h.trans (.only (s.recordFault_only ..))

/-- R259: a request of a mover command is dropped. -/
theorem State.dropReq_mover {q : Req} {lri m part lo hi kind va : Nat} (hq : q.kind = .mover lri m part lo hi) :
    Dropping r q.k s (s.dropReq r q kind va) := by
  unfold State.dropReq
  rw [hq]
  exact ((Dropping.refl r q.k s).recordFault).partOver

/-- R259: a request of any kind is dropped: a fetch's fault enters its queue, and memory stands. -/
theorem State.dropReq_kept (s : State) (r : Nat) (q : Req) (kind va : Nat) :
    SameMemory s (s.dropReq r q kind va) ∧ ∀ y ∈ ((s.dropReq r q kind va).rg r).waiting, y.walked = true ∨ y ∈ (s.rg r).waiting := by
  have keep : ∀ {t}, Dropping r q.k s t → SameMemory s t ∧ ∀ y ∈ (t.rg r).waiting, y.walked = true ∨ y ∈ (s.rg r).waiting :=
    fun h => ⟨h.kept, h.waiting⟩
  unfold State.dropReq
  dsimp only
  have h1 := fun a c d e => (Dropping.refl r q.k s).recordFault (r' := r) (kind := kind) (va := va) (lk := a) (source := c) (mover := d) (tag := e)
  split
  · exact keep (h1 ..).partOver
  · exact ⟨(h1 _ _ _ _).kept, (h1 _ _ _ _).waiting⟩
  · exact keep (h1 ..).finishDesc
  · exact keep (h1 ..)

/-! ### The start of a mover command (R56, R115) -/

theorem Quiet.lookedUp (h : LookedUp r s t) : Quiet r k s t := ⟨h.kept, by rw [State.cl, h.clusters]; rfl⟩

theorem Quiet.modRg (s : State) (r' : Nat) (f : Region → Region) : Quiet r k s (s.modRg r' f) := ⟨⟨fun _ => rfl, rfl, rfl⟩, rfl⟩

/-- A request joins its router's waiting ones as the last. -/
theorem State.getLast_addReq (s : State) (r : Nat) (q : Req) : ((s.addReq r q).rg r).waiting.getLast? = some { q with id := (s.rg r).nextReq } := by
  rw [State.addReq, State.modRg_eq, State.rg_setRg_same, List.getLast?_append]
  rfl

theorem State.translate_quiet {q : Req} {lri m part lo hi : Nat} (beats : Nat) (e : Env) (hq : q.kind = .mover lri m part lo hi) (hk : q.k = k) :
    Quiet r k s (s.translate r q beats e) := by
  subst hk
  obtain ⟨u, hu, ⟨f, hf⟩ | ⟨q', -, -, hp⟩⟩ := s.translate_cases r q beats e
  · rw [hf]
    exact ((Quiet.lookedUp hu).trans (.modRg u r _)).trans (State.dropReq_mover hq).toQuiet
  · rw [hp]
    exact (Quiet.lookedUp hu).trans (.modRg u r _)

theorem State.present_quiet {q : Req} {lri m part lo hi : Nat} (e : Env) (hq : q.kind = .mover lri m part lo hi) (hk : q.k = k) :
    Quiet r k s (s.present r q e) := by
  have h1 : Quiet r k s (s.addReq r q) := .modRg s r _
  unfold State.present
  dsimp only
  rw [State.getLast_addReq]
  dsimp only
  split
  · exact h1.trans (State.translate_quiet 0 e hq hk)
  · exact h1

/-- R115: the commands of one ID have started. -/
def StartedAs (r k id : Nat) (s : State) : Prop := ∀ l ∈ (s.cl r k).lris, l.id = id → l.mv.started = true

theorem StartedAs.standing {id : Nat} (h : StartedAs r k id s) (hs : Standing r k s t) : StartedAs r k id t := by
  intro l hl hid
  obtain ⟨m, hm, hmid, hst⟩ := hs.lris l hl
  rw [← hst]
  exact h m hm (hmid.trans hid)

/-- R56, R115: a command starts: it and its requests' translations leave memory and the queues. -/
theorem State.startMover_spec (s : State) (r k m : Nat) (e : Env) (l : Lri) (o : MvOp) :
    StartedAs r k l.id (s.startMover r k m e l o) ∧ ((s.startMover r k m e l o).rg r).accepted = (s.rg r).accepted
      ∧ Quiet r k s (s.startMover r k m e l o) := by
  unfold State.startMover
  extract_lets c total ms mode page parts waits counted s1 mv s2 xm s3
  have hst : StartedAs r k l.id s2 := by
    intro x hx hid
    rw [show s2.cl r k = _ from State.cl_setCl_same ..] at hx
    obtain ⟨y, -, rfl⟩ := List.mem_map.1 hx
    split at hid
    · rw [if_pos ‹_›]
    · next h => exact absurd (beq_iff_eq.2 hid) h
  have hacc : (s2.rg r).accepted = (s.rg r).accepted := by
    rw [show s2.rg r = s1.rg r from State.rg_setCl .., State.rg_bump]
  have hq : Dropping r k s s2 := (Dropping.refl r k s).bump.setCl
  split
  · have h3 : Standing r k s2 s3 := .foldl _ (fun _ _ h => h.recordFault) (.refl r k s2)
    have h3' : Dropping r k s s3 := List.foldlRecOn xm.2 _ hq fun _ h _ _ => h.recordFault
    exact ⟨hst.standing h3.bump.finishMover, (h3.bump.finishMover).accepted.trans hacc, h3'.bump.finishMover.toQuiet⟩
  · have hf : Standing r k s2 _ := .foldl (numberFrom (fun i (p : Nat × Nat × Nat) => (i, p)) 0 parts)
      (fun s p h => h.present (q := { s.newReq r k (.mover l.id m p.1 p.2.2.1 p.2.2.2) p.2.1 with ctx := c }) (e := e)) (.refl r k s2)
    refine ⟨hst.standing hf, hf.accepted.trans hacc, ?_⟩
    exact List.foldlRecOn (motive := fun t => Quiet r k s t) _ _ hq.toQuiet fun t h p _ => h.trans (t.present_quiet e rfl rfl)

/-- R126: an opcode other than MVCOLL names no collective. -/
theorem MvOp.ofCmd_not_coll {c : Cmd512} {o : MvOp} (h : MvOp.ofCmd c = some o) (hc : Hdr.opcode c ≠ 0x0C3) (i p l a x y : Nat) :
    o ≠ .coll i p l a x y := by
  rintro rfl
  unfold MvOp.ofCmd at h
  dsimp only at h
  split at h
  case h_4 => contradiction
  all_goals cases h

theorem State.moverCommandStart_spec {m : Nat} {e : Env} {l : Lri} {o : MvOp} (hl : s.moverNext r k m = some l) (ho : MvOp.ofCmd l.cmd = some o) :
    StartedAs r k l.id (s.moverCommandStart r k m e) ∧ ((s.moverCommandStart r k m e).rg r).accepted = (s.rg r).accepted
      ∧ (Hdr.opcode l.cmd ≠ 0x0C3 → Quiet r k s (s.moverCommandStart r k m e)) := by
  obtain ⟨hst, hacc, hq⟩ := s.startMover_spec r k m e l o
  have still : ∀ {t}, Standing r k (s.startMover r k m e l o) t → StartedAs r k l.id t ∧ (t.rg r).accepted = (s.rg r).accepted :=
    fun h => ⟨hst.standing h, h.accepted.trans hacc⟩
  have hr := Standing.refl r k (s.startMover r k m e l o)
  unfold State.moverCommandStart
  simp only [hl, ho]
  split
  · refine and_assoc.1 ⟨?_, fun hc => absurd rfl (MvOp.ofCmd_not_coll ho hc _ _ _ _ _ _)⟩
    split
    · split
      · exact still hr.startDec
      · split
        · exact still hr.tryRdown
        · exact still hr
    · exact still hr
  · exact ⟨hst, hacc, fun _ => hq⟩

/-! ### Translation (R257) -/

theorem Region.presented_walked (g : Region) {q : Req} (hq : q.walked = true) : ∀ y ∈ (g.presented q).waiting, y.id = q.id → y.walked = true := by
  intro y hy hid
  unfold Region.presented at hy
  dsimp only at hy
  split at hy
  · obtain ⟨z, -, rfl⟩ := List.mem_map.1 hy
    split at hid
    · rw [if_pos ‹_›, hq]
    · next h => exact absurd (beq_iff_eq.2 hid) h
  · rcases List.mem_append.1 hy with h | h
    · simp [hid] at h
    · rw [List.mem_singleton.1 h, hq]

theorem State.translate_walked (q : Req) (beats : Nat) (e : Env) :
    (∀ y ∈ ((s.translate r q beats e).rg r).waiting, y.id = q.id → y.walked = true) ∧ SameMemory s (s.translate r q beats e) := by
  obtain ⟨u, hu, ⟨f, hf⟩ | ⟨q', hid, hw, hp⟩⟩ := s.translate_cases r q beats e
  · rw [hf]
    obtain ⟨hk, hwait⟩ := (u.modRg r fun g => { g with waiting := g.waiting.filter fun y => y.id != q.id }).dropReq_kept r q f.1 f.2
    refine ⟨fun y hy hid => (hwait y hy).elim id fun h => ?_, hu.kept.trans (SameMemory.trans ⟨fun _ => rfl, rfl, rfl⟩ hk)⟩
    rw [State.modRg_eq, State.rg_setRg_same] at h
    simp [hid] at h
  · rw [hp]
    refine ⟨fun y hy => ?_, hu.kept.trans ⟨fun _ => rfl, rfl, rfl⟩⟩
    rw [State.modRg_eq, State.rg_setRg_same] at hy
    rw [← hid]
    exact Region.presented_walked _ hw y hy

/-! ### Acceptance (R57, R58, R60) -/

/-- What of an accepted request its packets' leaving does not touch. -/
def Req.mark (q : Req) : Nat × ReqKind × Nat := (q.id, q.kind, q.bound)

/-- From `b` to `s` a router keeps the requests that wait and those accepted, with their bounds. -/
structure SameRouter (r : Nat) (b s : State) : Prop where
  waiting  : (s.rg r).waiting = (b.rg r).waiting
  accepted : (s.rg r).accepted.map Req.mark = (b.rg r).accepted.map Req.mark

theorem SameRouter.refl (r : Nat) (s : State) : SameRouter r s s := ⟨rfl, rfl⟩

theorem SameRouter.of_rg (h : SameRouter r b s) (hr : t.rg r = s.rg r) : SameRouter r b t := ⟨by rw [hr, h.waiting], by rw [hr, h.accepted]⟩

theorem SameRouter.data (h : SameRouter r b s) (hd : DataStep s t) : SameRouter r b t := h.of_rg (hd.rg r)

theorem SameRouter.bump {c n : Nat} (h : SameRouter r b s) : SameRouter r b (s.bump c n) := h.of_rg (s.rg_bump ..)

theorem SameRouter.setCl {r' k : Nat} {c : Cluster} (h : SameRouter r b s) : SameRouter r b (s.setCl r' k c) := h.of_rg (s.rg_setCl ..)

theorem SameRouter.setRg {r' : Nat} {g : Region} (h : SameRouter r b s) (hw : g.waiting = (s.rg r').waiting := by rfl)
    (ha : g.accepted.map Req.mark = (s.rg r').accepted.map Req.mark := by rfl) : SameRouter r b (s.setRg r' g) := by
  by_cases hr : r = r'
  · subst hr
    exact ⟨by rw [State.rg_setRg_same, hw, h.waiting], by rw [State.rg_setRg_same, ha, h.accepted]⟩
  · exact h.of_rg (s.rg_setRg_ne g hr)

theorem SameRouter.ite {c : Prop} [Decidable c] (hs : SameRouter r b s) (ht : SameRouter r b t) : SameRouter r b (if c then s else t) := by
  split
  · exact hs
  · exact ht

theorem SameRouter.foldl {α : Type} {f : State → α → State} (l : List α) (hf : ∀ s x, SameRouter r b s → SameRouter r b (f s x))
    (h : SameRouter r b s) : SameRouter r b (l.foldl f s) := List.foldlRecOn l f h fun s h x _ => hf s x h

theorem SameRouter.queueUntimed {home id : Nat} {ls : List Loc} (h : SameRouter r b s) : SameRouter r b (s.queueUntimed home id ls) :=
  .foldl _ (fun _ _ h => .ite h.setRg h.setCl) h

theorem SameRouter.slip {r' k : Nat} {u : EUnit} {i t n : Nat} {wr : Bool} (h : SameRouter r b s) : SameRouter r b (s.slip r' k u i t wr n) := by
  unfold State.slip
  extract_lets c hs has s1
  have h1 : SameRouter r b s1 := h.bump.bump.bump
  split
  · exact h1
  · exact .ite h1 h1.setCl

theorem SameRouter.mvSlips {r' k : Nat} {l : Lri} {src dst : List Loc} (h : SameRouter r b s) : SameRouter r b (s.mvSlips r' k l src dst) :=
  .foldl _ (fun _ _ h => h.slip) (.foldl _ (fun _ _ h => h.slip) h)

theorem SameRouter.readMasks {q : Req} {e : Env} {lo hi : Nat} (h : SameRouter r b s) : SameRouter r b (s.readMasks r q e lo hi) := by
  unfold State.readMasks
  split
  · exact h
  · exact ((h.data (State.noteReads_data ..)).data (State.noteChip_data ..)).mvSlips.bump

theorem SameRouter.sendTracked {r' id : Nat} {reads : Bool} {x : Pkt} (h : SameRouter r b s) : SameRouter r b (s.sendTracked r' id reads x) := by
  unfold State.sendTracked
  extract_lets tag s1
  exact SameRouter.data (h.of_rg (t := s1) rfl) (s1.sendPkt_data _)

theorem SameRouter.sendRuns {q : Req} {m : Nat} {e : Env} {src : Nat → Loc} {ptype aux : Nat} {ms : List Move} (h : SameRouter r b s) :
    SameRouter r b (s.sendRuns r q m e src ptype aux ms) := .foldl _ (fun _ _ h => h.sendTracked) h

theorem SameRouter.takeParity {k c : Nat} {l : Lri} {i dir level : Nat} (h : SameRouter r b s) :
    SameRouter r b (s.takeParity r k c l i dir level).2 := by
  unfold State.takeParity
  split
  · exact h
  · exact (h.setCl).of_rg (State.rg_setCx ..)

/-- R60: packets that leave mark their request as sent. -/
theorem SameRouter.sendWrites {q : Req} {m : Nat} {e : Env} {l : Lri} {o : MvOp} {far : FarEnd} (h : SameRouter r b s) :
    SameRouter r b (s.sendWrites r q m e l o far) := by
  unfold State.sendWrites
  extract_lets pl ms src s1 s2 s3
  have h2 : SameRouter r b s2 := ((h.data (State.noteSources_data ..)).mvSlips).setCl
  have h3 : SameRouter r b s3 := by
    refine h2.setRg rfl ?_
    rw [List.map_map]
    refine List.map_congr_left fun x _ => ?_
    show Req.mark (if x.id == q.id then _ else x) = _
    split <;> rfl
  split
  · exact h3.sendRuns
  · exact h3.sendRuns
  · exact .foldl _ (fun _ _ h => h.sendRuns) h3
  · split
    · exact h3
    · exact h3.takeParity.sendRuns

theorem SameRouter.sendDueOne {id : Nat} {e : Env} (h : SameRouter r b s) : SameRouter r b (s.sendDueOne r id e) := by
  unfold State.sendDueOne
  split
  · exact h
  · split
    · exact .ite h h.sendWrites
    · exact h

theorem SameRouter.sendReads {q : Req} {m : Nat} (h : SameRouter r b s) : SameRouter r b (s.sendReads r q m) := .foldl _ (fun _ _ h => h.sendTracked) h

theorem SameRouter.acceptFlag {q : Req} {target : Nat} {remote : Option Nat} {i n : Nat} (h : SameRouter r b s) :
    SameRouter r b (s.acceptFlag r q target remote i n) := by
  unfold State.acceptFlag
  split
  · exact .ite (SameRouter.bump h.setRg) h.bump
  · exact h.data (State.sendPkt_data ..)

/-- A request joins the accepted ones of its router. -/
theorem SameRouter.mem_accepted {q : Req} (h : SameRouter r (s.modRg r fun g => { g with accepted := g.accepted ++ [q] }) t) :
    (t.rg r).waiting = (s.rg r).waiting ∧ ∃ y ∈ (t.rg r).accepted, y.id = q.id ∧ y.kind = q.kind ∧ y.bound = q.bound := by
  obtain ⟨hw, ha⟩ := h
  rw [State.modRg_eq, State.rg_setRg_same] at hw ha
  have hm : q.mark ∈ (t.rg r).accepted.map Req.mark := by
    rw [ha]
    simp
  obtain ⟨y, hy, he⟩ := List.mem_map.1 hm
  simp only [Req.mark, Prod.mk.injEq] at he
  exact ⟨hw, y, hy, he⟩

/-- R60: what a request's acceptance sets going: an increment is made, any other request is among the accepted. -/
theorem State.startReq_spec (s : State) (r : Nat) (q : Req) (e : Env) :
    ((s.startReq r q e).rg r).waiting = (s.rg r).waiting
      ∧ ((∀ a b c d, q.kind ≠ .flag a b c d) → ∃ y ∈ ((s.startReq r q e).rg r).accepted, y.id = q.id ∧ y.kind = q.kind ∧ y.bound = q.bound) := by
  have joins : ∀ {t} {sent : Bool}, SameRouter r (s.modRg r fun g => { g with accepted := g.accepted ++ [{ q with sent := sent }] }) t →
      (t.rg r).waiting = (s.rg r).waiting
        ∧ ((∀ a b c d, q.kind ≠ .flag a b c d) → ∃ y ∈ (t.rg r).accepted, y.id = q.id ∧ y.kind = q.kind ∧ y.bound = q.bound) :=
    fun h => ⟨h.mem_accepted.1, fun _ => h.mem_accepted.2⟩
  generalize ht : s.startReq r q e = t
  unfold State.startReq at ht
  extract_lets pl far reads q' at ht
  split at ht
  · next hk =>
    subst ht
    exact ⟨(SameRouter.refl r s).acceptFlag.waiting, fun h => absurd hk (h _ _ _ _)⟩
  · extract_lets s1 at ht
    have h1 : SameRouter r (s.modRg r fun g => { g with accepted := g.accepted ++ [q'] }) s1 := (SameRouter.refl r _).queueUntimed.readMasks
    clear_value s1 far
    cases far <;> rw [← ht]
    · exact joins h1
    · exact joins (.ite h1.sendReads h1.sendDueOne)
  · rw [← ht]
    exact joins (SameRouter.refl r _).queueUntimed

theorem SameRouter.endWait {waited : Bool} {ls : List Loc} (h : SameRouter r b s) : SameRouter r b (s.endWait waited ls) :=
  .ite (SameRouter.bump (h.of_rg rfl)) h

theorem SameRouter.noteTorn {ls : List Loc} (h : SameRouter r b s) : SameRouter r b (s.noteTorn ls) := by
  refine .foldl _ (fun s p h => ?_) h.bump
  split
  · exact h.of_rg (State.rg_setCx ..)
  · exact h

/-- R57, R58, R61: a request that may be accepted waits no more. -/
theorem State.acceptReq_spec {q : Req} {e : Env} (h : s.mayAccept r q e = true) :
    (∀ y ∈ ((s.acceptReq r q e).rg r).waiting, y.id ≠ q.id)
      ∧ ((∀ a b c d, q.kind ≠ .flag a b c d) →
        ∃ y ∈ ((s.acceptReq r q e).rg r).accepted, y.id = q.id ∧ y.kind = q.kind ∧ y.bound = s.reqBound r (s.settled e r q)) := by
  have starts : ∀ (u : State) (x : Req), x.id = q.id → x.kind = q.kind → (∀ y ∈ (u.rg r).waiting, y.id ≠ q.id) →
      (∀ y ∈ ((u.startReq r x e).rg r).waiting, y.id ≠ q.id)
        ∧ ((∀ a b c d, q.kind ≠ .flag a b c d) → ∃ y ∈ ((u.startReq r x e).rg r).accepted, y.id = q.id ∧ y.kind = q.kind ∧ y.bound = x.bound) := by
    intro u x hid hkind hu
    obtain ⟨hw, ha⟩ := u.startReq_spec r x e
    rw [hw, ← hid, ← hkind]
    exact ⟨hid ▸ hu, ha⟩
  unfold State.acceptReq
  rw [if_pos h]
  refine starts _ _ rfl rfl fun y hy => ?_
  rw [State.modRg_eq, State.rg_setRg_same] at hy
  exact bne_iff_ne.1 (List.mem_filter.1 hy).2

end

/-! ### The rows -/

theorem State.regionRuns_of_up {s : State} {r : Nat} (hu : s.up = true) (hr : (s.rg r).inReset = false) (f : State → State) :
    s.regionRuns r f = f s := if_pos (by rw [hu, hr]; rfl)

theorem exec_moverCommandStart {s : State} {r k m : Nat} {e : Env} (hw : Instr.wf (.moverCommandStart r k m e) = true) (hu : s.up = true)
    (hr : (s.rg r).inReset = false) : exec (.moverCommandStart r k m e) s = .next (s.moverCommandStart r k m e) :=
  (if_pos hw).trans (congrArg Host.Outcome.next (State.regionRuns_of_up hu hr _))

theorem exec_translationWalk {s : State} {r id beats : Nat} {e : Env} {q : Req} (hw : Instr.wf (.translationWalk r id beats e) = true)
    (hu : s.up = true) (hr : (s.rg r).inReset = false) (hq : s.waitingReq r id = some q) (hm : s.mayWalk r q e = true) :
    exec (.translationWalk r id beats e) s = .next (s.translate r q beats e) := by
  refine (if_pos hw).trans (congrArg Host.Outcome.next ?_)
  rw [State.regionRuns_of_up hu hr, State.walkOne, hq]
  exact if_pos hm

theorem exec_admissionAccept {s : State} {r id : Nat} {e : Env} {q : Req} (hw : Instr.wf (.admissionAccept r id e) = true)
    (hq : s.waitingReq r id = some q) : exec (.admissionAccept r id e) s = .next (s.acceptReq r q e) := by
  refine (if_pos hw).trans (congrArg Host.Outcome.next ?_)
  rw [State.admissionAccept, hq]

theorem State.waitingReq_id {s : State} {r id : Nat} {q : Req} (h : s.waitingReq r id = some q) : q.id = id := by
  simpa using List.find?_some h

/-- Settles O16: a start keeps commands started, a translation walks or drops its request, an acceptance moves it. -/
theorem requestsPassTheRouter : Obligations.RequestsPassTheRouter := by
  refine ⟨fun s r k m e l o hw hu hr hl ho => ?_, fun s r id beats e q hw hu hr hq hm => ?_, fun s r id e q hw hq hm => ?_⟩
  · obtain ⟨hst, hacc, hquiet⟩ := State.moverCommandStart_spec (e := e) hl ho
    exact ⟨_, exec_moverCommandStart hw hu hr, hst, hacc, fun h => ⟨(hquiet h).queues, (hquiet h).kept⟩⟩
  · obtain ⟨hwalk, hkept⟩ := s.translate_walked (r := r) q beats e
    obtain rfl := State.waitingReq_id hq
    exact ⟨_, exec_translationWalk hw hu hr hq hm, hwalk, ((Standing.refl r 0 s).translate).accepted, hkept⟩
  · obtain rfl := State.waitingReq_id hq
    exact ⟨_, exec_admissionAccept hw hq, State.acceptReq_spec hm⟩

end Sys2Proof.Machine
end

section
/-!
SUPPORT. The ends of sweeps, scrubs and invalidations (R258, R404, R405, R411, R412): what they leave of contexts, regions, registers and memory.
-/
namespace Sys2Proof.Machine

variable {s t u b : State}

/-! ### One bit of a register -/

theorem State.bit_setB_same (s : State) (a : Nat) {i : Nat} (v : Bool) (h : i < 64) : (s.setB a i v).bit a i = v := by
  simp [State.bit, setBit_testBit _ _ _ h]

theorem State.bit_setB_ne (s : State) (a : Nat) {i j : Nat} (v : Bool) (h : j ≠ i) : (s.setB a i v).bit a j = s.bit a j := by
  simp [State.bit, setBit_testBit_ne _ _ _ _ h]

theorem State.reg_setB_ne (s : State) {a c : Nat} (i : Nat) (v : Bool) (h : c ≠ a) : (s.setB a i v).reg c = s.reg c := s.reg_setReg_ne _ h

/-! ### Leaves that leave the caches -/

/-- `t` is `s` but for what the caches of translations hold and for what waits to be translated again. -/
structure Unleaved (s t : State) : Prop where
  rest    : t = { s with regions := t.regions, ingress := t.ingress }
  rg      : ∀ r, t.rg r = { s.rg r with waiting := (t.rg r).waiting, misses := (t.rg r).misses, cache := (t.rg r).cache }
  waiting : ∀ r, (s.rg r).waiting = [] → (t.rg r).waiting = []

namespace Unleaved

theorem refl (s : State) : Unleaved s s := ⟨rfl, fun _ => rfl, fun _ h => h⟩

theorem trans (h : Unleaved s t) (h' : Unleaved t u) : Unleaved s u where
  rest := h'.rest.trans (congrArg (fun v : State => { v with regions := u.regions, ingress := u.ingress }) h.rest)
  rg r := (h'.rg r).trans (congrArg (fun g : Region => { g with waiting := (u.rg r).waiting, misses := (u.rg r).misses, cache := (u.rg r).cache }) (h.rg r))
  waiting r hr := h'.waiting r (h.waiting r hr)

theorem modRg {r : Nat} {f : Region → Region} (hf : ∀ g, f g = { g with waiting := (f g).waiting, misses := (f g).misses, cache := (f g).cache })
    (hw : ∀ g : Region, g.waiting = [] → (f g).waiting = []) : Unleaved s (s.modRg r f) where
  rest := rfl
  rg r' := by
    rw [State.modRg_eq, State.rg_setRg]
    split
    · next h => subst h; exact hf _
    · rfl
  waiting r' h := by
    rw [State.modRg_eq, State.rg_setRg]
    split
    · next e => subst e; exact hw _ h
    · exact h

theorem setIngress (s : State) (l : List Page) : Unleaved s { s with ingress := l } := ⟨rfl, fun _ => rfl, fun _ h => h⟩

theorem foldl {α : Type} {f : State → α → State} (hf : ∀ s x, Unleaved s (f s x)) : ∀ (l : List α) (s : State), Unleaved s (l.foldl f s)
  | [], s => .refl s
  | x :: xs, s => (hf s x).trans (foldl hf xs (f s x))

theorem job (h : Unleaved s t) (r : Nat) : (t.rg r).job = (s.rg r).job := by rw [h.rg r]
theorem cl (h : Unleaved s t) (r k : Nat) : t.cl r k = s.cl r k := (congrArg (fun v => State.cl v r k) h.rest).trans rfl
theorem cx (h : Unleaved s t) (c : Nat) : t.cx c = s.cx c := (congrArg (fun v => State.cx v c) h.rest).trans rfl
theorem reg (h : Unleaved s t) (a : Nat) : t.reg a = s.reg a := (congrArg (fun v => State.reg v a) h.rest).trans rfl
theorem inv (h : Unleaved s t) : t.inv = s.inv := (congrArg State.inv h.rest).trans rfl
theorem sameMemory (h : Unleaved s t) : SameMemory s t :=
  .of_eq ((congrArg State.mem h.rest).trans rfl) ((congrArg State.gran h.rest).trans rfl) ((congrArg State.flash h.rest).trans rfl)

end Unleaved

/-- A region's cache without the leaves an invalidation covers. -/
def Region.uncached (x : Nat × Bool × Nat) (g : Region) : Region := { g with cache := g.cache.filter fun p => !invCovers x p }

theorem Unleaved.uncached (s : State) (x : Nat × Bool × Nat) (l : List Nat) : Unleaved s (l.foldl (fun s r => s.modRg r (Region.uncached x)) s) :=
  .foldl (fun _ _ => .modRg (f := Region.uncached x) (fun _ => rfl) fun _ h => h) l s

theorem State.dropLeaves_unleaved (s : State) (x : Nat × Bool × Nat) : Unleaved s (s.dropLeaves x) :=
  (Unleaved.uncached s x (List.range 48)).trans (.setIngress _ _)

theorem Region.unwalk_waiting (x : Nat × Bool × Nat) {g : Region} (h : g.waiting = []) : (g.unwalk x).waiting = [] := by
  simp [Region.unwalk, h]

/-- What an invalidation that begins leaves, its mark in MEM_XLATE_STATUS apart (R258). -/
theorem State.invalidate_eq {c : Nat} {all : Bool} {page : Nat} (h : s.inv = none) :
    ∃ u, Unleaved s u ∧ s.invalidate c all page = { u.setB A.invStatus 0 true with inv := some (c, all, page) } :=
  ⟨_, (s.dropLeaves_unleaved _).trans (.foldl (fun _ _ => .modRg (fun _ => rfl) fun _ => Region.unwalk_waiting _) (List.range 48) _),
    if_neg (by simp [h])⟩

/-! ### A page of a sweep (R411, R412) -/

theorem State.writeAll_data (s : State) (via : Via) (ws : List Wr) : DataStep s (s.writeAll via ws) :=
  (DataStep.foldl _ (fun s w _ => s.writeChip_data w) s).trans (.foldl _ (fun s g _ => s.writeGran_data via g _) _)

theorem State.sweepGran_data (s : State) (c g : Nat) : DataStep s (s.sweepGran c g) := by
  unfold State.sweepGran
  extract_lets x m
  refine .ite (.refl s) ?_
  split
  · exact .refl s
  · exact ⟨rfl, fun _ _ => rfl⟩

/-- What the rewrite of a page leaves: contexts, clusters, and every register that no access to memory counts in. -/
structure PageSwept (s t : State) : Prop where
  cx  : ∀ c, t.cx c = s.cx c
  cl  : ∀ r k, t.cl r k = s.cl r k
  reg : ∀ a, ¬ DataReg a → t.reg a = s.reg a

theorem PageSwept.data (h : DataStep s t) : PageSwept s t := ⟨h.cx, h.cl, h.reg⟩

theorem PageSwept.trans (h : PageSwept s t) (h' : PageSwept t u) : PageSwept s u :=
  ⟨fun c => (h'.cx c).trans (h.cx c), fun r k => (h'.cl r k).trans (h.cl r k), fun a ha => (h'.reg a ha).trans (h.reg a ha)⟩

theorem PageSwept.unleaved (h : Unleaved s t) : PageSwept s t := ⟨h.cx, h.cl, fun a _ => h.reg a⟩

theorem PageSwept.ite {c : Prop} [Decidable c] (ht : PageSwept s t) (hu : PageSwept s u) : PageSwept s (if c then t else u) := by
  split
  · exact ht
  · exact hu

theorem sweepPages_not_data : ¬ DataReg A.sweepPages := fun h => by
  have h' := h.place
  simp only [A.sweepPages, A.sec] at h'
  omega

/-- A page that may be rewritten: `u` is the state once its granules and its leaf are. -/
theorem State.sweepPage_eq {c : Nat} {x : Page} {rest : List Page} (hx : (s.cx c).sweep = x :: rest) (hr : s.bgReady (Loc.partPages (.page x x.out)) = true) :
    ∃ u, PageSwept s u ∧ s.sweepPage c = (if rest.isEmpty = true then
        (((u.bump A.sweepPages 1).modCx c fun y => { y with sweep := rest }).modCx c fun y => { y with prev := none }).setKeyStatus c 1 (s.cx c).curGen
      else (u.bump A.sweepPages 1).modCx c fun y => { y with sweep := rest }) := by
  unfold State.sweepPage
  rw [hx]
  show ∃ u, PageSwept s u ∧ (if (!s.bgReady (Loc.partPages (.page x x.out))) = true then s else _) = _
  rw [hr, if_neg (by decide)]
  extract_lets s1 last s2 s3
  have h1 : PageSwept s s1 := .data (.ite (.foldl _ (fun s i _ => s.sweepGran_data c _) s) (.refl s))
  have h2 : PageSwept s s2 := .ite ((h1.trans (.data (State.writeAll_data ..))).trans (.unleaved (State.dropLeaves_unleaved ..))) h1
  refine ⟨s2, h2, ?_⟩
  have hgen : (s3.cx c).curGen = (s.cx c).curGen := by
    show (((s2.bump A.sweepPages 1).setCx c _).cx c).curGen = _
    rw [State.cx_setCx_same, State.cx_bump, h2.cx]
  rw [← hgen]

theorem State.fieldN_setKeyStatus (s : State) (c gen : Nat) : (s.setKeyStatus c 1 gen).fieldN (A.keyStatus c) 0 2 = 1 := by
  simp [State.setKeyStatus, State.fieldN, regField, field]

theorem sweepPages_ne_keyStatus {c : Nat} (hc : c < 16) : A.sweepPages ≠ A.keyStatus c := by
  simp only [A.sweepPages, A.keyStatus, A.sec]
  omega

theorem State.sweepPage_spec {c : Nat} {x : Page} {rest : List Page} (hc : c < 16) (hx : (s.cx c).sweep = x :: rest)
    (hr : s.bgReady (Loc.partPages (.page x x.out)) = true) (ht : s.sweepPage c = t) :
    ((t.cx c).sweep = rest ∧ t.reg A.sweepPages = BitVec.ofNat 64 (satAdd 48 (s.regN A.sweepPages) 1) ∧ (t.cx c).cur = (s.cx c).cur
      ∧ (rest = [] → (t.cx c).prev = none ∧ t.fieldN (A.keyStatus c) 0 2 = 1) ∧ (rest ≠ [] → (t.cx c).prev = (s.cx c).prev))
    ∧ (∀ c', c' ≠ c → t.cx c' = s.cx c') ∧ ∀ r k, t.cl r k = s.cl r k := by
  obtain ⟨u, hu, he⟩ := State.sweepPage_eq hx hr
  have hcount : (u.bump A.sweepPages 1).reg A.sweepPages = BitVec.ofNat 64 (satAdd 48 (s.regN A.sweepPages) 1) := by
    rw [State.reg_bump_one, State.regN, hu.reg _ sweepPages_not_data]
    rfl
  subst ht
  rw [he]
  split
  · next hrest =>
    rw [List.isEmpty_iff] at hrest
    refine ⟨⟨?_, ?_, ?_, fun _ => ⟨?_, State.fieldN_setKeyStatus ..⟩, fun h => absurd hrest h⟩, fun c' hc' => ?_, fun r k => ?_⟩
    · simp [State.setKeyStatus]
    · exact (State.reg_setReg_ne _ _ (sweepPages_ne_keyStatus hc)).trans hcount
    · simp [State.setKeyStatus, hu.cx]
    · simp [State.setKeyStatus]
    · simp [State.setKeyStatus, State.cx_setCx_ne _ _ hc', hu.cx]
    · simp [State.setKeyStatus, hu.cl]
  · next hrest =>
    rw [List.isEmpty_iff] at hrest
    refine ⟨⟨?_, hcount, ?_, fun h => absurd h hrest, fun _ => ?_⟩, fun c' hc' => ?_, fun r k => ?_⟩
    · simp
    · simp [hu.cx]
    · simp [hu.cx]
    · simp [State.cx_setCx_ne _ _ hc', hu.cx]
    · simp [hu.cl]

theorem State.sweepPage_held {c : Nat} {x : Page} {rest : List Page} (hx : (s.cx c).sweep = x :: rest)
    (hr : s.bgReady (Loc.partPages (.page x x.out)) = false) : s.sweepPage c = s := by
  unfold State.sweepPage
  rw [hx]
  dsimp only
  rw [hr]
  rfl

/-! ### A scrub (R405) -/

/-- Zeroing parts touches memory and its metadata only. -/
theorem State.zeroParts_rest (n : Nat) (l : List Nat) (s : State) :
    l.foldl (fun s a => s.zeroMem a n) s
      = { s with mem := (l.foldl (fun s a => s.zeroMem a n) s).mem, gran := (l.foldl (fun s a => s.zeroMem a n) s).gran } := by
  induction l generalizing s with
  | nil => rfl
  | cons a l ih => exact ih (s.zeroMem a n)

theorem State.read_zeroParts (n : Nat) (l : List Nat) (s : State) (b : Nat) :
    (l.foldl (fun s a => s.zeroMem a n) s).mem.read b = if ∃ a ∈ l, a ≤ b ∧ b < a + n then 0#8 else s.mem.read b := by
  induction l generalizing s with
  | nil => simp
  | cons a l ih =>
    rw [List.foldl_cons, ih, State.zeroMem, Memory.read_zeroRange]
    by_cases ha : a ≤ b ∧ b < a + n <;> simp [ha]

theorem State.gran_zeroParts (n : Nat) (l : List Nat) (s : State) (g : Nat) :
    Sparse.get Gran.clean (l.foldl (fun s a => s.zeroMem a n) s).gran g
      = if ∃ a ∈ l, a ≤ g ∧ g < a + n then Gran.clean else Sparse.get Gran.clean s.gran g := by
  induction l generalizing s with
  | nil => simp
  | cons a l ih =>
    rw [List.foldl_cons, ih, State.zeroMem, Sparse.get_erase]
    by_cases ha : a ≤ g ∧ g < a + n <;> simp [ha]

theorem State.scrubDone_eq (hb : s.bit A.scrubStatus 0 = true) (hr : ∀ a ∈ s.scrub, s.bgReady (Loc.partPages (.page (identityPage a) a)) = true) :
    s.scrubDone = ({ s.scrub.foldl (fun (s : State) a => s.zeroMem a 0x200000) s with scrub := [] }.setB A.scrubStatus 0 false).setB A.scrubStatus 1 true :=
  if_pos (by rw [hb, Bool.true_and, List.all_eq_true]; exact hr)

theorem granOf_of_part {a i : Nat} (ha : a % 32 = 0) (hi : i < 0x200000) : a ≤ granOf (a + i) ∧ granOf (a + i) < a + 0x200000 := by
  unfold granOf
  omega

theorem State.scrubDone_spec (hb : s.bit A.scrubStatus 0 = true) (hr : ∀ a ∈ s.scrub, s.bgReady (Loc.partPages (.page (identityPage a) a)) = true)
    (ht : s.scrubDone = t) :
    (∀ a ∈ s.scrub, ∀ i, i < 0x200000 → t.mem.read (a + i) = 0#8)
    ∧ (∀ a ∈ s.scrub, a % 32 = 0 → ∀ i, i < 0x200000 → t.granAt (a + i) = Gran.clean)
    ∧ (∀ c, (∀ a ∈ s.scrub, ¬(a ≤ c ∧ c < a + 0x200000)) → t.mem.read c = s.mem.read c)
    ∧ t.scrub = [] ∧ t.bit A.scrubStatus 0 = false ∧ t.bit A.scrubStatus 1 = true ∧ (∀ a, a ≠ A.scrubStatus → t.reg a = s.reg a) := by
  rw [State.scrubDone_eq hb hr] at ht
  subst ht
  refine ⟨fun a ha i hi => ?_, fun a ha h32 i hi => ?_, fun c hc => ?_, rfl, ?_, State.bit_setB_same _ _ _ (by decide), fun a ha => ?_⟩
  · exact (State.read_zeroParts _ _ _ (a + i)).trans (if_pos ⟨a, ha, by omega, by omega⟩)
  · exact (State.gran_zeroParts _ _ _ (granOf (a + i))).trans (if_pos ⟨a, ha, granOf_of_part h32 hi⟩)
  · exact (State.read_zeroParts ..).trans (if_neg fun ⟨a, ha, h⟩ => hc a ha h)
  · rw [State.bit_setB_ne _ _ _ (by decide), State.bit_setB_same _ _ _ (by decide)]
  · rw [State.reg_setB_ne _ _ _ ha, State.reg_setB_ne _ _ _ ha]
    exact (congrArg (fun v => State.reg v a) (State.zeroParts_rest 0x200000 s.scrub s)).trans rfl

/-! ### An invalidation and the releases that wait for it (R258, R404) -/

/-- A region whose release waits for an invalidation. -/
def Region.closes (g : Region) : Prop := ∃ c b, g.job = .closing c b

theorem State.endClose_of_not_closes {r : Nat} (h : ¬ (s.rg r).closes) : s.endClose r = s := by
  unfold State.endClose
  split
  · next c hj => exact absurd ⟨c, _, hj⟩ h
  · next c hj => exact absurd ⟨c, _, hj⟩ h
  · rfl

theorem State.endCloses_none {l : List Nat} (h : ∀ r ∈ l, ¬ (s.rg r).closes) : l.foldl State.endClose s = s := by
  induction l with
  | nil => rfl
  | cons r l ih =>
    rw [List.foldl_cons, State.endClose_of_not_closes (h r (by simp))]
    exact ih fun r' hr' => h r' (by simp [hr'])

/-- Where one region alone waits, the others' regions stay as they are. -/
theorem State.endCloses_one {r n : Nat} (hr : r < n) (h : ∀ r' < n, r' ≠ r → ¬ (s.rg r').closes)
    (hk : ∀ r', r' ≠ r → ((s.endClose r).rg r').job = (s.rg r').job) : (List.range n).foldl State.endClose s = s.endClose r := by
  obtain ⟨m, rfl⟩ : ∃ m, n = r + (m + 1) := ⟨n - r - 1, by omega⟩
  rw [List.range_add, List.range_succ_eq_map, List.map_cons, List.foldl_append, List.foldl_cons,
    State.endCloses_none fun r' hr' => h r' (by simp at hr'; omega) (by simp at hr'; omega)]
  refine State.endCloses_none fun r' hr' ⟨c, b, hj⟩ => ?_
  obtain ⟨hlt, hne⟩ : r' < r + (m + 1) ∧ r' ≠ r := by simp at hr'; omega
  exact h r' hlt hne ⟨c, b, (hk r' hne).symm.trans hj⟩

/-- The state once no invalidation runs any more. -/
def State.invOver (s : State) : State := { s.setB A.invStatus 0 false with inv := none }

theorem State.invComplete_pending {x : Nat × Bool × Nat} (hx : s.inv = some x) (hp : s.invPending x = true) : s.invComplete = s := by
  simp [State.invComplete, State.invDone, hx, hp]

theorem State.invComplete_over {x : Nat × Bool × Nat} (hx : s.inv = some x) (hp : s.invPending x = false) :
    s.invComplete = (List.range 48).foldl State.endClose s.invOver := by
  have hd : s.invDone = s.invOver := by simp [State.invDone, hx, hp, State.invOver]
  unfold State.invComplete
  rw [hd, hx]
  rfl

theorem State.clearCtx_rest (s : State) (c : Nat) : ∃ rs hs cs, s.clearCtx c = { s.dropLeaves (c, true, 0) with regs := rs, hidden := hs, ctxs := cs } := by
  unfold State.clearCtx
  generalize s.dropLeaves (c, true, 0) = u
  extract_lets st s1 s2
  refine ⟨s2.regs, s2.hidden, (s2.setCx c Ctx.init).ctxs, ?_⟩
  have h2 : s2 = { u with regs := s2.regs, hidden := s2.hidden, ctxs := s2.ctxs } := by
    unfold s2
    split
    · rfl
    · rfl
  exact congrArg (fun v : State => v.setCx c Ctx.init) h2

/-- Clearing a context leaves every region's job, memory and the invalidation that runs. -/
theorem State.clearCtx_kept (s : State) (c : Nat) :
    (∀ r, ((s.clearCtx c).rg r).job = (s.rg r).job) ∧ SameMemory s (s.clearCtx c) ∧ (s.clearCtx c).inv = s.inv := by
  obtain ⟨rs, hs, cs, h⟩ := s.clearCtx_rest c
  have hd := s.dropLeaves_unleaved (c, true, 0)
  generalize s.dropLeaves (c, true, 0) = u at h hd
  rw [h]
  exact ⟨hd.job, hd.sameMemory, hd.inv⟩

theorem State.cx_clearCtx (s : State) (c : Nat) : (s.clearCtx c).cx c = Ctx.init := State.cx_setCx_same ..

/-- R404: the release's own invalidation is over. -/
theorem State.endClose_last {r c : Nat} (hj : (s.rg r).job = .closing c true) :
    s.endClose r = ((s.clearCtx c).modRg r fun g => { g with job := .none }).setB A.assignStatus 0 false := by
  simp only [State.endClose, hj]

/-- R404: another's is over, and the release's own begins. -/
theorem State.endClose_first {r c : Nat} (hj : (s.rg r).job = .closing c false) : s.endClose r = s.beginClose r c := by
  simp only [State.endClose, hj]

theorem State.beginClose_spec {r c : Nat} (h : s.inv = none) (ht : s.beginClose r c = t) :
    (t.rg r).job = .closing c true ∧ (∀ r', r' ≠ r → (t.rg r').job = (s.rg r').job) ∧ t.inv = some (c, true, 0)
    ∧ t.bit A.invStatus 0 = true ∧ SameMemory s t := by
  obtain ⟨u, hu, he⟩ := State.invalidate_eq (c := c) (all := true) (page := 0) h
  unfold State.beginClose at ht
  rw [if_neg (by simp [h]), he] at ht
  subst ht
  refine ⟨by simp, fun r' hr' => ?_, rfl, State.bit_setB_same _ _ _ (by decide), hu.sameMemory.trans (.of_eq rfl rfl rfl)⟩
  exact (congrArg Region.job (State.rg_setRg_ne _ _ hr')).trans (hu.job r')

theorem State.invComplete_nobody {x : Nat × Bool × Nat} (hx : s.inv = some x) (hp : s.invPending x = false)
    (hn : ∀ r c b, r < 48 → (s.rg r).job ≠ .closing c b) : s.invComplete = s.invOver :=
  (State.invComplete_over hx hp).trans (State.endCloses_none fun r hr ⟨c, v, hj⟩ => hn r c v (List.mem_range.mp hr) hj)

theorem State.invComplete_one {x : Nat × Bool × Nat} {r : Nat} (hx : s.inv = some x) (hp : s.invPending x = false) (hr : r < 48)
    (hn : ∀ r' c b, r' < 48 → r' ≠ r → (s.rg r').job ≠ .closing c b)
    (hk : ∀ r', r' ≠ r → ((s.invOver.endClose r).rg r').job = (s.rg r').job) : s.invComplete = s.invOver.endClose r :=
  (State.invComplete_over hx hp).trans (State.endCloses_one hr (fun r' hr' hne ⟨c, v, hj⟩ => hn r' c v hr' hne hj) hk)

theorem State.invOver_memory (s : State) : SameMemory s s.invOver := .of_eq rfl rfl rfl

theorem State.invComplete_last {x : Nat × Bool × Nat} {r c : Nat} (hx : s.inv = some x) (hp : s.invPending x = false) (hr : r < 48)
    (hj : (s.rg r).job = .closing c true) (hn : ∀ r' c' b, r' < 48 → r' ≠ r → (s.rg r').job ≠ .closing c' b) (ht : s.invComplete = t) :
    (t.rg r).job = .none ∧ t.bit A.assignStatus 0 = false ∧ t.cx c = Ctx.init ∧ t.inv = none ∧ SameMemory s t := by
  have he := State.endClose_last (s := s.invOver) hj
  have hk : ∀ r', r' ≠ r → ((s.invOver.endClose r).rg r').job = (s.rg r').job := fun r' hr' => by
    rw [he]
    exact (congrArg Region.job (State.rg_setRg_ne _ _ hr')).trans ((s.invOver.clearCtx_kept c).1 r')
  rw [State.invComplete_one hx hp hr hn hk, he] at ht
  subst ht
  obtain ⟨-, hmem, hinv⟩ := s.invOver.clearCtx_kept c
  exact ⟨by simp, State.bit_setB_same _ _ _ (by decide), s.invOver.cx_clearCtx c, hinv,
    (s.invOver_memory.trans hmem).trans (.of_eq rfl rfl rfl)⟩

theorem State.invComplete_first {x : Nat × Bool × Nat} {r c : Nat} (hx : s.inv = some x) (hp : s.invPending x = false) (hr : r < 48)
    (hj : (s.rg r).job = .closing c false) (hn : ∀ r' c' b, r' < 48 → r' ≠ r → (s.rg r').job ≠ .closing c' b) (ht : s.invComplete = t) :
    (t.rg r).job = .closing c true ∧ t.inv = some (c, true, 0) ∧ t.bit A.invStatus 0 = true ∧ SameMemory s t := by
  have he := State.endClose_first (s := s.invOver) hj
  obtain ⟨hjob, hkeep, hinv, hbit, hmem⟩ := State.beginClose_spec (s := s.invOver) (r := r) (c := c) rfl rfl
  rw [State.invComplete_one hx hp hr hn fun r' hr' => (congrArg (fun v : State => (v.rg r').job) he).trans (hkeep r' hr'), he] at ht
  subst ht
  exact ⟨hjob, hinv, hbit, s.invOver_memory.trans hmem⟩

/-! ### The rows -/

theorem exec_sweepPageComplete {c : Nat} (hu : s.up = true) (hc : c < 16) : exec (.sweepPageComplete c) s = .next (s.sweepPage c) :=
  (if_pos (by simpa [Instr.wf] using hc)).trans (congrArg Host.Outcome.next (if_pos hu))

theorem exec_scrubDone (hu : s.up = true) : exec .scrubDone s = .next s.scrubDone := congrArg Host.Outcome.next (if_pos hu)

theorem exec_invalidationComplete (hu : s.up = true) : exec .invalidationComplete s = .next s.invComplete :=
  congrArg Host.Outcome.next (if_pos hu)

/-- Settles O40: each of the rows changes no more than its own end needs, and at most one region waits for an invalidation. -/
theorem securityWorkEnds : Obligations.SecurityWorkEnds := by
  refine fun s hu => ⟨fun c x rest hc hx => ?_, fun hb hr => ?_, fun x hx => ?_⟩
  · refine ⟨_, exec_sweepPageComplete hu hc, fun h => State.sweepPage_held hx h, ?_⟩
    by_cases hr : s.bgReady (Loc.partPages (.page x x.out)) = true
    · obtain ⟨hdone, hother⟩ := State.sweepPage_spec hc hx hr rfl
      exact ⟨fun _ => hdone, hother⟩
    · rw [Bool.not_eq_true] at hr
      rw [State.sweepPage_held hx hr]
      exact ⟨fun h => absurd (hr.symm.trans h) (by decide), fun _ _ => rfl, fun _ _ => rfl⟩
  · exact ⟨_, exec_scrubDone hu, State.scrubDone_spec hb hr rfl⟩
  · refine ⟨_, exec_invalidationComplete hu, State.invComplete_pending hx, fun hp hn => ?_, fun r c hp hr hj hn => ?_, fun r c hp hr hj hn => ?_⟩
    · rw [State.invComplete_nobody hx hp hn]
      exact ⟨rfl, State.bit_setB_same _ _ _ (by decide), fun a ha => State.reg_setB_ne _ _ _ ha, s.invOver_memory⟩
    · exact State.invComplete_last hx hp hr hj hn rfl
    · exact State.invComplete_first hx hp hr hj hn rfl

end Sys2Proof.Machine
end

section
/-!
SUPPORT. One step of the copier with a destination in the context's own space (R392, R393): what it writes is data, and the part it took up
is counted once.
-/
namespace Sys2Proof.Machine

variable {s t u b : State}

/-! ### The copier's writes -/

theorem snapCtl_not_data {c : Nat} (hc : c < 16) : ¬ DataReg (A.snapCtl c) := fun h => by
  have h' := h.place
  simp only [A.snapCtl, A.mem] at h'
  omega

theorem snapStatus_not_data {c : Nat} (hc : c < 16) : ¬ DataReg (A.snapStatus c) := fun h => by
  have h' := h.place
  simp only [A.snapStatus, A.mem] at h'
  omega

theorem snapSkipped_not_data : ¬ DataReg A.snapSkipped := fun h => by
  have h' := h.place
  simp only [A.snapSkipped, A.mem] at h'
  omega

theorem snapSkipped_ne_status {c : Nat} (hc : c < 16) : A.snapStatus c ≠ A.snapSkipped := by
  simp only [A.snapStatus, A.snapSkipped, A.mem]
  omega

/-- A destination of the context's own. -/
abbrev State.copiesHere (s : State) (c : Nat) : Prop := s.bit (A.snapCtl c) 2 = false

theorem DataStep.copiesHere {c : Nat} (h : DataStep s t) (hc : c < 16) (hs : s.copiesHere c) : t.copiesHere c := (h.bit (snapCtl_not_data hc)).trans hs

theorem State.snapWrite_data {c : Nat} (hs : s.copiesHere c) (id va : Nat) (bs : List ByteRead) : DataStep s (s.snapWrite c id va bs) := by
  unfold State.snapWrite
  rw [if_neg (by simp [hs])]
  extract_lets l
  exact .ite (s.writeLocs_data _) (.refl s)

theorem State.snapHead_data {c : Nat} (hs : s.copiesHere c) (complete : Nat) : DataStep s (s.snapHead c complete) := State.snapWrite_data hs ..

theorem State.copyGran_data (s : State) (c : Nat) (e : Env) (l : Loc) : DataStep s (s.copyGran c e l).2 := by
  unfold State.copyGran
  extract_lets now
  split
  · exact .refl s
  · exact ⟨rfl, fun _ _ => rfl⟩

/-- The range of 65536 granules is made opaque first: the kernel would compute it (see `ContextsNamed.copyPart`). -/
theorem State.copyPart_data {c : Nat} (hc : c < 16) (hs : s.copiesHere c) (i : Nat) (e : Env) (l : Loc) : DataStep s (s.copyPart c i e l) := by
  generalize hf : @State.copyPart = f
  delta State.copyPart at hf
  generalize List.range 65536 = gs at hf
  subst hf
  beta_reduce
  extract_lets s0
  have h0 : DataStep s s0 := s.noteReads_data ..
  split
  next bs s1 heq =>
    have h1 : DataStep s0 (bs, s1).2 := by
      rw [← heq]
      exact List.foldlRecOn _ _ (motive := fun p : _ × State => DataStep s0 p.2) (.refl s0) fun _ h _ _ => h.trans (State.copyGran_data ..)
    exact (h0.trans h1).trans (State.snapWrite_data ((h0.trans h1).copiesHere hc hs) ..)

/-! ### A part that is done -/

/-- The context after part `i` is done. -/
def Ctx.partDone (i : Nat) (skipped : Bool) (x : Ctx) : Ctx :=
  { x with snap := { x.snap with
    pend := x.snap.pend.filter fun y => y.1 != i, missing := if skipped then i :: x.snap.missing else x.snap.missing } }

/-- COPIED counts a part, and SNAP_SKIPPED one that was skipped. -/
def State.partCounted (s : State) (c i : Nat) (skipped : Bool) : State :=
  ((s.modCx c (Ctx.partDone i skipped)).setFld (A.snapStatus c) 3 20 (s.fieldN (A.snapStatus c) 3 20 + 1)).bump A.snapSkipped (if skipped then 1 else 0)

theorem State.snapPartDone_eq {c : Nat} (hs : s.copiesHere c) (i : Nat) (skipped : Bool) :
    ∃ u, DataStep s u ∧ s.snapPartDone c i skipped = u.partCounted c i skipped :=
  ⟨_, State.snapWrite_data hs .., rfl⟩

/-- A part taken up is counted once, as skipped where its source faults. -/
theorem State.snapTake_eq {c : Nat} (hc : c < 16) (hs : s.copiesHere c) (i : Nat) (e : Env) :
    ∃ u skipped, DataStep s u ∧ s.snapTake c i e = u.partCounted c i skipped
      ∧ ∀ f, s.ctxPlace c (nth 0 (s.cx c).snap.parts i) = .bad f → s.fieldN (A.snapStatus c) 3 20 ≠ 0 → skipped = true := by
  unfold State.snapTake
  extract_lets s1
  have h1 : DataStep s s1 := .ite (State.snapHead_data hs 0) (.refl s)
  have hs1 := h1.copiesHere hc hs
  split
  · obtain ⟨u, hu, he⟩ := State.snapPartDone_eq hs1 i true
    exact ⟨u, true, h1.trans hu, he, fun _ _ _ => rfl⟩
  · next hl =>
    rw [if_neg (by simp [hs])]
    have h2 := State.copyPart_data hc hs1 i e (s1.ctxPlace c (nth 0 (s.cx c).snap.parts i))
    obtain ⟨u, hu, he⟩ := State.snapPartDone_eq (h2.copiesHere hc hs1) i false
    refine ⟨u, false, (h1.trans h2).trans hu, he, fun f hf h0 => ?_⟩
    have hs1 : s1 = s := if_neg (by simp [h0])
    exact absurd (hs1 ▸ hf) (hl f)

theorem State.fieldN_partCounted {c : Nat} (hc : c < 16) (s : State) (i : Nat) (skipped : Bool) :
    (s.partCounted c i skipped).fieldN (A.snapStatus c) 3 20 = (s.fieldN (A.snapStatus c) 3 20 + 1) % 2 ^ 20
    ∧ (s.partCounted c i skipped).fieldN (A.snapStatus c) 0 3 = s.fieldN (A.snapStatus c) 0 3 := by
  have hr : (s.partCounted c i skipped).reg (A.snapStatus c) = setField (s.reg (A.snapStatus c)) 3 20 (s.fieldN (A.snapStatus c) 3 20 + 1) :=
    (State.reg_bump_ne _ _ (snapSkipped_ne_status hc)).trans (State.reg_setReg_same ..)
  exact ⟨(congrArg (regField · 3 20) hr).trans (regField_setField _ _ _ _ (by decide)),
    (congrArg (regField · 0 3) hr).trans (regField_setField_ne _ _ _ _ _ _ (by decide))⟩

theorem State.partCounted_skipped {c : Nat} (hc : c < 16) (s : State) (i : Nat) :
    (s.partCounted c i true).reg A.snapSkipped = BitVec.ofNat 64 (satAdd 48 (s.regN A.snapSkipped) 1) := by
  refine (State.reg_bump_one ..).trans ?_
  rw [State.regN, State.setFld_eq, State.reg_setReg_ne _ _ (snapSkipped_ne_status hc).symm]
  rfl

theorem State.partCounted_kept (s : State) (c i : Nat) (skipped : Bool) :
    (s.partCounted c i skipped).sent = s.sent ∧ (∀ r k, (s.partCounted c i skipped).cl r k = s.cl r k)
    ∧ ((s.partCounted c i skipped).cx c).snap.pend = (s.cx c).snap.pend.filter (fun y => y.1 != i) := by
  refine ⟨?_, fun r k => ?_, ?_⟩
  · simp [State.partCounted]
  · simp [State.partCounted]
  · simp [State.partCounted, Ctx.partDone]

theorem State.partCounted_here {c : Nat} (hc : c < 16) (hs : s.copiesHere c) (i : Nat) (skipped : Bool) : (s.partCounted c i skipped).copiesHere c := by
  have h1 : A.snapCtl c ≠ A.snapSkipped := by simp only [A.snapCtl, A.snapSkipped, A.mem]; omega
  have h2 : A.snapCtl c ≠ A.snapStatus c := by simp only [A.snapCtl, A.snapStatus, A.mem]; omega
  have hr : (s.partCounted c i skipped).reg (A.snapCtl c) = s.reg (A.snapCtl c) :=
    (State.reg_bump_ne _ _ h1).trans (State.reg_setReg_ne _ _ h2)
  exact (congrArg (fun w : Reg64 => w.toNat.testBit 2) hr).trans hs

/-! ### The end of a snapshot -/

theorem State.snapFinish_open {c : Nat} (h : (s.cx c).snap.pend ≠ []) : s.snapFinish c = s := by
  unfold State.snapFinish
  exact if_pos (by simp [h])

theorem State.snapFinish_last {c : Nat} (hs : s.copiesHere c) (hp : (s.cx c).snap.pend = []) (ha : s.snapAwaits c = false) :
    ∃ u, DataStep { s with sent := s.sent.filter fun x => x.region != snapHome c } u ∧ s.snapFinish c = u.setFld (A.snapStatus c) 0 3 3 := by
  refine ⟨_, State.snapHead_data (s := { s with sent := s.sent.filter fun x => x.region != snapHome c }) (c := c) hs 1, ?_⟩
  unfold State.snapFinish
  exact if_neg (by simp [hp, ha])

/-- The end, or what leaves it for later, keeps clusters, the list of parts, the count of parts and of skips. -/
theorem State.snapFinish_spec {c : Nat} (hc : c < 16) (hs : s.copiesHere c) (ha : s.snapAwaits c = false) (ht : s.snapFinish c = t) :
    (∀ r k, t.cl r k = s.cl r k) ∧ t.cx c = s.cx c ∧ t.fieldN (A.snapStatus c) 3 20 = s.fieldN (A.snapStatus c) 3 20
    ∧ t.reg A.snapSkipped = s.reg A.snapSkipped ∧ ((s.cx c).snap.pend ≠ [] → t.fieldN (A.snapStatus c) 0 3 = s.fieldN (A.snapStatus c) 0 3)
    ∧ ((s.cx c).snap.pend = [] → t.fieldN (A.snapStatus c) 0 3 = 3) := by
  subst ht
  by_cases hp : (s.cx c).snap.pend = []
  · obtain ⟨u, hu, he⟩ := State.snapFinish_last hs hp ha
    rw [he]
    have hcount : u.reg (A.snapStatus c) = s.reg (A.snapStatus c) := hu.reg _ (snapStatus_not_data hc)
    have hr : (u.setFld (A.snapStatus c) 0 3 3).reg (A.snapStatus c) = setField (s.reg (A.snapStatus c)) 0 3 3 := by
      rw [State.setFld_eq, State.reg_setReg_same, hcount]
    refine ⟨hu.cl, hu.cx c, ?_, ?_, fun h => absurd hp h, fun _ => ?_⟩
    · exact (congrArg (regField · 3 20) hr).trans (regField_setField_ne _ _ _ _ _ _ (by decide))
    · exact (State.reg_setReg_ne _ _ (snapSkipped_ne_status hc).symm).trans (hu.reg _ snapSkipped_not_data)
    · exact (congrArg (regField · 0 3) hr).trans (regField_setField _ _ _ _ (by decide))
  · rw [State.snapFinish_open hp]
    exact ⟨fun _ _ => rfl, rfl, rfl, rfl, fun _ => rfl, fun h => absurd h hp⟩

/-! ### The step -/

/-- No packet of the copier is under way. -/
def State.nothingFlies (s : State) (c : Nat) : Prop := ∀ x ∈ s.sent, x.region ≠ snapHome c

theorem State.flying_nil {c : Nat} (h : s.nothingFlies c) : s.flying c = [] := by
  have : (s.sent.filter fun x => x.region == snapHome c && x.req != 0) = [] := List.filter_eq_nil_iff.mpr fun x hx => by simp [h x hx]
  rw [State.flying, this]
  rfl

theorem State.snapLanded_same {c : Nat} (h : s.nothingFlies c) : s.snapLanded c = s := by
  unfold State.snapLanded
  rw [State.flying_nil h]
  rfl

theorem State.snapAwaits_nothing {c : Nat} (h : s.nothingFlies c) : s.snapAwaits c = false := by
  unfold State.snapAwaits
  rw [List.any_eq_false]
  exact fun x hx => by simp [h x hx]

theorem State.snapPartCopy_eq {c i : Nat} {e : Env} {a : Option Nat} {rest : List (Nat × Option Nat)} (hst : s.fieldN (A.snapStatus c) 0 3 = 2)
    (hs : s.copiesHere c) (hn : s.nothingFlies c) (hp : (s.cx c).snap.pend = (i, a) :: rest) (hr : s.partReady c i a = true) :
    s.snapPartCopy c e = (s.snapTake c i e).snapFinish c := by
  have hfind : ((i, a) :: rest).find? (fun x => !(s.flying c).contains x.1) = some (i, a) := by simp [State.flying_nil hn]
  have hs : s.bit (A.snapCtl c) 2 = false := hs
  unfold State.snapPartCopy
  rw [if_neg (by simp [hst]), hs]
  simp only [Bool.false_and, Bool.false_eq_true, if_false, State.snapLanded_same hn, hp, hfind, hr, if_true]

theorem exec_snapPartCopy {c : Nat} (e : Env) (hc : c < 16) (hu : s.up = true) (hi : s.portsIdle = true) :
    exec (.snapPartCopy c e) s = .next (s.snapPartCopy c e) :=
  (if_pos (by simpa [Instr.wf] using hc)).trans (congrArg Host.Outcome.next ((State.thenRetry_of_idle hi _).trans (if_pos hu)))

/-- Settles O44: the step is one part taken up and, with the last one, the header; each writes data and its own fields of SNAP_STATUS. -/
theorem snapshotPartIsCopied : Obligations.SnapshotPartIsCopied := by
  intro s c e i a rest hc hu hi hst hs hn hp hr
  obtain ⟨u, skipped, hd, he, hskip⟩ := State.snapTake_eq hc hs i e
  obtain ⟨hsent, hcl, hpend⟩ := u.partCounted_kept c i skipped
  obtain ⟨hcount, hstate⟩ := u.fieldN_partCounted hc i skipped
  have haw : (u.partCounted c i skipped).snapAwaits c = false :=
    State.snapAwaits_nothing fun x hx => hn x (by rwa [hsent, hd.sent] at hx)
  obtain ⟨fcl, fcx, fcount, fskip, fopen, flast⟩ := State.snapFinish_spec hc (State.partCounted_here hc (hd.copiesHere hc hs) i skipped) haw rfl
  have hrest : ((u.partCounted c i skipped).cx c).snap.pend = rest.filter (fun y => y.1 != i) := by
    rw [hpend, hd.cx, hp]
    simp
  have hstep : s.snapPartCopy c e = (u.partCounted c i skipped).snapFinish c :=
    (State.snapPartCopy_eq hst hs hn hp hr).trans (congrArg (fun v : State => v.snapFinish c) he)
  refine ⟨_, (exec_snapPartCopy e hc hu hi).trans (congrArg Host.Outcome.next hstep),
    ?_, ?_, fun ⟨hne, hall⟩ => ?_, fun f hf h0 => ?_, fun hlast => ?_, fun r k => ?_⟩
  · rw [fcx, hrest]
  · rw [fcount, hcount, hd.fieldN (snapStatus_not_data hc)]
  · have hkeep : rest.filter (fun y => y.1 != i) = rest := List.filter_eq_self.mpr fun y hy => by simp [hall y hy]
    rw [fopen (by rw [hrest, hkeep]; exact hne), hstate, hd.fieldN (snapStatus_not_data hc), hst]
  · rw [fskip, hskip f hf h0, u.partCounted_skipped hc, hd.regN snapSkipped_not_data]
  · exact flast (by rw [hrest, hlast]; rfl)
  · rw [fcl, hcl, hd.cl]

end Sys2Proof.Machine
end

section
/-!
SUPPORT. Resets of regions and dies and the loads that follow (R64, R403, R404, R475 to R478): what each part of them leaves in place.
-/
namespace Sys2Proof.Machine

variable {s t u b : State}

/-! ### A fold that establishes something of each member -/

theorem foldl_establishes {f : State → Nat → State} {Q : Nat → State → Prop} (hset : ∀ s q, Q q (f s q)) (hkeep : ∀ s q r, Q r s → Q r (f s q))
    (l : List Nat) (s : State) {r : Nat} (hr : r ∈ l) : Q r (l.foldl f s) := by
  have hlast (l : List Nat) : ∀ s, Q r s → Q r (l.foldl f s) := fun s h => List.foldlRecOn l f h fun s hs q _ => hkeep s q r hs
  induction l generalizing s with
  | nil => exact absurd hr (by simp)
  | cons q l ih =>
    rcases List.mem_cons.mp hr with rfl | hr
    · exact hlast l _ (hset s r)
    · exact ih (f s q) hr

/-! ### What resets leave in place -/

/-- The registers that a region's reset keeps but for its own count: the epochs of regions and the states of memory stacks. -/
def Lasting (a : Nat) : Prop := (0x11200 ≤ a ∧ a < 0x11380) ∨ (0x100000 ≤ a ∧ a < 0x114000 ∧ a % 0x1000 = 0)

theorem lasting_epoch {n : Nat} (hn : n < 48) : Lasting (A.regionEpoch n) := by
  simp only [Lasting, A.regionEpoch, A.sec]
  omega

theorem lasting_stack {k : Nat} (hk : k < 20) : Lasting (A.hbmStatus k) := by
  simp only [Lasting, A.hbmStatus, A.hbm]
  omega

theorem not_lasting_rtr (r o : Nat) : ¬ Lasting (A.rtr r o) := by
  simp only [Lasting, A.rtr]
  omega

theorem not_lasting_below {a : Nat} (h : a < 0x11200) : ¬ Lasting a := by
  simp only [Lasting]
  omega

theorem not_lasting_between {a : Nat} (h : 0x11380 ≤ a) (h' : a < 0x100000) : ¬ Lasting a := by
  simp only [Lasting]
  omega

/-- The streams and counters of clusters, the regions, the dies in reset and the lasting registers are as they were. -/
structure Aside (s t : State) : Prop where
  regions : t.regions = s.regions
  die     : t.dieReset = s.dieReset
  reg     : ∀ a, Lasting a → t.reg a = s.reg a
  cl      : ∀ r k, (t.cl r k).queues = (s.cl r k).queues ∧ (t.cl r k).lris = (s.cl r k).lris ∧ (t.cl r k).cnt = (s.cl r k).cnt
    ∧ (t.cl r k).dcache = (s.cl r k).dcache

namespace Aside

theorem refl (s : State) : Aside s s := ⟨rfl, rfl, fun _ _ => rfl, fun _ _ => ⟨rfl, rfl, rfl, rfl⟩⟩

theorem trans (h : Aside s t) (h' : Aside t u) : Aside s u where
  regions := h'.regions.trans h.regions
  die := h'.die.trans h.die
  reg a ha := (h'.reg a ha).trans (h.reg a ha)
  cl r k := by
    obtain ⟨hq, hl, hc, hd⟩ := h.cl r k
    obtain ⟨hq', hl', hc', hd'⟩ := h'.cl r k
    exact ⟨hq'.trans hq, hl'.trans hl, hc'.trans hc, hd'.trans hd⟩

theorem rg (h : Aside s t) (r : Nat) : t.rg r = s.rg r := by
  unfold State.rg
  rw [h.regions]

/-- An update of fields that none of the four speak of. -/
theorem of_eq (hg : t.regions = s.regions) (hd : t.dieReset = s.dieReset) (hr : t.regs = s.regs) (hc : t.clusters = s.clusters) : Aside s t where
  regions := hg
  die := hd
  reg a _ := by unfold State.reg; rw [hr]
  cl r k := by unfold State.cl; rw [hc]; exact ⟨rfl, rfl, rfl, rfl⟩

theorem setReg {a : Nat} {w : Reg64} (h : Aside b s) (ha : ¬ Lasting a) : Aside b (s.setReg a w) :=
  h.trans ⟨rfl, rfl, fun _ hb => s.reg_setReg_ne w fun e => ha (e ▸ hb), fun _ _ => ⟨rfl, rfl, rfl, rfl⟩⟩

theorem setCx {c : Nat} {x : Ctx} (h : Aside b s) : Aside b (s.setCx c x) := h.trans (.of_eq rfl rfl rfl rfl)

theorem zeroMem {a n : Nat} (h : Aside b s) : Aside b (s.zeroMem a n) := h.trans (.of_eq rfl rfl rfl rfl)

theorem scramble {a n : Nat} (h : Aside b s) : Aside b (s.scramble a n) := h.trans (.of_eq rfl rfl rfl rfl)

theorem modCl {r k : Nat} {f : Cluster → Cluster} (h : Aside b s) (hq : ∀ c, (f c).queues = c.queues := by exact fun _ => rfl)
    (hl : ∀ c, (f c).lris = c.lris := by exact fun _ => rfl) (hc : ∀ c, (f c).cnt = c.cnt := by exact fun _ => rfl)
    (hd : ∀ c, (f c).dcache = c.dcache := by exact fun _ => rfl) : Aside b (s.modCl r k f) := by
  refine h.trans ⟨rfl, rfl, fun _ _ => rfl, fun r' k' => ?_⟩
  rw [State.modCl_eq, State.cl_setCl]
  split
  · next e =>
    have : s.cl r k = s.cl r' k' := by unfold State.cl; rw [e]
    rw [this]
    exact ⟨hq _, hl _, hc _, hd _⟩
  · exact ⟨rfl, rfl, rfl, rfl⟩

theorem dropRegs {p : Nat → Bool} (h : Aside b s) (hp : ∀ a, Lasting a → p a = false) : Aside b (s.dropRegs p) :=
  h.trans ⟨rfl, rfl, fun a ha => by
    show Sparse.get _ (Sparse.erase p s.regs) a = _
    rw [Sparse.get_erase, hp a ha]
    rfl, fun _ _ => ⟨rfl, rfl, rfl, rfl⟩⟩

theorem ite {c : Prop} [Decidable c] (hs : Aside b s) (ht : Aside b t) : Aside b (if c then s else t) := by
  split
  · exact hs
  · exact ht

theorem foldl {α : Type} {f : State → α → State} (l : List α) (hf : ∀ s x, Aside b s → Aside b (f s x)) (h : Aside b s) : Aside b (l.foldl f s) :=
  List.foldlRecOn l f h fun _ h x _ => hf _ x h

end Aside

/-- Registers of a region's blocks lie above the lasting ones. -/
theorem not_in_blocks {r a : Nat} (h : Lasting a) : (A.rtr r 0 ≤ a : Bool) = false := by
  refine decide_eq_false ?_
  simp only [Lasting] at h
  simp only [A.rtr]
  omega

/-! ### A region's reset (R475, R480, R517) -/

theorem barBroken_not_lasting {c : Nat} (hc : c < 16) : ¬ Lasting (A.barBroken c) := by
  have h1 : 0x11380 ≤ A.barBroken c := by simp only [A.barBroken, A.sync]; omega
  have h2 : A.barBroken c < 0x100000 := by simp only [A.barBroken, A.sync]; omega
  exact not_lasting_between h1 h2

theorem Aside.abortSlices {r : Nat} (h : Aside b s) : Aside b (s.abortSlices r) :=
  .foldl _ (fun _ _ h => .ite (h.setReg (not_lasting_between (by decide) (by decide))).scramble h) h

theorem Aside.breakIds {c : Nat} (h : Aside b s) (hc : c < 16) : Aside b (s.breakIds c) := .ite h (h.setCx.setReg (barBroken_not_lasting hc))

theorem Aside.mendIds {r c : Nat} (h : Aside b s) (hc : c < 16) : Aside b (s.mendIds r c) :=
  .ite h (.ite ((h.setCx.setReg (barBroken_not_lasting hc)).trans (.of_eq rfl rfl rfl rfl)) h.setCx)

/-- Every cluster of a region as its reset leaves it. -/
theorem State.cl_resetClusters (s : State) (r : Nat) {k : Nat} (n : Nat) (hk : k < n) :
    ((List.range n).foldl (fun s k => s.modCl r k Cluster.reset) s).cl r k = (s.cl r k).reset := by
  induction n with
  | zero => omega
  | succ n ih =>
    rw [List.range_succ, List.foldl_append, List.foldl_cons, List.foldl_nil, State.modCl_eq, State.cl_setCl]
    by_cases hkn : k = n
    · subst hkn
      have hlater (m : Nat) : m ≤ k → ((List.range m).foldl (fun s k => s.modCl r k Cluster.reset) s).cl r k = s.cl r k := by
        induction m with
        | zero => exact fun _ => rfl
        | succ m ihm =>
          intro hm
          rw [List.range_succ, List.foldl_append, List.foldl_cons, List.foldl_nil, State.modCl_eq, State.cl_setCl_ne _ _ (by omega), ihm (by omega)]
      rw [if_pos rfl, hlater k le_rfl]
    · rw [if_neg (by omega), ih (by omega)]

/-- The clusters of a region reset, the rest of the state stays. -/
theorem State.resetClusters_rest (r n : Nat) (s : State) : (List.range n).foldl (fun s k => s.modCl r k Cluster.reset) s
    = { s with clusters := ((List.range n).foldl (fun s k => s.modCl r k Cluster.reset) s).clusters } :=
  List.foldlRecOn (motive := fun t : State => t = { s with clusters := t.clusters }) _ _ rfl fun t h k _ =>
    congrArg (fun v : State => { v with clusters := (t.modCl r k Cluster.reset).clusters }) h

/-- A region as its reset leaves it. -/
def Region.reset (g : Region) : Region :=
  { g with cnt := [], unseen := [], cache := [], waiting := [], misses := [], chisel := [], chiselCfg := 0, loaded := false, resetSince := true }

/-- What a region's reset leaves: its clusters and its own state cleared, its epoch counted, the rest aside. -/
structure ResetBy (r : Nat) (s t : State) : Prop where
  rg    : ∀ r', t.rg r' = if r' = r then (s.rg r).reset else s.rg r'
  die   : t.dieReset = s.dieReset
  reg   : ∀ a, Lasting a → a ≠ A.regionEpoch r → t.reg a = s.reg a
  epoch : t.fieldN (A.regionEpoch r) 0 31 = (s.fieldN (A.regionEpoch r) 0 31 + 1) % 2 ^ 31
  cl    : ∀ k, k < 9 → (t.cl r k).queues = Cluster.init.queues ∧ (t.cl r k).lris = [] ∧ (t.cl r k).cnt = [] ∧ (t.cl r k).dcache = []

theorem State.resetEffect_spec (hn : ContextsNamed s) {r : Nat} (hr : r < 48) : ResetBy r s (s.resetEffect r) := by
  generalize ht : s.resetEffect r = t
  unfold State.resetEffect at ht
  extract_lets s0 s1 s2 s3 s4 s5 at ht
  have h0 : Aside s s0 := (Aside.refl s).abortSlices
  have h1 : Aside s s1 := by
    unfold s1
    split
    · next c hc =>
      have hc : c < 16 := hn.1 r c (by rwa [h0.rg] at hc)
      exact (h0.breakIds hc).mendIds hc
    · exact h0
  have hs2 : s2 = { s1 with clusters := s2.clusters } := State.resetClusters_rest r 9 s1
  have hcl2 : ∀ k, k < 9 → s2.cl r k = (s1.cl r k).reset := fun k hk => s1.cl_resetClusters r 9 hk
  have h3 : Aside s2 s3 := (Aside.refl s2).dropRegs fun a ha => by
    simp only [resetByRegion, not_in_blocks ha, Bool.false_and, Bool.false_eq_true, if_false]
  clear_value s0 s1 s2 s3
  have hreg : ∀ a, Lasting a → s5.reg a = s.reg a := fun a ha =>
    ((h3.reg a ha).trans ((congrArg (fun v : State => v.reg a) hs2).trans rfl)).trans (h1.reg a ha)
  have hrg3 : ∀ r', s3.rg r' = s.rg r' := fun r' => ((h3.rg r').trans ((congrArg (fun v : State => v.rg r') hs2).trans rfl)).trans (h1.rg r')
  subst ht
  refine ⟨fun r' => ?_, ?_, fun a ha hne => ?_, ?_, fun k hk => ?_⟩
  · show (s3.setRg r (s3.rg r).reset).rg r' = _
    rw [State.rg_setRg, hrg3, hrg3]
  · exact (h3.die.trans ((congrArg State.dieReset hs2).trans rfl)).trans h1.die
  · exact (State.reg_setReg_ne _ _ hne).trans (hreg a ha)
  · rw [State.setFld_eq, State.fieldN, State.reg_setReg_same, regField_setField _ _ _ _ (by decide), State.fieldN, hreg _ (lasting_epoch hr)]
    exact Nat.mod_mod _ _
  · obtain ⟨hq, hl, hc, hd⟩ := h3.cl r k
    rw [hcl2 k hk] at hq hl hc hd
    show (s5.cl r k).queues = _ ∧ (s5.cl r k).lris = _ ∧ (s5.cl r k).cnt = _ ∧ (s5.cl r k).dcache = _
    exact ⟨hq, hl, hc, hd⟩

/-! ### What follows a region's reset (R403, R404, R476) -/

/-- The streams of clusters, the dies in reset and the lasting registers are as they were; every region is in reset as before, and region `r`
waits for nothing new. -/
structure Settling (r : Nat) (s t : State) : Prop where
  die     : t.dieReset = s.dieReset
  reg     : ∀ a, Lasting a → t.reg a = s.reg a
  cl      : ∀ r k, (t.cl r k).queues = (s.cl r k).queues ∧ (t.cl r k).lris = (s.cl r k).lris ∧ (t.cl r k).cnt = (s.cl r k).cnt
    ∧ (t.cl r k).dcache = (s.cl r k).dcache
  inReset : ∀ r', (t.rg r').inReset = (s.rg r').inReset
  waiting : (s.rg r).waiting = [] → (t.rg r).waiting = []
  cnt     : (t.rg r).cnt = (s.rg r).cnt
  loaded  : (s.rg r).loaded = false → (t.rg r).loaded = false

namespace Settling
variable {r : Nat}

theorem trans (h : Settling r s t) (h' : Settling r t u) : Settling r s u where
  die := h'.die.trans h.die
  reg a ha := (h'.reg a ha).trans (h.reg a ha)
  cl r k := by
    obtain ⟨hq, hl, hc, hd⟩ := h.cl r k
    obtain ⟨hq', hl', hc', hd'⟩ := h'.cl r k
    exact ⟨hq'.trans hq, hl'.trans hl, hc'.trans hc, hd'.trans hd⟩
  inReset r' := (h'.inReset r').trans (h.inReset r')
  waiting hw := h'.waiting (h.waiting hw)
  cnt := h'.cnt.trans h.cnt
  loaded hl := h'.loaded (h.loaded hl)

theorem aside (h : Aside s t) : Settling r s t where
  die := h.die
  reg := h.reg
  cl := h.cl
  inReset r' := by rw [h.rg]
  waiting hw := by rwa [h.rg]
  cnt := by rw [h.rg]
  loaded hl := by rwa [h.rg]

theorem unleaved (h : Unleaved s t) : Settling r s t where
  die := (congrArg State.dieReset h.rest).trans rfl
  reg a _ := h.reg a
  cl r k := by rw [h.cl]; exact ⟨rfl, rfl, rfl, rfl⟩
  inReset r' := by rw [h.rg r']
  waiting hw := h.waiting r hw
  cnt := by rw [h.rg r]
  loaded hl := by rw [h.rg r]; exact hl

theorem modRg (s : State) {f : Region → Region} (hi : (f (s.rg r)).inReset = (s.rg r).inReset := by rfl) (hw : (f (s.rg r)).waiting = (s.rg r).waiting := by rfl)
    (hc : (f (s.rg r)).cnt = (s.rg r).cnt := by rfl) (hl : (s.rg r).loaded = false → (f (s.rg r)).loaded = false := by exact fun h => h) :
    Settling r s (s.modRg r f) where
  die := rfl
  reg _ _ := rfl
  cl _ _ := ⟨rfl, rfl, rfl, rfl⟩
  inReset r' := by
    rw [State.modRg_eq, State.rg_setRg]
    split
    · next e => rw [e, hi]
    · rfl
  waiting h := by rw [State.modRg_eq, State.rg_setRg_same, hw, h]
  cnt := by rw [State.modRg_eq, State.rg_setRg_same, hc]
  loaded h := by rw [State.modRg_eq, State.rg_setRg_same]; exact hl h

end Settling

/-- A region whose pending retirements and widths have taken effect. -/
def Region.applied (g : Region) : Region := { g with retirePend := [], widthPend := [] }

theorem regionShape_not_lasting {r : Nat} (hr : r < 48) : ¬ Lasting (A.regionShape r) :=
  not_lasting_below (by simp only [A.regionShape, A.cfg]; omega)

theorem Aside.gateSpare {r : Nat} (h : Aside b s) : Aside b (s.gateSpare r) := by
  unfold State.gateSpare
  extract_lets c gate s1
  have h1 : Aside b s1 := Aside.modCl (f := fun c => { c with gated := gate }) h
  exact .ite h1.zeroMem h1

theorem Aside.reshape {r : Nat} (hr : r < 48) (h : Aside b s) : Aside b (s.reshape r) :=
  ((h.setReg (regionShape_not_lasting hr)).gateSpare.setReg (not_lasting_below (by decide))).setReg (not_lasting_below (by decide))

/-- Retirements and widths that wait take effect; the region itself holds no more of them. -/
theorem State.applyPending_aside {r : Nat} (hr : r < 48) (s : State) : ∃ u, Aside s u ∧ Aside (u.modRg r Region.applied) (s.applyPending r) := by
  unfold State.applyPending
  extract_lets g s1 s2
  have h1 : Aside s s1 := .foldl _ (fun _ _ h => (h.setReg (not_lasting_rtr _ _)).setReg (not_lasting_rtr _ _)) (.refl s)
  have h2 : Aside s s2 := .foldl _ (fun _ _ h => h.modCl.setReg (not_lasting_rtr _ _)) h1
  exact ⟨s2, h2, (Aside.refl (s2.modRg r Region.applied)).reshape hr⟩

theorem State.rg_applyPending {r : Nat} (hr : r < 48) (s : State) : (s.applyPending r).rg r = (s.rg r).applied := by
  obtain ⟨u, hu, h⟩ := s.applyPending_aside hr
  rw [h.rg, State.modRg_eq, State.rg_setRg_same, hu.rg]

theorem Settling.applyPending {r : Nat} (hr : r < 48) (s : State) : Settling r s (s.applyPending r) := by
  obtain ⟨u, hu, h⟩ := s.applyPending_aside hr
  exact ((Settling.aside hu).trans (.modRg u)).trans (.aside h)

theorem keyStatus_not_lasting {c : Nat} (hc : c < 16) : ¬ Lasting (A.keyStatus c) :=
  not_lasting_below (by simp only [A.keyStatus, A.sec]; omega)

theorem Aside.assignPrepare {r c : Nat} (hc : c < 16) (h : Aside b s) : Aside b (s.assignPrepare r c) := by
  have h1 : Aside b (s.dropRegs (counterOfRegion r)) := h.dropRegs fun a ha => by
    simp only [counterOfRegion, not_in_blocks ha, Bool.false_and]
  exact .ite (Aside.setReg (Aside.setCx (h1.trans (.of_eq rfl rfl rfl rfl))) (keyStatus_not_lasting hc)) h1

theorem Aside.zeroRegion {r : Nat} (h : Aside b s) : Aside b (s.zeroRegion r) := (h.foldl _ fun _ _ h => h.zeroMem).zeroMem

theorem State.read_zeroRegion (s : State) (r : Nat) {i : Nat} (hi : i < 0x1000000) : (s.zeroRegion r).mem.read (rbAddr r i) = 0#8 := by
  have hrb : rbAddr r i = rbAddr r 0 + i := rfl
  unfold State.zeroRegion
  exact (Memory.read_zeroRange ..).trans (if_pos (by omega))

/-- What a release leaves of its region. -/
def Region.released (g : Region) : Region :=
  { g with owner := none, job := .none, loaded := false, resetSince := false, map := [], mapLoaded := false, mapReject := false, seed := 0 }

/-- The end of a release, or the wait for its invalidation, touches no memory and no owner. -/
theorem State.beginClose_settling {r c : Nat} (s : State) :
    Settling r s (s.beginClose r c) ∧ ((s.beginClose r c).rg r).owner = (s.rg r).owner ∧ (s.beginClose r c).mem = s.mem := by
  by_cases h : s.inv = none
  · obtain ⟨u, hu, he⟩ := State.invalidate_eq (c := c) (all := true) (page := 0) h
    have hb : s.beginClose r c = ({ u.setB A.invStatus 0 true with inv := some (c, true, 0) } : State).modRg r fun g => { g with job := .closing c true } := by
      unfold State.beginClose
      rw [if_neg (by simp [h]), he]
    have hset : Settling r u { u.setB A.invStatus 0 true with inv := some (c, true, 0) } :=
      .aside (((Aside.refl u).setReg (not_lasting_between (by decide) (by decide))).trans (.of_eq rfl rfl rfl rfl))
    rw [hb]
    refine ⟨((Settling.unleaved hu).trans hset).trans (.modRg _), ?_, ?_⟩
    · rw [State.modRg_eq, State.rg_setRg_same]
      show (u.rg r).owner = _
      rw [hu.rg r]
    · exact (congrArg State.mem hu.rest).trans rfl
  · have hb : s.beginClose r c = s.modRg r fun g => { g with job := .closing c false } := if_pos (by simpa [Option.isSome_iff_ne_none] using h)
    rw [hb]
    exact ⟨.modRg s, by rw [State.modRg_eq, State.rg_setRg_same], rfl⟩

theorem assignStatus_not_lasting : ¬ Lasting A.assignStatus := not_lasting_below (by decide)

/-- R404: the release takes the owner away, and the region buffer reads 0. -/
theorem State.finishRelease_spec {r : Nat} (s : State) : Settling r s (s.finishRelease r)
    ∧ ((s.rg r).owner.isSome = true → ((s.finishRelease r).rg r).owner = none ∧ ∀ i, i < 0x1000000 → (s.finishRelease r).mem.read (rbAddr r i) = 0#8) := by
  have h1 : Aside s (s.zeroRegion r) := (Aside.refl s).zeroRegion
  have hz := fun i (hi : i < 0x1000000) => s.read_zeroRegion r hi
  unfold State.finishRelease
  generalize s.zeroRegion r = s0 at h1 hz
  extract_lets s1 s2 s3
  split
  · next ho =>
    rw [h1.rg] at ho
    exact ⟨.aside h1, fun hs => by simp [ho] at hs⟩
  · next c ho =>
    have hs2 : Settling r s1 s2 := .modRg (f := Region.released) s1 (hl := fun _ => rfl)
    have h23 : Aside s2 s3 := (Aside.refl s2).setReg (not_lasting_rtr _ _)
    have h3 : Settling r s s3 := ((Settling.aside h1).trans hs2).trans (.aside h23)
    have ho3 : (s3.rg r).owner = none := by
      rw [h23.rg]
      exact congrArg Region.owner (State.rg_setRg_same ..)
    have hm3 : s3.mem = s0.mem := rfl
    clear_value s3
    split
    · obtain ⟨hset, howner, hmem⟩ := s3.beginClose_settling (r := r) (c := c)
      exact ⟨h3.trans hset, fun _ => ⟨howner.trans ho3, fun i hi => by rw [hmem, hm3]; exact hz i hi⟩⟩
    · exact ⟨h3.trans (.aside ((Aside.refl s3).setReg assignStatus_not_lasting)),
        fun _ => ⟨ho3, fun i hi => (congrArg (fun m : Memory => m.read (rbAddr r i)) hm3).trans (hz i hi)⟩⟩

/-- A region that comes out of its reset. -/
def Region.out (g : Region) : Region := { g with inReset := false, closing := false }

/-- The state in which a region's router works again. -/
def State.reopened (s : State) (r : Nat) : State := ((s.modRg r Region.out).setB (A.regionEpoch r) 31 false).adoptShares r

theorem State.rg_reopened (s : State) (r r' : Nat) : (s.reopened r).rg r' = if r' = r then (s.rg r).out else s.rg r' := State.rg_setRg ..

/-- What follows the reset, the router reopened. -/
theorem State.afterReset_spec (hn : ContextsNamed s) {r : Nat} (hr : r < 48) : Settling r (s.reopened r) (s.afterReset r)
    ∧ ((s.rg r).job ≠ .release → ((s.afterReset r).rg r).owner = (s.rg r).owner)
    ∧ ((s.rg r).job = .release → (s.rg r).owner.isSome = true →
        ((s.afterReset r).rg r).owner = none ∧ ∀ i, i < 0x1000000 → (s.afterReset r).mem.read (rbAddr r i) = 0#8) := by
  have hrg : (s.reopened r).rg r = (s.rg r).out := (s.rg_reopened r r).trans (if_pos rfl)
  have hp := Settling.applyPending hr (s.reopened r)
  have hprg := State.rg_applyPending hr (s.reopened r)
  rw [hrg] at hprg
  unfold State.afterReset
  extract_lets s1
  have hs1 : s1 = s.reopened r := rfl
  clear_value s1
  rw [hs1]
  split
  · next c hj =>
    rw [hrg] at hj
    have hc : c < 16 := hn.2 r c hj
    have h2 : Aside _ (((s.reopened r).applyPending r).assignPrepare r c) := (Aside.refl _).assignPrepare hc
    refine ⟨hp.trans (.aside h2), fun _ => ?_, fun h => absurd (hj.symm.trans h) (by simp)⟩
    rw [h2.rg, hprg]
    rfl
  · next hj =>
    rw [hrg] at hj
    obtain ⟨hset, hrel⟩ := ((s.reopened r).applyPending r).finishRelease_spec (r := r)
    exact ⟨hp.trans hset, fun h => absurd hj h, fun _ ho => hrel (by rw [hprg]; exact ho)⟩
  · next ha hrel =>
    rw [hrg] at hrel
    refine ⟨?_, fun _ => ?_, fun h => absurd h hrel⟩
    · split
      · exact .aside (.refl _)
      · exact hp.trans (.modRg _)
    · split
      · rw [hrg]; rfl
      · rw [State.modRg_eq, State.rg_setRg_same, hprg]; rfl

end Sys2Proof.Machine
end

section
/-!
SUPPORT. The rows that begin and end resets and loads (R64, R403, R475 to R478).
-/
namespace Sys2Proof.Machine

variable {s t u b : State}

/-! ### A die core that is silent (R475) -/

/-- A region whose reset begins with its die's. -/
def Region.begun (g : Region) : Region :=
  { g with inReset := true, closing := true, waiting := [], misses := [], loaded := false, job := if g.job == .none then .reset else g.job }

/-- The reset of a die begins in region `r`. -/
def State.beginOne (s : State) (r : Nat) : State := (s.beginReset r).modRg r fun g => { g with job := if g.job == .none then .reset else g.job }

theorem State.rg_beginOne (s : State) (r r' : Nat) : (s.beginOne r).rg r' = if r' = r then (s.rg r).begun else s.rg r' := by
  rw [State.beginOne, State.modRg_eq, State.rg_setRg, State.beginReset, State.setB_eq, State.rg_setReg, State.rg_setReg, State.modRg_eq, State.rg_setRg_same]
  split
  · rfl
  · next h => exact State.rg_setRg_ne _ _ h

theorem State.beginOne_memory (s : State) (r : Nat) : SameMemory s (s.beginOne r) := .of_eq rfl rfl rfl

theorem mem_dieRegions {d r : Nat} : r ∈ (List.range 12).map (fun i => 12 * d + i) ↔ dieOf r = d := by
  simp only [List.mem_map, List.mem_range, dieOf]
  constructor
  · rintro ⟨i, hi, rfl⟩
    omega
  · intro h
    exact ⟨r % 12, by omega, by omega⟩

theorem State.beginDieReset_spec (d : Nat) (ht : s.beginDieReset d = t) :
    d ∈ t.dieReset ∧ (∀ r, dieOf r = d → (t.rg r).inReset = true) ∧ (∀ r, dieOf r ≠ d → t.rg r = s.rg r) ∧ SameMemory s t := by
  unfold State.beginDieReset at ht
  extract_lets rs s1 s2 at ht
  have hs1 : s1 = rs.foldl State.beginOne s := rfl
  have hin : ∀ r ∈ rs, (s1.rg r).inReset = true := fun r hr => by
    rw [hs1]
    refine foldl_establishes (Q := fun r s => (s.rg r).inReset = true) (fun s q => ?_) (fun s q r h => ?_) rs s hr
    · rw [State.rg_beginOne, if_pos rfl]; rfl
    · rw [State.rg_beginOne]
      split
      · rfl
      · exact h
  have hout : ∀ r, r ∉ rs → s1.rg r = s.rg r := fun r hr => by
    rw [hs1]
    exact List.foldlRecOn (motive := fun t : State => t.rg r = s.rg r) _ _ rfl fun t h q hq => by
      have hne : r ≠ q := fun e => hr (e ▸ hq)
      rw [State.rg_beginOne, if_neg hne, h]
  have hmem : SameMemory s s1 := by
    rw [hs1]
    exact List.foldlRecOn (motive := fun t : State => SameMemory s t) _ _ (.of_eq rfl rfl rfl) fun t h q _ => h.trans (t.beginOne_memory q)
  clear_value s1
  have hlast : RegsOnly (fun _ => True) s2 t := ht ▸ .foldl _ (fun s _ _ => .setReg s _ trivial) s2
  have h12 : SameMemory s1 s2 := .of_eq rfl rfl rfl
  refine ⟨?_, fun r hr => ?_, fun r hr => ?_, (hmem.trans h12).trans hlast.sameMemory⟩
  · have hd : t.dieReset = s1.dieReset ++ [d] := (congrArg State.dieReset hlast.rest).trans rfl
    rw [hd]
    simp
  · rw [hlast.rg]
    exact hin r (mem_dieRegions.mpr hr)
  · rw [hlast.rg]
    exact hout r fun h => hr (mem_dieRegions.mp h)

theorem exec_dieCoreTimeout {d ms : Nat} (hu : s.up = true) (hd : d < 4) (hms : 100 ≤ ms) (hn : d ∉ s.dieReset) (ha : s.activating = false) :
    exec (.dieCoreTimeout d ms) s = .next (s.beginDieReset d) := by
  have hb : (s.boot == .ready) = true := hu
  exact (if_pos (by simpa [Instr.wf] using hd)).trans (congrArg Host.Outcome.next (if_pos (by simp [hb, hms, hn, ha])))

/-! ### The end of a region's reset (R64, R404, R476) -/

/-- A region's reset and what follows it. -/
def State.resetOver (s : State) (r : Nat) : State := (s.resetEffect r).afterReset r

/-- What the end of region `r`'s reset leaves of the region, of its clusters and of its epoch, and what it leaves in place elsewhere. -/
structure ResetOver (r : Nat) (s t : State) : Prop where
  die     : t.dieReset = s.dieReset
  reg     : ∀ a, Lasting a → a ≠ A.regionEpoch r → t.reg a = s.reg a
  epoch   : t.fieldN (A.regionEpoch r) 0 31 = (s.fieldN (A.regionEpoch r) 0 31 + 1) % 2 ^ 31
  done    : t.bit (A.regionEpoch r) 31 = false
  cl      : ∀ k, k < 9 → (t.cl r k).queues = Cluster.init.queues ∧ (t.cl r k).lris = [] ∧ (t.cl r k).cnt = [] ∧ (t.cl r k).dcache = []
  inReset : ∀ r', (t.rg r').inReset = if r' = r then false else (s.rg r').inReset
  waiting : (t.rg r).waiting = []
  cnt     : (t.rg r).cnt = []
  loaded  : (t.rg r).loaded = false
  kept    : (s.rg r).job ≠ .release → (t.rg r).owner = (s.rg r).owner
  freed   : (s.rg r).job = .release → (s.rg r).owner.isSome = true → (t.rg r).owner = none ∧ ∀ i, i < 0x1000000 → t.mem.read (rbAddr r i) = 0#8

theorem Lasting.ne_share {a : Nat} (h : Lasting a) (r : Nat) : a ≠ A.admShare r := fun e => not_lasting_rtr r 0x200 (e.symm ▸ h :)

theorem State.reg_reopened_epoch (s : State) {r : Nat} (hr : r < 48) :
    (s.reopened r).reg (A.regionEpoch r) = setBit (s.reg (A.regionEpoch r)) 31 false := by
  rw [State.reopened, State.adoptShares, State.reg_setReg_ne _ _ ((lasting_epoch hr).ne_share r), State.setB_eq, State.reg_setReg_same]
  rfl

theorem State.reg_reopened_ne (s : State) {r a : Nat} (ha : Lasting a) (hne : a ≠ A.regionEpoch r) : (s.reopened r).reg a = s.reg a :=
  (State.reg_setReg_ne _ _ (ha.ne_share r)).trans (State.reg_setReg_ne _ _ hne)

theorem regField_setBit_above (w : Reg64) (b : Bool) : regField (setBit w 31 b) 0 31 = regField w 0 31 := by
  unfold setBit
  exact regField_setField_ne _ _ _ _ _ _ (by decide)

theorem State.cl_reopened (s : State) (r r' k : Nat) : (s.reopened r).cl r' k = s.cl r' k := by
  rw [State.reopened, State.adoptShares, State.cl_setReg, State.setB_eq, State.cl_setReg, State.modRg_eq, State.cl_setRg]

theorem State.dieReset_reopened (s : State) (r : Nat) : (s.reopened r).dieReset = s.dieReset := by
  rw [State.reopened, State.adoptShares, State.setReg_dieReset, State.setB_eq, State.setReg_dieReset, State.modRg_eq, State.setRg_dieReset]

theorem State.resetOver_spec (hn : ContextsNamed s) {r : Nat} (hr : r < 48) : ResetOver r s (s.resetOver r) := by
  have h1 := State.resetEffect_spec hn hr
  have hn1 : ContextsNamed (s.resetEffect r) := hn.resetEffect
  unfold State.resetOver
  generalize s.resetEffect r = s1 at h1 hn1
  obtain ⟨h2, hkept, hfreed⟩ := State.afterReset_spec hn1 hr
  have hrg : s1.rg r = (s.rg r).reset := (h1.rg r).trans (if_pos rfl)
  have hout : (s1.reopened r).rg r = (s.rg r).reset.out := ((s1.rg_reopened r r).trans (if_pos rfl)).trans (congrArg Region.out hrg)
  have hepoch : (s1.afterReset r).reg (A.regionEpoch r) = setBit (s1.reg (A.regionEpoch r)) 31 false :=
    (h2.reg _ (lasting_epoch hr)).trans (s1.reg_reopened_epoch hr)
  rw [hrg] at hkept hfreed
  refine ⟨(h2.die.trans (s1.dieReset_reopened r)).trans h1.die, fun a ha hne => ?_, ?_, ?_, fun k hk => ?_, fun r' => ?_, h2.waiting (by rw [hout]; rfl), ?_,
    h2.loaded (by rw [hout]; rfl), hkept, hfreed⟩
  · rw [h2.reg a ha, s1.reg_reopened_ne ha hne, h1.reg a ha hne]
  · exact ((congrArg (regField · 0 31) hepoch).trans (regField_setBit_above _ _)).trans h1.epoch
  · exact (congrArg (fun w : Reg64 => w.toNat.testBit 31) hepoch).trans (setBit_testBit _ _ _ (by decide))
  · obtain ⟨hq, hl, hc, hd⟩ := h2.cl r k
    obtain ⟨hq', hl', hc', hd'⟩ := h1.cl k hk
    rw [State.cl_reopened] at hq hl hc hd
    exact ⟨hq.trans hq', hl.trans hl', hc.trans hc', hd.trans hd'⟩
  · rw [h2.inReset, State.rg_reopened]
    split
    · rfl
    · next hne => rw [h1.rg, if_neg hne]
  · rw [h2.cnt, hout]; rfl

theorem resetStatus_not_lasting : ¬ Lasting A.resetStatus := not_lasting_between (by decide) (by decide)

theorem ResetOver.setReg {r a : Nat} {w : Reg64} (h : ResetOver r s t) (hr : r < 48) (ha : ¬ Lasting a) : ResetOver r s (t.setReg a w) :=
  have hreg : ∀ b, Lasting b → (t.setReg a w).reg b = t.reg b := fun _ hb => t.reg_setReg_ne w fun e => ha (e ▸ hb)
  { h with
    reg := fun b hb hne => (hreg b hb).trans (h.reg b hb hne)
    epoch := (congrArg (regField · 0 31) (hreg _ (lasting_epoch hr))).trans h.epoch
    done := (congrArg (fun w : Reg64 => w.toNat.testBit 31) (hreg _ (lasting_epoch hr))).trans h.done }

theorem State.regionResetDone_spec (hn : ContextsNamed s) {r : Nat} (hr : r < 48) (hi : (s.rg r).inReset = true) (ha : (s.rg r).accepted = [])
    (hd : dieOf r ∉ s.dieReset) : ResetOver r s (s.regionResetDone r) := by
  have h := State.resetOver_spec hn hr
  unfold State.regionResetDone
  extract_lets g s1
  rw [if_pos (by simp [g, hi, ha, hd])]
  split
  · exact h
  · exact h.setReg hr resetStatus_not_lasting

theorem exec_resetComplete_region {n trained : Nat} (hu : s.up = true) (hp : s.portsIdle = true) (hn : n < 48) :
    exec (.resetComplete false n trained) s = .next (s.regionResetDone n) :=
  (if_pos (by simpa [Instr.wf] using hn)).trans (congrArg Host.Outcome.next ((State.thenRetry_of_idle hp _).trans (if_pos hu)))

/-! ### The end of a die's reset (R477, R478) -/

/-- The stacks of a die that trained come up. -/
def State.trainOne (d trained : Nat) (s : State) (i : Nat) : State :=
  if bitAt trained i then s.setB (A.hbmStatus (5 * d + i)) 0 true else s.send (.pldm 2 (5 * d + i))

theorem State.trainOne_keeps {d trained j : Nat} (s : State) (i : Nat) (h : s.bit (A.hbmStatus j) 0 = true) :
    (s.trainOne d trained i).bit (A.hbmStatus j) 0 = true := by
  unfold State.trainOne
  split
  · by_cases e : A.hbmStatus j = A.hbmStatus (5 * d + i)
    · rw [e]
      exact State.bit_setB_same _ _ _ (by decide)
    · exact (congrArg (fun w : Reg64 => w.toNat.testBit 0) (State.reg_setB_ne s 0 true e)).trans h
  · exact h

theorem State.trained_bit (s : State) (d : Nat) {trained i : Nat} (hi : i < 5) (ht : trained.testBit i = true) :
    ((List.range 5).foldl (State.trainOne d trained) s).bit (A.hbmStatus (5 * d + i)) 0 = true := by
  refine foldl_establishes (Q := fun i s => trained.testBit i = true → s.bit (A.hbmStatus (5 * d + i)) 0 = true) (fun s q hq => ?_)
    (fun s q j h hj => ?_) (List.range 5) s (by simpa using hi) ht
  · rw [State.trainOne, if_pos (by exact hq)]
    exact State.bit_setB_same _ _ _ (by decide)
  · exact s.trainOne_keeps q (h hj)

theorem State.trained_rest (d trained : Nat) (s : State) :
    ((List.range 5).foldl (State.trainOne d trained) s).regions = s.regions ∧ ((List.range 5).foldl (State.trainOne d trained) s).dieReset = s.dieReset :=
  List.foldlRecOn (motive := fun t : State => t.regions = s.regions ∧ t.dieReset = s.dieReset) _ _ ⟨rfl, rfl⟩ fun t h i _ => by
    unfold State.trainOne
    split
    · exact h
    · exact h

/-- The resets of a die's regions: the dies in reset and the states of the stacks stay, and each of the regions leaves its reset. -/
theorem State.resetsOver_spec (l : List Nat) (hl : ∀ r ∈ l, r < 48) (hn : ContextsNamed s) :
    (l.foldl State.resetOver s).dieReset = s.dieReset ∧ (∀ k, k < 20 → (l.foldl State.resetOver s).reg (A.hbmStatus k) = s.reg (A.hbmStatus k))
    ∧ ∀ r, ((l.foldl State.resetOver s).rg r).inReset = if r ∈ l then false else (s.rg r).inReset := by
  induction l generalizing s with
  | nil => exact ⟨rfl, fun _ _ => rfl, fun _ => rfl⟩
  | cons q l ih =>
    have hq : q < 48 := hl q (by simp)
    have h := State.resetOver_spec hn hq
    have hnext : ContextsNamed (s.resetOver q) := hn.resetEffect.afterReset
    rw [List.foldl_cons]
    generalize s.resetOver q = u at h hnext
    obtain ⟨hd, hreg, hin⟩ := ih (fun r hr => hl r (by simp [hr])) hnext
    refine ⟨hd.trans h.die, fun k hk => (hreg k hk).trans (h.reg _ (lasting_stack hk) ?_), fun r => (hin r).trans ?_⟩
    · simp only [A.hbmStatus, A.hbm, A.regionEpoch, A.sec]
      omega
    · rw [h.inReset]
      by_cases hrl : r ∈ l <;> by_cases hrq : r = q <;> simp [hrl, hrq]

theorem State.dieResetDone_spec (hn : ContextsNamed s) {d : Nat} (trained : Nat) (hd : d < 4) (hin : d ∈ s.dieReset)
    (ha : ∀ r, dieOf r = d → (s.rg r).accepted = []) (hb : s.stacksBusy d = false) (ht : s.dieResetDone d trained = t) :
    d ∉ t.dieReset ∧ (∀ r, dieOf r = d → (t.rg r).inReset = false)
    ∧ ∀ i, i < 5 → trained.testBit i = true → t.bit (A.hbmStatus (5 * d + i)) 0 = true := by
  unfold State.dieResetDone at ht
  extract_lets rs s1 s2 s3 at ht
  have hall : rs.all (fun r => (s.rg r).accepted.isEmpty) = true :=
    List.all_eq_true.mpr fun r hr => by rw [ha r (mem_dieRegions.mp hr)]; rfl
  rw [if_pos (by simp [hin, hall, hb])] at ht
  have hrs : ∀ r, r ∈ rs ↔ dieOf r = d := fun _ => mem_dieRegions
  have hlt : ∀ r ∈ rs, r < 48 := fun r hr => by
    have := (hrs r).mp hr
    unfold dieOf at this
    omega
  have hn1 : ContextsNamed s1 := hn.frame
  obtain ⟨hreg2, hdie2⟩ := State.trained_rest d trained s1
  have hbit2 := fun i hi => s1.trained_bit d (trained := trained) (i := i) hi
  have hn2 : ContextsNamed s2 := hn1.of_regions hreg2
  have hs3 : s3 = rs.foldl State.resetOver s2 := rfl
  obtain ⟨hdie3, hst3, hin3⟩ := State.resetsOver_spec (s := s2) rs hlt hn2
  rw [← hs3] at hdie3 hst3 hin3
  have hlast : RegsOnly (· = A.resetStatus) s3 t := by
    rw [← ht]
    exact .ite (.setReg _ _ rfl) (.refl _)
  clear_value s3
  refine ⟨?_, fun r hr => ?_, fun i hi htr => ?_⟩
  · have hdt : t.dieReset = s3.dieReset := (congrArg State.dieReset hlast.rest).trans rfl
    rw [hdt, hdie3]
    show d ∉ ((List.range 5).foldl (State.trainOne d trained) s1).dieReset
    rw [hdie2]
    simp [s1]
  · rw [hlast.rg]
    exact (hin3 r).trans (if_pos ((hrs r).mpr hr))
  · have hk : 5 * d + i < 20 := by omega
    rw [hlast.bit fun e => resetStatus_not_lasting (e ▸ lasting_stack hk)]
    exact (congrArg (fun w : Reg64 => w.toNat.testBit 0) (hst3 _ hk)).trans (hbit2 i hi htr)

theorem exec_resetComplete_die {d trained : Nat} (hu : s.up = true) (hp : s.portsIdle = true) (hd : d < 4) :
    exec (.resetComplete true d trained) s = .next (s.dieResetDone d trained) :=
  (if_pos (by simpa [Instr.wf] using hd)).trans (congrArg Host.Outcome.next ((State.thenRetry_of_idle hp _).trans (if_pos hu)))

/-! ### Loads (R403, R476) -/

/-- Loads change one region's stores, not its owner, and no other region. -/
structure LoadsOf (r : Nat) (s t : State) : Prop where
  owner : (t.rg r).owner = (s.rg r).owner
  other : ∀ r', r' ≠ r → t.rg r' = s.rg r'

namespace LoadsOf
variable {r : Nat}

theorem refl (r : Nat) (s : State) : LoadsOf r s s := ⟨rfl, fun _ _ => rfl⟩

theorem trans (h : LoadsOf r s t) (h' : LoadsOf r t u) : LoadsOf r s u := ⟨h'.owner.trans h.owner, fun q hq => (h'.other q hq).trans (h.other q hq)⟩

theorem of_regions (h : t.regions = s.regions) : LoadsOf r s t := by
  have hrg (q : Nat) : t.rg q = s.rg q := by unfold State.rg; rw [h]
  exact ⟨congrArg Region.owner (hrg r), fun q _ => hrg q⟩

theorem setReg {a : Nat} {w : Reg64} (h : LoadsOf r b s) : LoadsOf r b (s.setReg a w) := h.trans (of_regions rfl)

theorem modRg {f : Region → Region} (h : LoadsOf r b s) (hf : (f (s.rg r)).owner = (s.rg r).owner := by rfl) : LoadsOf r b (s.modRg r f) :=
  h.trans ⟨by rw [State.modRg_eq, State.rg_setRg_same, hf], fun _ hq => State.rg_setRg_ne _ _ hq⟩

theorem foldl {α : Type} {f : State → α → State} (l : List α) (hf : ∀ s x, LoadsOf r b s → LoadsOf r b (f s x)) (h : LoadsOf r b s) :
    LoadsOf r b (l.foldl f s) := List.foldlRecOn l f h fun _ h x _ => hf _ x h

theorem noteLoads {e : Env} {c : Nat} (h : LoadsOf r b s) : LoadsOf r b (s.noteLoads e c) :=
  h.foldl _ fun s _ h => h.trans (of_regions (s.noteReads_data none e _).regions)

theorem loadChisel {e : Env} {c : Nat} (h : LoadsOf r b s) : LoadsOf r b (s.loadChisel e r c) := by
  unfold State.loadChisel
  extract_lets a table slots found rej
  exact h.modRg.setReg

theorem loadMap {e : Env} {c : Nat} (h : LoadsOf r b s) : LoadsOf r b (s.loadMap e r c) := by
  unfold State.loadMap
  extract_lets a show_
  have hshow (loaded reject : Bool) (m : Sparse Nat) : LoadsOf r b (show_ s loaded reject m) := h.modRg.setReg
  split
  · exact hshow ..
  · split
    · exact hshow ..
    · extract_lets es
      split
      · exact hshow ..
      · exact hshow ..

theorem loadGrain {c : Nat} (h : LoadsOf r b s) : LoadsOf r b (s.loadGrain r c) := h.modRg.setReg

theorem loadBuckets {e : Env} {c : Nat} (h : LoadsOf r b s) : LoadsOf r b (s.loadBuckets e c) := by
  unfold State.loadBuckets
  extract_lets a show_
  have hshow (loaded reject : Bool) (bs : List (Nat × Bucket)) : LoadsOf r b (show_ s loaded reject bs) :=
    foldl (List.range 4) (fun _ _ h => h.setReg) (setReg (s := s.modCx c _) (h.trans (of_regions rfl)))
  split
  · exact hshow ..
  · split
    · exact hshow ..
    · extract_lets es tags
      exact hshow ..

theorem loads {e : Env} {c : Nat} (h : LoadsOf r b s) : LoadsOf r b (s.loads e r c) := h.noteLoads.loadChisel.loadMap.loadGrain.loadBuckets

end LoadsOf

theorem State.regionLoadsDone_assign {r c : Nat} (e : Env) (hi : (s.rg r).inReset = false) (hd : dieOf r ∉ s.dieReset) (hj : (s.rg r).job = .assign c)
    (hk : s.dataProt = true → (s.cx c).cur.isSome = true) :
    s.regionLoadsDone r e
      = (((s.modRg r fun g => { g with owner := some c }).loads e r c).modRg r fun g => { g with job := .none, loaded := true }).setB A.assignStatus 0 false := by
  have hkey : (s.dataProt && (s.cx c).cur.isNone) = false := by
    cases hp : s.dataProt
    · rfl
    · simpa using hk hp
  simp [State.regionLoadsDone, hi, hd, hj, hkey]

theorem State.regionLoadsDone_reset {r c : Nat} (e : Env) (hi : (s.rg r).inReset = false) (hd : dieOf r ∉ s.dieReset) (hj : (s.rg r).job = .reset)
    (ho : (s.rg r).owner = some c) :
    s.regionLoadsDone r e = (s.loads e r c).modRg r fun g => { g with job := .none, loaded := true } := by
  simp [State.regionLoadsDone, hi, hd, hj, ho]

theorem State.regionLoadsDone_other (s : State) (r : Nat) (e : Env) : ∀ r', r' ≠ r → (s.regionLoadsDone r e).rg r' = s.rg r' := by
  intro r' hr'
  have hmod (v : State) (f : Region → Region) : (v.modRg r f).rg r' = v.rg r' := State.rg_setRg_ne _ _ hr'
  unfold State.regionLoadsDone
  extract_lets g
  split
  · rfl
  · split
    · next c _ =>
      split
      · rfl
      · extract_lets s1
        have h1 : s1.rg r' = s.rg r' := (((LoadsOf.refl r _).loads).other r' hr').trans (hmod s _)
        exact (State.rg_setRg_ne _ _ hr').trans h1
    · split
      · exact (hmod ..).trans (((LoadsOf.refl r s).loads).other r' hr')
      · rfl
    · rfl

theorem exec_regionLoadsComplete {r : Nat} (e : Env) (hu : s.up = true) (hr : r < 48) :
    exec (.regionLoadsComplete r e) s = .next (s.regionLoadsDone r e) :=
  (if_pos (by simpa [Instr.wf] using hr)).trans (congrArg Host.Outcome.next (if_pos hu))

/-- Settles O39: the end of a reset is the reset's effect and what follows it, each of which leaves the rest in place. -/
theorem resetsAndLoadsEnd : Obligations.ResetsAndLoadsEnd := by
  refine fun s hu hp hn => ⟨fun d ms hd hms hnd ha => ?_, fun n trained hnn hi ha hd => ?_, fun d trained hd hin ha hb => ?_, fun r e hr hi hd => ?_⟩
  · exact ⟨_, exec_dieCoreTimeout hu hd hms hnd ha, State.beginDieReset_spec d rfl⟩
  · have h := State.regionResetDone_spec hn hnn hi ha hd
    exact ⟨_, exec_resetComplete_region hu hp hnn, (h.inReset n).trans (if_pos rfl), h.waiting, h.cnt, h.loaded, h.epoch, h.done, h.cl, h.kept, h.freed⟩
  · exact ⟨_, exec_resetComplete_die hu hp hd, State.dieResetDone_spec hn trained hd hin ha hb rfl⟩
  · refine ⟨_, exec_regionLoadsComplete e hu hr, fun c hj hk => ?_, fun c hj ho => ?_, State.regionLoadsDone_other s r e⟩
    · rw [State.regionLoadsDone_assign e hi hd hj hk]
      refine ⟨?_, by simp, by simp, State.bit_setB_same _ _ _ (by decide)⟩
      rw [State.setB_eq, State.rg_setReg, State.modRg_eq, State.rg_setRg_same]
      exact ((LoadsOf.refl r _).loads).owner.trans (by simp)
    · rw [State.regionLoadsDone_reset e hi hd hj ho]
      refine ⟨?_, by simp, by simp⟩
      rw [State.modRg_eq, State.rg_setRg_same]
      exact ((LoadsOf.refl r s).loads).owner.trans ho

end Sys2Proof.Machine
end

section
/-!
SUPPORT. Reads and writes of HBM through leaves without PROT, in granules without poison or key (R263, R266): what they read, what they leave, and
that they count nothing.
-/
namespace Sys2Proof.Machine

variable {s t u b : State}

/-! ### Lists -/

theorem foldl_same {α β : Type} {f : β → α → β} {s : β} {l : List α} (h : ∀ x ∈ l, f s x = s) : l.foldl f s = s :=
  List.foldlRecOn (motive := fun t => t = s) l f rfl fun t ht x hx => by rw [ht, h x hx]

theorem mem_numberFrom {α β : Type} {f : Nat → α → β} {y : β} : ∀ {l : List α} {k : Nat}, y ∈ numberFrom f k l → ∃ i, ∃ x ∈ l, y = f i x
  | [], _, h => by simp [numberFrom] at h
  | x :: l, k, h => by
    rcases List.mem_cons.mp h with rfl | h
    · exact ⟨k, x, by simp, rfl⟩
    · obtain ⟨i, z, hz, hy⟩ := mem_numberFrom h
      exact ⟨i, z, by simp [hz], hy⟩

theorem length_numberFrom {α β : Type} (f : Nat → α → β) : ∀ (l : List α) (k : Nat), (numberFrom f k l).length = l.length
  | [], _ => rfl
  | _ :: l, k => congrArg (· + 1) (length_numberFrom f l (k + 1))

theorem mem_dedupNat {x : Nat} {l : List Nat} : x ∈ dedupNat l ↔ x ∈ l := by
  induction l with
  | nil => rfl
  | cons y l ih =>
    simp only [dedupNat, List.mem_cons, List.mem_filter, ih, decide_eq_true_eq]
    by_cases h : x = y <;> simp [h]

theorem nodup_dedupNat (l : List Nat) : (dedupNat l).Nodup := by
  induction l with
  | nil => exact List.nodup_nil
  | cons y l ih => exact List.nodup_cons.mpr ⟨by simp, ih.filter _⟩

theorem nth_readBytes (m : Memory) (d : Byte) (a n i : Nat) : nth d (m.readBytes a n) i = if i < n then m.read (a + i) else d := by
  induction n generalizing a i with
  | zero => cases i <;> rfl
  | succ n ih =>
    cases i with
    | zero => rfl
    | succ i => simp [Memory.readBytes, nth, ih, Nat.add_assoc, Nat.add_comm 1]

theorem length_readBytes (m : Memory) (a n : Nat) : (m.readBytes a n).length = n := by
  induction n generalizing a with
  | zero => rfl
  | succ n ih => exact congrArg (· + 1) (ih (a + 1))

theorem nth_eq_getElem {α : Type} (d : α) : ∀ (l : List α) (i : Nat) (h : i < l.length), l[i] = nth d l i
  | x :: _, 0, _ => rfl
  | _ :: l, i + 1, h => nth_eq_getElem d l i (by simpa using h)

/-- What bytes written from an address leave at every address. -/
theorem Memory.read_writeBytes_nth (m : Memory) (a : Nat) (bs : List Byte) (c : Nat) :
    (m.writeBytes a bs).read c = if a ≤ c ∧ c < a + bs.length then nth 0#8 bs (c - a) else m.read c := by
  split
  · next h =>
    obtain ⟨i, rfl⟩ := Nat.exists_eq_add_of_le h.1
    have hi : i < bs.length := by omega
    rw [Memory.read_writeBytes m a bs i hi, nth_eq_getElem 0#8 bs i hi, Nat.add_sub_cancel_left]
  · next h => exact Memory.read_writeBytes_outside m a bs c (by omega)

/-! ### Plain granules -/

theorem granOf_granOf (a : Nat) : granOf (granOf a) = granOf a := by
  unfold granOf
  omega

theorem State.granAt_granOf (s : State) (a : Nat) : s.granAt (granOf a) = s.granAt a := by
  unfold State.granAt
  rw [granOf_granOf]

theorem State.readGran_plain {g : Nat} (h : s.granAt g = Gran.clean) : s.readGran .plain g = ⟨s.mem.readBytes g 32, false, false⟩ := by
  unfold State.readGran State.granSeen
  rw [h]
  rfl

/-- A place in HBM, reached through a leaf without PROT, in a granule without poison or key. -/
def State.PlainLoc (s : State) (l : Loc) : Prop := ∃ p a, l = .page p a ∧ p.prot = false ∧ isHbm a = true ∧ s.granAt a = Gran.clean

theorem State.PlainLoc.via {l : Loc} (h : s.PlainLoc l) : l.via = .plain := by
  obtain ⟨p, a, rfl, hp, -⟩ := h
  simp [Loc.via, hp]

theorem State.PlainLoc.readByte {l : Loc} (h : s.PlainLoc l) (e : Env) : s.readByte e l = ⟨s.mem.read l.addr, false, false⟩ := by
  have hvia := h.via
  obtain ⟨p, a, rfl, -, hh, hc⟩ := h
  have hg : isGran a = true := by simp [isGran, hh]
  have hsum : granOf a + a % 32 = a := by unfold granOf; omega
  have hread := State.readGran_plain ((s.granAt_granOf a).trans hc)
  simp only [State.readByte, hg, hvia, hread, if_true, nth_readBytes, Nat.mod_lt a (by decide : 0 < 32), hsum, Loc.addr]

theorem isHbm_iff {a : Nat} : isHbm a = true ↔ a < 0x00F000000000 := ⟨of_decide_eq_true, decide_eq_true⟩

theorem not_isMlm_of_hbm {a : Nat} (h : isHbm a = true) : isMlm a = false := by
  rw [isHbm_iff] at h
  have hlow : ¬ mlmBase ≤ a := by simp only [mlmBase]; omega
  simp [isMlm, hlow]

theorem isHbm_granOf {a : Nat} (h : isHbm a = true) : isHbm (granOf a) = true := by
  rw [isHbm_iff] at h ⊢
  unfold granOf
  omega

/-! ### Nothing to count -/

theorem mem_granulesAt {ls : List Loc} {q : Loc × Nat} (h : q ∈ granulesAt ls) : ∃ p a, q.1 = .page p a ∧ q.1 ∈ ls ∧ q.2 = granOf a := by
  unfold granulesAt at h
  refine List.foldlRecOn (motive := fun acc => ∀ q ∈ acc, ∃ p a, q.1 = .page p a ∧ q.1 ∈ ls ∧ q.2 = granOf a) ls _ (by simp)
    (fun acc hacc l hl => ?_) q h
  cases l with
  | page p a =>
    dsimp only
    split
    · intro q hq
      rcases List.mem_append.mp hq with hq | hq
      · exact hacc q hq
      · obtain rfl := List.mem_singleton.mp hq
        exact ⟨p, a, rfl, hl, rfl⟩
    · exact hacc
  | chip a => exact hacc
  | bad k => exact hacc

theorem State.noteGran_quiet {e : Env} (he : NoErrors e) (g : Nat) : s.noteGran e g = s := by
  obtain ⟨hbad, hce, -⟩ := he
  simp [State.noteGran, hbad, hce]

theorem State.noteReads_plain {e : Env} (he : NoErrors e) {ls : List Loc} (hl : ∀ l ∈ ls, s.PlainLoc l) : s.noteReads none e ls = s := by
  unfold State.noteReads
  extract_lets count
  refine foldl_same fun q hq => ?_
  obtain ⟨p, a, hq1, hq2, hg⟩ := mem_granulesAt hq
  have hvia := (hl q.1 hq2).via
  obtain ⟨p', a', he', -, hh, hc⟩ := hl q.1 hq2
  obtain ⟨rfl, rfl⟩ : p' = p ∧ a' = a := by simpa using he'.symm.trans hq1
  have hmlm : isMlm q.2 = false := by rw [hg]; exact not_isMlm_of_hbm (isHbm_granOf hh)
  have hread := State.readGran_plain ((s.granAt_granOf a').trans hc)
  rw [← hg] at hread
  simp [hmlm, State.noteGran_quiet he, hvia, hread, State.bump]

theorem State.noteTargets_plain {always : Bool} {e : Env} (he : NoErrors e) {ls : List Loc} (hl : ∀ l ∈ ls, s.PlainLoc l) : s.noteTargets always e ls = s := by
  unfold State.noteTargets
  extract_lets addrs reads
  refine foldl_same fun g hg => ?_
  rw [List.mem_filter, mem_dedupNat, List.mem_map] at hg
  obtain ⟨⟨a, ha, rfl⟩, -⟩ := hg
  obtain ⟨l, hl', hla⟩ := List.mem_filterMap.mp ha
  obtain ⟨p, a', rfl, -, -, hc⟩ := hl l hl'
  obtain rfl : a' = a := by simpa using hla
  have hpoison : (s.granAt (granOf a')).poison = false := by rw [s.granAt_granOf, hc]; rfl
  simp [State.noteGran_quiet he, hpoison]

theorem State.noteChip_quiet {e : Env} (he : NoErrors e) (ls : List Loc) : s.noteChip e ls = s := by
  obtain ⟨-, hce, hue⟩ := he
  unfold State.noteChip
  rw [hce, hue]
  rfl

theorem State.countMasked_plain {ls : List Loc} (mask : Nat) (hl : ∀ l ∈ ls, s.PlainLoc l) : s.countMasked ls mask = s := by
  have hnone : chipRegion ls = none := List.findSome?_eq_none_iff.mpr fun l hl' => by
    obtain ⟨p, a, rfl, -⟩ := hl l hl'
    rfl
  unfold State.countMasked
  rw [hnone]

/-! ### A granule written -/

/-- The byte at an address after writes of whole bytes, in order. -/
def landed (ws : List (Loc × Wr)) (c : Nat) (v : Byte) : Byte := ws.foldl (fun v p => if p.1.addr = c then p.2.val else v) v

theorem landed_cons (p : Loc × Wr) (ws : List (Loc × Wr)) (c : Nat) (v : Byte) :
    landed (p :: ws) c v = landed ws c (if p.1.addr = c then p.2.val else v) := rfl

theorem landed_nowhere {ws : List (Loc × Wr)} {c : Nat} (h : ∀ p ∈ ws, p.1.addr ≠ c) (v : Byte) : landed ws c v = v :=
  foldl_same fun p hp => if_neg (h p hp)

/-- Only the writes of an address's own granule matter. -/
theorem landed_filter (ws : List (Loc × Wr)) (c : Nat) (v : Byte) : landed (ws.filter fun p => granOf p.1.addr == granOf c) c v = landed ws c v := by
  induction ws generalizing v with
  | nil => rfl
  | cons p ws ih =>
    rw [List.filter_cons, landed_cons]
    split
    · rw [landed_cons, ih]
    · next h =>
      have hne : p.1.addr ≠ c := fun e => h (by simp [e])
      rw [ih, if_neg hne]

/-- A write of a whole byte to a plain place. -/
def State.PlainWr (s : State) (p : Loc × Wr) : Prop := s.PlainLoc p.1 ∧ p.2.mask = 0xFF#8 ∧ p.2.bad = false

/-- A write where its place lies. -/
def atPlace (p : Loc × Wr) : Wr := { p.2 with addr := p.1.addr }

theorem mergeByte_whole (old v : Byte) : mergeByte old v 0xFF#8 = v := by
  show (old &&& ~~~BitVec.allOnes 8) ||| (v &&& BitVec.allOnes 8) = v
  rw [BitVec.not_allOnes, BitVec.and_zero, BitVec.and_allOnes, BitVec.zero_or]

/-- One granule written: its bytes as the writes leave them, the others as they were, and every granule as clean as before. -/
theorem State.writeGran_plain {g : Nat} (hg : granOf g = g) (hc : s.granAt g = Gran.clean) {ws : List (Loc × Wr)} (hw : ∀ p ∈ ws, s.PlainWr p) :
    (∀ c, (s.writeGran .plain g (ws.map atPlace)).mem.read c = if granOf c = g then landed ws c (s.mem.read c) else s.mem.read c)
    ∧ ∀ c, (s.writeGran .plain g (ws.map atPlace)).granAt c = s.granAt c := by
  have hbad : (ws.map atPlace).any Wr.bad = false := by
    simp only [List.any_map, List.any_eq_false, Function.comp_apply]
    intro p hp
    obtain ⟨-, -, hb⟩ := hw p hp
    simp [atPlace, hb]
  have hmerge (c i : Nat) (hi : c = g + i) (v : Byte) :
      (ws.map atPlace).foldl (fun v w => if w.addr == g + i then mergeByte v w.val w.mask else v) v = landed ws c v := by
    rw [List.foldl_map, landed]
    refine List.foldl_ext _ _ _ fun v p hp => ?_
    obtain ⟨-, hm, -⟩ := hw p hp
    simp only [atPlace, hm, mergeByte_whole, hi, beq_iff_eq]
  unfold State.writeGran
  extract_lets m key gen seen new whole bad p s1
  have hseen : seen = s.mem.readBytes g 32 := congrArg GranRead.bytes (State.readGran_plain hc)
  have hclean : (⟨p, gen, key⟩ : Gran) = Gran.clean := by
    have hp : p = false := by simp only [p, bad, hbad, m, hc]; rfl
    rw [hp]
    rfl
  rw [hclean]
  refine ⟨fun c => ?_, fun c => ?_⟩
  · show (s.mem.writeBytes g new).read c = _
    rw [Memory.read_writeBytes_nth]
    simp only [new, hseen, length_numberFrom, length_readBytes]
    by_cases hcg : granOf c = g
    · have hin : g ≤ c ∧ c < g + 32 := by unfold granOf at hcg; omega
      have hsum : g + (c - g) = c := by omega
      rw [if_pos hin, if_pos hcg, nth_numberFrom, length_readBytes, if_pos (by omega), nth_readBytes, if_pos (by omega), hsum, Nat.zero_add,
        hmerge c (c - g) hsum.symm]
    · have hout : ¬(g ≤ c ∧ c < g + 32) := fun h => hcg (by unfold granOf at hg ⊢; omega)
      rw [if_neg hout, if_neg hcg]
  · have hset : (s1.setGran g Gran.clean).granAt c = if granOf c = granOf g then Gran.clean else s.granAt c := Sparse.get_set ..
    rw [hset, hg]
    split
    · next h => rw [← hc, ← h, s.granAt_granOf]
    · rfl

/-! ### Writes to plain places -/

/-- One granule of a list of writes is written. -/
def State.writeOne (gr : List (Loc × Wr)) (s : State) (g : Nat) : State :=
  s.writeGran .plain g ((gr.filter fun p => granOf p.1.addr == g).map atPlace)

theorem State.PlainLoc.congr {l : Loc} (hg : ∀ c, t.granAt c = s.granAt c) (h : s.PlainLoc l) : t.PlainLoc l := by
  obtain ⟨p, a, rfl, hp, hh, hc⟩ := h
  exact ⟨p, a, rfl, hp, hh, (hg a).trans hc⟩

theorem State.PlainWr.congr {p : Loc × Wr} (hg : ∀ c, t.granAt c = s.granAt c) (h : s.PlainWr p) : t.PlainWr p := ⟨h.1.congr hg, h.2⟩

theorem State.writeOnes_plain {gr : List (Loc × Wr)} : ∀ {gs : List Nat} {s : State}, gs.Nodup → (∀ g ∈ gs, granOf g = g ∧ s.granAt g = Gran.clean) →
    (∀ p ∈ gr, s.PlainWr p) → ∀ c, (gs.foldl (State.writeOne gr) s).mem.read c = if granOf c ∈ gs then landed gr c (s.mem.read c) else s.mem.read c
  | [], _, _, _, _, _ => by simp
  | g :: gs, s, hn, hg, hw, c => by
    obtain ⟨hnot, hn⟩ := List.nodup_cons.mp hn
    obtain ⟨hg1, hg2⟩ := hg g (by simp)
    obtain ⟨hread, hgran⟩ := State.writeGran_plain hg1 hg2 (ws := gr.filter fun p => granOf p.1.addr == g) fun p hp => hw p (List.mem_filter.mp hp).1
    have ih := State.writeOnes_plain (gr := gr) (s := s.writeOne gr g) hn (fun g' hg' => ⟨(hg g' (by simp [hg'])).1, (hgran g').trans (hg g' (by simp [hg'])).2⟩)
      (fun p hp => (hw p hp).congr hgran) c
    rw [List.foldl_cons, ih]
    have hone : (s.writeOne gr g).mem.read c = if granOf c = g then landed gr c (s.mem.read c) else s.mem.read c := by
      rw [State.writeOne, hread c]
      split
      · next h => rw [← h, landed_filter]
      · rfl
    rw [hone]
    by_cases hcg : granOf c = g
    · rw [if_neg (hcg ▸ hnot), if_pos hcg, if_pos (by simp [hcg])]
    · rw [if_neg hcg]
      simp [hcg]

/-- Writes of whole bytes to plain places go granule by granule. -/
theorem State.writeLocs_eq {ws : List (Loc × Wr)} (hw : ∀ p ∈ ws, s.PlainWr p) :
    s.writeLocs ws = (dedupNat (ws.map fun p => granOf p.1.addr)).foldl (State.writeOne ws) s := by
  unfold State.writeLocs
  extract_lets at_ chip gr win s1 s2 cls
  have hchip : chip = [] := List.filter_eq_nil_iff.mpr fun p hp => by
    obtain ⟨⟨q, a, hq, -⟩, -⟩ := hw p hp
    simp [hq]
  have hgr : gr = ws := List.filter_eq_self.mpr fun p hp => by
    obtain ⟨⟨q, a, hq, -, hh, -⟩, -⟩ := hw p hp
    simp [hq, isGran, hh]
  have hwin : win = [] := List.filter_eq_nil_iff.mpr fun p hp => by
    obtain ⟨⟨q, a, hq, -, hh, -⟩, -⟩ := hw p hp
    simp [hq, not_isMlm_of_hbm hh]
  have hs1 : s1 = s := by simp only [s1, hchip, List.foldl_nil]
  have hs2 : s2 = (dedupNat (ws.map fun p => granOf p.1.addr)).foldl (State.writeOne ws) s := by
    simp only [s2, hs1, hgr]
    refine List.foldl_ext _ _ _ fun s g _ => ?_
    unfold State.writeOne
    split
    · next p hp => rw [(hw p (List.mem_filter.mp (List.mem_of_getLast? hp)).1).1.via]; rfl
    · rfl
  rw [hwin]
  exact hs2

/-- What writes of whole bytes to plain places leave at every address. -/
theorem State.writeLocs_plain {ws : List (Loc × Wr)} (hw : ∀ p ∈ ws, s.PlainWr p) (c : Nat) :
    (s.writeLocs ws).mem.read c = landed ws c (s.mem.read c) := by
  rw [State.writeLocs_eq hw, State.writeOnes_plain (nodup_dedupNat _) (fun g hg => ?_) hw]
  · split
    · rfl
    · next h =>
      exact (landed_nowhere (fun p hp e => h (mem_dedupNat.mpr (List.mem_map.mpr ⟨p, hp, by rw [e]⟩))) _).symm
  · obtain ⟨p, hp, rfl⟩ := List.mem_map.mp (mem_dedupNat.mp hg)
    obtain ⟨⟨q, a, hq, -, -, hc⟩, -⟩ := hw p hp
    refine ⟨granOf_granOf _, (s.granAt_granOf _).trans ?_⟩
    rw [hq]
    exact hc

/-- `t` is `s` but for memory and its granules. -/
def MemoryOnly (s t : State) : Prop := t = { s with mem := t.mem, gran := t.gran }

/-- Such writes touch memory and its granules only. -/
theorem State.writeLocs_rest {ws : List (Loc × Wr)} (hw : ∀ p ∈ ws, s.PlainWr p) : MemoryOnly s (s.writeLocs ws) := by
  rw [State.writeLocs_eq hw]
  refine List.foldlRecOn (motive := MemoryOnly s) _ _ rfl fun t h g _ => ?_
  unfold MemoryOnly at h ⊢
  exact congrArg (fun v : State => { v with mem := (t.writeOne ws g).mem, gran := (t.writeOne ws g).gran }) h

/-! ### Bytes at consecutive plain addresses -/

/-- `n` bytes from HBM address `a` on through one leaf. -/
def pageRun (p : Page) (a n : Nat) : List Loc := (List.range' a n).map (.page p)

theorem landed_run (p : Page) (data : List Byte) (k a c : Nat) (v : Byte) :
    landed (numberFrom (fun i (q : Loc × Byte) => (q.1, (⟨q.1.addr, q.2, 0xFF#8, bitAt 0 (i / 32)⟩ : Wr))) k ((pageRun p a data.length).zip data)) c v
      = if a ≤ c ∧ c < a + data.length then nth 0#8 data (c - a) else v := by
  induction data generalizing k a v with
  | nil => simp [pageRun, numberFrom, landed]
  | cons d data ih =>
    have hrun : (pageRun p a (d :: data).length).zip (d :: data) = (.page p a, d) :: (pageRun p (a + 1) data.length).zip data := by
      simp [pageRun, List.range'_succ]
    rw [hrun, numberFrom, landed_cons, ih]
    show (if a + 1 ≤ c ∧ c < a + 1 + data.length then _ else if a = c then d else v) = _
    rw [List.length_cons]
    by_cases hac : a = c
    · subst hac
      simp [nth]
    · by_cases hin : a + 1 ≤ c ∧ c < a + 1 + data.length
      · have hsub : c - a = (c - (a + 1)) + 1 := by omega
        rw [if_pos hin, if_pos (by omega), hsub]
        rfl
      · rw [if_neg hin, if_neg hac, if_neg (by omega)]

theorem PlainPlaces.run {a n : Nat} {ls : List Loc} (h : PlainPlaces s a n ls) : (∃ p, ls = pageRun p a n) ∧ ∀ l ∈ ls, s.PlainLoc l := by
  obtain ⟨⟨p, hp, rfl⟩, hg⟩ := h
  refine ⟨⟨p, by simp [pageRun, List.range'_eq_map_range]⟩, fun l hl => ?_⟩
  obtain ⟨i, hi, rfl⟩ := List.mem_map.mp hl
  obtain ⟨hh, hc⟩ := hg i (List.mem_range.mp hi)
  exact ⟨p, a + i, rfl, hp, hh, hc⟩

theorem maskedWrites_plain {a n : Nat} {ls : List Loc} (h : PlainPlaces s a n ls) (data : List Byte) : ∀ p ∈ maskedWrites ls data 0, s.PlainWr p :=
  fun p hp => by
    obtain ⟨i, q, hq, rfl⟩ := mem_numberFrom hp
    exact ⟨(PlainPlaces.run h).2 _ (List.of_mem_zip hq).1, rfl, by simp [bitAt]⟩

/-- Bytes of a packet without a mask, written to consecutive plain addresses. -/
theorem State.write_run {a : Nat} {data : List Byte} {ls : List Loc} (h : PlainPlaces s a data.length ls) (c : Nat) :
    (s.writeLocs (maskedWrites ls data 0)).mem.read c = if a ≤ c ∧ c < a + data.length then nth 0#8 data (c - a) else s.mem.read c := by
  obtain ⟨⟨p, hrun⟩, -⟩ := PlainPlaces.run h
  rw [State.writeLocs_plain (maskedWrites_plain h data), maskedWrites, hrun, landed_run]

/-- What consecutive plain addresses read. -/
theorem State.read_run {a n : Nat} {ls : List Loc} (h : PlainPlaces s a n ls) (e : Env) :
    ls.map (s.readByte e) = (List.range n).map fun i => ⟨s.mem.read (a + i), false, false⟩ := by
  obtain ⟨⟨p, hp, rfl⟩, hg⟩ := h
  rw [List.map_map]
  refine List.map_congr_left fun i hi => ?_
  obtain ⟨hh, hc⟩ := hg i (List.mem_range.mp hi)
  exact State.PlainLoc.readByte ⟨p, a + i, rfl, hp, hh, hc⟩ e

end Sys2Proof.Machine
end

section
/-!
SUPPORT. Packets that arrive and are taken: their checks, their admission, and the answer that leaves (R57, R312, R313, R315, R317, R322 to R324).
-/
namespace Sys2Proof.Machine

variable {s t u b : State}

/-! ### A packet that the checks let pass -/

theorem State.securityCheck_regs {x : Pkt} (h : s.securityCheck x = .here t) : t.regs = s.regs := by
  unfold State.securityCheck at h
  split at h
  · split at h
    · split at h
      · cases h
      · cases h; rfl
    · split at h
      · cases h
      · split at h
        · cases h
        · split at h
          · cases h
          · split at h
            · cases h
            · cases h
              split
              · rfl
              · rfl
  · split at h
    · cases h
    · cases h; rfl

theorem Accepts.isMember {ty : Nat} {x : Pkt} (h : Accepts s ty x t) : t.isMember = true := by
  obtain ⟨-, -, -, -, h⟩ := h
  unfold State.arrive at h
  split at h
  · cases h
  · next hm =>
    split at h
    · split at h <;> cases h
    · split at h
      · cases h
      · split at h
        · cases h
        · have hr := State.securityCheck_regs h
          have hmem : t.isMember = (Drained s x).isMember := by
            unfold State.isMember State.fieldN State.reg
            rw [hr]
          rw [hmem]
          simpa using hm

/-- Such a packet has its row's meaning in the state the checks leave. -/
theorem Accepts.receive {ty : Nat} {x : Pkt} (h : Accepts s ty x t) (act : State → State) : s.receive ty x act = act t := by
  obtain ⟨-, hopen, hty, -, harr⟩ := h
  have harr : (s.drainPkt (List.range 8) x).arrive x = .here t := harr
  simp [State.receive, hopen, hty, harr]

/-! ### The answer -/

/-- The module is a member, a route leads to the sender of `x` through port `p`, and a session is there where one is needed. -/
def CanAnswer (s : State) (x : Pkt) (p : Nat) : Prop :=
  s.isMember = true ∧ s.egress x.src = some p ∧ (s.dataProt = false ∨ (s.session x.src).isSome = true)

theorem CanAnswer.congr {x : Pkt} {p : Nat} (h : CanAnswer s x p) (ha : t.active = s.active) (hs : t.sessions = s.sessions)
    (hr : ∀ a, 0x20000 ≤ a → t.reg a = s.reg a) : CanAnswer t x p := by
  have hf (o lo len : Nat) : t.fieldN (A.ekb o) lo len = s.fieldN (A.ekb o) lo len :=
    congrArg (regField · lo len) (hr _ (by simp only [A.ekb]; omega))
  obtain ⟨hm, he, hd⟩ := h
  refine ⟨(congrArg (· == 1) (hf 0 12 2)).trans hm, ?_, ?_⟩
  · have hroute : t.routeOf x.src = s.routeOf x.src := by
      unfold State.routeOf A.route
      rw [hf]
    have hup (q : Nat) : t.portUp q = s.portUp q := congrArg (· != 0) (hf _ 0 2)
    have hegress : t.egress x.src = s.egress x.src := by
      unfold State.egress
      rw [hroute]
      simp only [hup]
    exact hegress.trans he
  · unfold State.dataProt State.session
    rw [ha, hs]
    exact hd

theorem State.sealPkt_snd (s : State) (x : Pkt) : (s.sealPkt x).2 = { x with ctr := (s.sealPkt x).2.ctr } := by
  unfold State.sealPkt
  split
  · split
    · rfl
    · rfl
  · rfl

/-- A packet to a module that can be answered leaves through its route's port. -/
theorem State.sendPkt_leaves {x y : Pkt} {p : Nat} (h : CanAnswer s x p) (hy : y.dst = x.src) :
    ∃ z, OutMsg.packet p z ∈ (s.sendPkt y).outbox ∧ z.ptype = y.ptype ∧ z.status = y.status ∧ z.tag = y.tag ∧ z.dst = y.dst ∧ z.data = y.data := by
  obtain ⟨hm, he, hd⟩ := h
  have hopen : ¬ ((s.dataProt && (y.ptype < 0x20 : Bool)) && (s.session y.dst).isNone) = true := by
    rw [hy]
    rcases hd with hd | hd
    · simp [hd]
    · cases hsess : s.session x.src with
      | none => simp [hsess] at hd
      | some z => simp
  rw [← hy] at he
  unfold State.sendPkt
  rw [hm, he]
  dsimp only
  rw [if_neg (by decide), if_neg hopen]
  exact ⟨_, List.mem_cons_self, by rw [State.sealPkt_snd], by rw [State.sealPkt_snd], by rw [State.sealPkt_snd], by rw [State.sealPkt_snd],
    by rw [State.sealPkt_snd]⟩

theorem State.complete_answers {x : Pkt} {p : Nat} (h : CanAnswer s x p) (ptype status : Nat) (data : List Byte) (mask : Nat) :
    Answered (s.complete x ptype status data mask) p ptype status x data := by
  obtain ⟨z, hz, hp, hs, ht, hd, hdata⟩ := State.sendPkt_leaves (y := pktData { s.mkPkt 0 ptype x.src x.cls with
    job := x.job, tag := x.tag, status, aux := x.aux } x.addr data mask) h rfl
  exact ⟨z, hz, hp, hs, ht, hd, hdata⟩

theorem State.complete_data (s : State) (x : Pkt) (ptype status : Nat) (data : List Byte) (mask : Nat) :
    DataStep s (s.complete x ptype status data mask) := State.sendPkt_data ..

/-! ### What leaving touches of memory -/

theorem State.pump_memory (s : State) (p n : Nat) : SameMemory s (s.pump p n) := by
  induction n generalizing s with
  | zero => exact .of_eq rfl rfl rfl
  | succ n ih =>
    unfold State.pump
    split
    · exact .of_eq rfl rfl rfl
    · next x _ =>
      have hflit : SameMemory s ((s.setLink p ((s.link p).sendFlit x)).countFlit p x.transit) := by
        unfold State.countFlit
        split
        · exact .of_eq (by simp; rfl) (by simp; rfl) (by simp; rfl)
        · exact .of_eq rfl rfl rfl
      exact hflit.trans (ih _)

theorem State.sealPkt_memory (s : State) (x : Pkt) : SameMemory s (s.sealPkt x).1 := by
  unfold State.sealPkt
  split
  · split
    · exact .of_eq rfl rfl rfl
    · dsimp only
      split
      · exact .of_eq rfl rfl rfl
      · exact .of_eq rfl rfl rfl
  · exact .of_eq rfl rfl rfl

theorem State.egressPkt_memory (s : State) (p : Nat) (key : Option Nat) (x : Pkt) : SameMemory s (s.egressPkt p key x) :=
  SameMemory.trans (.of_eq rfl rfl rfl) (State.pump_memory _ p _)

theorem State.sendPkt_memory (s : State) (x : Pkt) : SameMemory s (s.sendPkt x) := by
  unfold State.sendPkt
  split
  · exact .of_eq rfl rfl rfl
  · split
    · exact .of_eq rfl rfl rfl
    · dsimp only
      split
      · exact .of_eq rfl rfl rfl
      · exact ((s.sealPkt_memory _).trans (State.egressPkt_memory ..)).trans (.of_eq rfl rfl rfl)

theorem State.complete_memory (s : State) (x : Pkt) (ptype status : Nat) (data : List Byte) (mask : Nat) :
    SameMemory s (s.complete x ptype status data mask) := State.sendPkt_memory ..

/-! ### Admission -/

/-- `t` is `s` but for the leaves the ingress holds, and what a snapshot keeps of granules about to be written. -/
structure Entered (s t : State) : Prop where
  rest : t = { s with regs := t.regs, hidden := t.hidden, counted := t.counted, ctxs := t.ctxs, ingress := t.ingress }
  reg  : ∀ a, a ≠ A.snapTorn → t.reg a = s.reg a
  cx   : ∀ c, t.cx c = { s.cx c with snap := (t.cx c).snap }

namespace Entered

theorem refl (s : State) : Entered s s := ⟨rfl, fun _ _ => rfl, fun _ => rfl⟩

theorem trans (h : Entered s t) (h' : Entered t u) : Entered s u where
  rest := h'.rest.trans (congrArg (fun v : State => { v with
    regs := u.regs, hidden := u.hidden, counted := u.counted, ctxs := u.ctxs, ingress := u.ingress }) h.rest)
  reg a ha := (h'.reg a ha).trans (h.reg a ha)
  cx c := (h'.cx c).trans (congrArg (fun x : Ctx => { x with snap := (u.cx c).snap }) (h.cx c))

theorem setIngress (s : State) (l : List Page) : Entered s { s with ingress := l } := ⟨rfl, fun _ _ => rfl, fun _ => rfl⟩

theorem bump (s : State) (n : Nat) : Entered s (s.bump A.snapTorn n) where
  rest := by
    unfold State.bump
    split
    · rfl
    · rfl
  reg _ ha := s.reg_bump_ne n ha
  cx c := by rw [State.cx_bump]

theorem mem (h : Entered s t) : t.mem = s.mem := (congrArg State.mem h.rest).trans rfl
theorem gran (h : Entered s t) : t.gran = s.gran := (congrArg State.gran h.rest).trans rfl
theorem granAt (h : Entered s t) (a : Nat) : t.granAt a = s.granAt a := by unfold State.granAt; rw [h.gran]
theorem clusters (h : Entered s t) : t.clusters = s.clusters := (congrArg State.clusters h.rest).trans rfl
theorem regions (h : Entered s t) : t.regions = s.regions := (congrArg State.regions h.rest).trans rfl
theorem sameMemory (h : Entered s t) : SameMemory s t := .of_eq h.mem h.gran ((congrArg State.flash h.rest).trans rfl)

theorem canAnswer {x : Pkt} {p : Nat} (h : Entered s t) (ha : CanAnswer s x p) : CanAnswer t x p :=
  ha.congr ((congrArg State.active h.rest).trans rfl) ((congrArg State.sessions h.rest).trans rfl) fun a hl => h.reg a fun e => by
    rw [e] at hl
    simp [A.snapTorn, A.mem] at hl

theorem recalHeld (h : Entered s t) (l : Loc) : t.recalHeld l = s.recalHeld l := by
  have hst (a : Nat) : t.stack a = s.stack a := by
    unfold State.stack State.fieldN
    rw [h.reg A.interleave (by decide)]
  have hbit (k : Nat) : t.bit (A.hbmStatus k) 1 = s.bit (A.hbmStatus k) 1 :=
    congrArg (fun w : Reg64 => w.toNat.testBit 1) (h.reg _ (by simp only [A.hbmStatus, A.hbm, A.snapTorn, A.mem]; omega))
  cases l with
  | page p a => simp only [State.recalHeld, hst, hbit]
  | chip a => rfl
  | bad k => rfl

theorem plain {a n : Nat} {ls : List Loc} (h : Entered s t) (hp : PlainPlaces s a n ls) : PlainPlaces t a n ls :=
  ⟨hp.1, fun i hi => ⟨(hp.2 i hi).1, (h.granAt _).trans (hp.2 i hi).2⟩⟩

end Entered

theorem State.noteTorn_entered (s : State) (ls : List Loc) : Entered s (s.noteTorn ls) := by
  unfold State.noteTorn
  extract_lets hits s1
  have h1 : Entered s s1 := .bump s _
  refine List.foldlRecOn (motive := Entered s) hits _ h1 fun t h q _ => h.trans ?_
  split
  · next p a _ =>
    refine ⟨rfl, fun _ _ => rfl, fun c => ?_⟩
    rw [State.modCx_eq, State.cx_setCx]
    split
    · next e =>
      subst e
      split
      · rfl
      · rfl
    · rfl
  · exact .refl t

theorem State.ingressAt_state (s : State) (c : Nat) (wr : Bool) (vas : List Nat) : ∃ l, (s.ingressAt c wr vas).2 = { s with ingress := l } := by
  unfold State.ingressAt
  extract_lets x s1
  split
  · exact ⟨_, rfl⟩
  · split
    · exact ⟨_, rfl⟩
    · exact ⟨_, rfl⟩

/-- Nothing that an arriving request waits for depends on the leaves that the ingress holds. -/
theorem Enters.setIngress {cls : Nat} {wr : Bool} {ls : List Loc} (h : Enters s cls wr ls) (l : List Page) : Enters { s with ingress := l } cls wr ls := h

theorem chipLines_plain {ls : List Loc} (h : ∀ l ∈ ls, s.PlainLoc l) : chipLines ls = [] :=
  List.filterMap_eq_nil_iff.mpr fun n hn => by
    obtain ⟨l, hl, hn⟩ := List.mem_filterMap.mp (mem_dedupNat.mp hn)
    obtain ⟨p, a, rfl, -⟩ := h l hl
    simp at hn

/-- The state in which a request acts: what a snapshot keeps has been noted before a write (R391). -/
def State.readied (s : State) (wr : Bool) (ls : List Loc) : State := if wr then s.noteTorn ls else s

theorem State.readied_entered (s : State) (wr : Bool) (ls : List Loc) : Entered s (s.readied wr ls) := by
  unfold State.readied
  split
  · exact s.noteTorn_entered ls
  · exact .refl s

/-- A request that waits for nothing, in the state in which the ingress knows its leaves. -/
theorem State.admitPkt_of_enters {x : Pkt} {e : Env} {c : Nat} {wr : Bool} {vas : List Nat} {ls : List Loc} (hw : s.walksWait c vas = false)
    (hi : s.ingressAt c wr vas = (.ok ls, t)) (he : Enters s x.cls wr ls) (fault : State → Nat → State) (act : State → List Loc → State) :
    ∃ u path, Entered s u ∧ s.admitPkt (HeldPkt.fresh x e) c wr vas fault act =
      if (chipLines ls).isEmpty then act u ls
      else (u.holdPkt { HeldPkt.fresh x e with locs := some ls, path }).queueUntimed ingressHome u.nextHeld ls := by
  obtain ⟨l, hl⟩ := s.ingressAt_state c wr vas
  rw [hi] at hl
  have hl : t = { s with ingress := l } := hl
  have ht : Entered s t := hl ▸ .setIngress s l
  obtain ⟨hwaits, hrecal, hsnap⟩ : Enters t x.cls wr ls := hl ▸ he.setIngress l
  have hfirst : (t.heldPkts.any fun y => y.locs.isNone && y.pkt.cls == x.cls) = false := by
    simp only [State.ingressWaits, Bool.or_eq_false_iff] at hwaits
    exact hwaits.1.1.1.2
  have hsnap' : (wr && t.snapWaits ls) = false := by
    cases wr with
    | false => rfl
    | true => simpa using hsnap rfl
  have hu : Entered t (t.readied wr ls) := t.readied_entered wr ls
  have hheld : ls.any (t.readied wr ls).recalHeld = false := by
    rw [← hrecal]
    exact congrArg (ls.any ·) (funext hu.recalHeld)
  refine ⟨t.readied wr ls, dedupNat (ls.flatMap t.plinthPath), ht.trans hu, ?_⟩
  unfold State.admitPkt
  rw [hw, hi]
  simp only [HeldPkt.fresh, hfirst, hsnap', hwaits, Bool.false_eq_true, if_false]
  show (if ((chipLines ls).isEmpty && !ls.any (t.readied wr ls).recalHeld) = true then act (t.readied wr ls) ls else _) = _
  rw [hheld, Bool.not_false, Bool.and_true]
  rfl

end Sys2Proof.Machine
end

section
/-!
SUPPORT. Requests of peers at their target (R322 to R326, R329, R350, R353, R366): what each does where its bytes lie in plain granules.
-/
namespace Sys2Proof.Machine

variable {s t u b : State}

/-! ### Accesses that wait at their banks (R49) -/

/-- An access of request `id` of `home` waits in some cluster or region buffer. -/
def State.Waits (s : State) (home id : Nat) : Prop :=
  (∃ r k, (s.cl r k).uaccs.any (UAcc.of home id) = true) ∨ ∃ r, (s.rg r).rbaccs.any (UAcc.of home id) = true

theorem State.Waits.untimedLeft {home id : Nat} (h : s.Waits home id) : s.untimedLeft home id = true := by
  unfold State.untimedLeft
  rw [Bool.or_eq_true, List.any_eq_true, List.any_eq_true]
  rcases h with ⟨r, k, h⟩ | ⟨r, h⟩
  · rcases Sparse.get_mem Cluster.init s.clusters (9 * r + k) with hd | hm
    · rw [State.cl, hd] at h
      cases h
    · exact .inl ⟨_, hm, h⟩
  · rcases Sparse.get_mem Region.init s.regions r with hd | hm
    · rw [State.rg, hd] at h
      cases h
    · exact .inr ⟨_, hm, h⟩

/-- One line's access joins those that wait. -/
def State.queueLine (home id : Nat) (s : State) (p : Nat × Nat × Nat) : State :=
  if p.2.1 = 9 then s.modRg p.1 fun g => { g with rbaccs := g.rbaccs ++ [⟨home, id, p.2.2, 0⟩] }
  else s.modCl p.1 p.2.1 fun c => { c with uaccs := c.uaccs ++ [⟨home, id, p.2.2, 0⟩] }

theorem State.queueLine_waits (home id : Nat) (s : State) (p : Nat × Nat × Nat) : (s.queueLine home id p).Waits home id := by
  unfold State.queueLine
  split
  · exact .inr ⟨p.1, by simp [UAcc.of]⟩
  · exact .inl ⟨p.1, p.2.1, by simp [UAcc.of]⟩

theorem State.queueUntimed_waits (home id : Nat) {ls : List Loc} (h : chipLines ls ≠ []) (s : State) : (s.queueUntimed home id ls).Waits home id := by
  show ((chipLines ls).foldl (State.queueLine home id) s).Waits home id
  rw [← List.dropLast_append_getLast h, List.foldl_append]
  exact State.queueLine_waits home id _ _

theorem State.queueUntimed_kept (s : State) (home id : Nat) (ls : List Loc) :
    (s.queueUntimed home id ls).heldPkts = s.heldPkts ∧ SameMemory s (s.queueUntimed home id ls) := by
  refine List.foldlRecOn (motive := fun t : State => t.heldPkts = s.heldPkts ∧ SameMemory s t) (chipLines ls) _ ⟨rfl, .of_eq rfl rfl rfl⟩
    fun t ⟨hh, hm⟩ p _ => ?_
  split
  · exact ⟨hh, hm.trans (.of_eq rfl rfl rfl)⟩
  · exact ⟨hh, hm.trans (.of_eq rfl rfl rfl)⟩

/-- An accepted request whose bytes lie in a region's own memory waits under its own number. -/
theorem State.heldAt_spec (s : State) (h : HeldPkt) {ls : List Loc} (hls : chipLines ls ≠ []) (hh : h.locs = some ls)
    (ht : (s.holdPkt h).queueUntimed ingressHome s.nextHeld ls = t) :
    (∃ y ∈ t.heldPkts, y.pkt = h.pkt ∧ y.locs = some ls ∧ t.untimedLeft ingressHome y.serial = true) ∧ SameMemory s t := by
  obtain ⟨hheld, hmem⟩ := (s.holdPkt h).queueUntimed_kept ingressHome s.nextHeld ls
  subst ht
  refine ⟨⟨{ h with serial := s.nextHeld }, ?_, rfl, hh, (State.queueUntimed_waits ingressHome s.nextHeld hls _).untimedLeft⟩,
    SameMemory.trans (.of_eq rfl rfl rfl) hmem⟩
  rw [hheld]
  exact List.mem_append_right _ (List.mem_singleton.mpr rfl)

/-! ### Numbers as bytes -/

theorem length_natToBytes (n w : Nat) : (natToBytes n w).length = n := by
  induction n generalizing w with
  | zero => rfl
  | succ n ih => exact congrArg (· + 1) (ih _)

theorem bytesToNat_natToBytes (n w : Nat) : bytesToNat (natToBytes n w) = w % 2 ^ (8 * n) := by
  induction n generalizing w with
  | zero => simp [natToBytes, bytesToNat, Nat.mod_one]
  | succ n ih =>
    rw [natToBytes, bytesToNat, ih, BitVec.toNat_ofNat, Nat.mul_succ, Nat.add_comm (8 * n), Nat.pow_add, Nat.mod_mul]

/-- A list read place by place. -/
theorem map_nth_range (l : List Byte) : (List.range l.length).map (fun i => nth 0#8 l i) = l :=
  List.ext_getElem (by simp) fun i h _ => by simp [nth_eq_getElem 0#8 l i (by simpa using h)]

/-! ### What the requests do in plain granules -/

/-- A request of a peer in the state in which it acts: `s` where it was admitted, `u` where its places are known. -/
structure Acting (s u : State) (x : Pkt) (p a n : Nat) (ls : List Loc) : Prop where
  entered : Entered s u
  answer  : CanAnswer u x p
  plain   : PlainPlaces u a n ls

theorem State.actRead_plain {x : Pkt} {e : Env} {a n : Nat} {ls : List Loc} (he : NoErrors e) (hp : PlainPlaces s a n ls) :
    ∃ mask, s.actRead x e ls = s.complete x 2 0 ((List.range n).map fun i => s.mem.read (a + i)) mask := by
  have hl := (PlainPlaces.run hp).2
  unfold State.actRead
  rw [State.noteReads_plain he hl, State.noteChip_quiet he]
  extract_lets s1 rs mask
  have hrs : rs.map (fun b => if b.poison then 0#8 else b.val) = (List.range n).map fun i => s.mem.read (a + i) := by
    unfold rs
    rw [State.read_run hp, List.map_map]
    rfl
  exact ⟨mask, by rw [hrs]⟩

theorem State.writePkt_plain {x : Pkt} {e : Env} {a n : Nat} {ls : List Loc} (he : NoErrors e) (hm : x.pmask = none) (hp : PlainPlaces s a n ls) :
    s.writePkt x e ls = s.writeLocs (maskedWrites ls x.data 0) := by
  have hl := (PlainPlaces.run hp).2
  unfold State.writePkt
  rw [State.noteTargets_plain he hl, State.countMasked_plain _ hl, hm]
  rfl

theorem CanAnswer.memoryOnly {x : Pkt} {p : Nat} (h : CanAnswer s x p) (hm : MemoryOnly s t) : CanAnswer t x p := by
  unfold MemoryOnly at hm
  exact h.congr ((congrArg State.active hm).trans rfl) ((congrArg State.sessions hm).trans rfl)
    fun a _ => (congrArg (fun v : State => v.reg a) hm).trans rfl

theorem State.actRead_spec {x : Pkt} {e : Env} {p a n : Nat} {ls : List Loc} (he : NoErrors e) (h : Acting s u x p a n ls) :
    Answered (u.actRead x e ls) p 2 0 x ((List.range n).map fun i => s.mem.read (a + i)) ∧ SameMemory s (u.actRead x e ls) := by
  obtain ⟨mask, hact⟩ := State.actRead_plain (x := x) he h.plain
  rw [hact, ← h.entered.mem]
  exact ⟨State.complete_answers h.answer .., h.entered.sameMemory.trans (State.complete_memory ..)⟩

/-- Memory after `data` is written from `a` on. -/
def Stored (s t : State) (a : Nat) (data : List Byte) : Prop :=
  (∀ i, i < data.length → t.mem.read (a + i) = nth 0#8 data i) ∧ ∀ c, (c < a ∨ a + data.length ≤ c) → t.mem.read c = s.mem.read c

theorem Stored.of_run {a : Nat} {data : List Byte} (h : ∀ c, t.mem.read c = if a ≤ c ∧ c < a + data.length then nth 0#8 data (c - a) else s.mem.read c) :
    Stored s t a data := by
  refine ⟨fun i hi => ?_, fun c hc => ?_⟩
  · rw [h, if_pos ⟨by omega, by omega⟩, Nat.add_sub_cancel_left]
  · rw [h, if_neg (by omega)]

theorem Stored.congr {a : Nat} {data : List Byte} (h : Stored s t a data) (hm : SameMemory t u) : Stored s u a data :=
  ⟨fun i hi => (hm.1 _).trans (h.1 i hi), fun c hc => (hm.1 c).trans (h.2 c hc)⟩

/-- The bytes of a packet without a mask, written where it acts. -/
theorem Acting.stored {x : Pkt} {p a : Nat} {ls : List Loc} {data : List Byte} (h : Acting s u x p a data.length ls) :
    Stored s (u.writeLocs (maskedWrites ls data 0)) a data := .of_run fun c => by
  rw [State.write_run h.plain, h.entered.mem]

theorem Acting.answer_written {x : Pkt} {p a n : Nat} {ls : List Loc} (h : Acting s u x p a n ls) (data : List Byte) :
    CanAnswer (u.writeLocs (maskedWrites ls data 0)) x p := h.answer.memoryOnly (State.writeLocs_rest (maskedWrites_plain h.plain data))

theorem State.actWrite_spec {x : Pkt} {e : Env} {p a : Nat} {ls : List Loc} (he : NoErrors e) (hm : x.pmask = none)
    (h : Acting s u x p a x.data.length ls) : Answered (u.actWrite x e ls) p 4 0 x [] ∧ Stored s (u.actWrite x e ls) a x.data := by
  unfold State.actWrite
  rw [State.writePkt_plain he hm h.plain]
  exact ⟨State.complete_answers (h.answer_written _) .., h.stored.congr (State.complete_memory ..)⟩

theorem popCount_zero (n : Nat) : popCount n 0 = 0 := by
  induction n with
  | zero => rfl
  | succ n ih => simp [popCount, ih]

/-- The result of an ATOM packet's one operation on four bytes. -/
def atomResult (s : State) (x : Pkt) (a : Nat) : List Byte :=
  natToBytes 4 (atomOp (field x.aux 0 3) (bitAt x.aux 3) 32 (bytesToNat ((List.range 4).map fun i => s.mem.read (a + i))) (bytesToNat x.data))

theorem State.atomPacket_plain {x : Pkt} {e : Env} {a : Nat} {ls : List Loc} (hm : x.pmask = none) (hd : x.data.length = 4) (h4 : bitAt x.aux 4 = false)
    (hp : PlainPlaces s a 4 ls) : s.atomPacket e ls x = s.writeLocs (maskedWrites ls (atomResult s x a) 0) := by
  have hlen : ls.length = 4 := by
    obtain ⟨⟨q, -, rfl⟩, -⟩ := hp
    simp
  have hrs := State.read_run hp e
  have htake : (ls.drop 0).take 4 = ls := by rw [List.drop_zero]; exact List.take_of_length_le hlen.le
  have hdata : (x.data.drop 0).take 4 = x.data := by rw [List.drop_zero]; exact List.take_of_length_le hd.le
  have hpoison : (ls.map (s.readByte e)).any ByteRead.poison = false := by rw [hrs]; rfl
  have hval : (ls.map (s.readByte e)).map ByteRead.val = (List.range 4).map fun i => s.mem.read (a + i) := by rw [hrs]; exact List.map_map ..
  unfold State.atomPacket
  rw [h4, hm, hd]
  show (if (bitAt 0 0 || (((ls.drop 0).take 4).map (s.readByte e)).any ByteRead.poison) = true then s
    else s.writeLocs (maskedWrites ((ls.drop 0).take 4) (natToBytes 4 (atomOp (field x.aux 0 3) (bitAt x.aux 3) 32
      (bytesToNat ((((ls.drop 0).take 4).map (s.readByte e)).map ByteRead.val)) (bytesToNat ((x.data.drop 0).take 4)))) 0)) = _
  rw [htake, hdata, hval, if_neg (by rw [hpoison]; decide)]
  rfl

theorem State.actAtom_spec {x : Pkt} {e : Env} {p a : Nat} {ls : List Loc} (he : NoErrors e) (hm : x.pmask = none) (hd : x.data.length = 4)
    (h4 : bitAt x.aux 4 = false) (hop : field x.aux 0 3 < 6) (h : Acting s u x p a 4 ls) :
    Answered (u.actAtom x e ls) p 6 0 x [] ∧ Stored s (u.actAtom x e ls) a (atomResult s x a) := by
  have hl := (PlainPlaces.run h.plain).2
  have hskip : u.atomPacketSkips e ls x = 0 := by
    have hnone : (ls.filter fun l => (u.readByte e l).poison) = [] := List.filter_eq_nil_iff.mpr fun l hl' => by simp [(hl l hl').readByte e]
    unfold State.atomPacketSkips
    rw [hnone, hm]
    simp only [List.map_nil, Option.getD_none, dedupNat, popCount_zero]
    rfl
  have hresult : atomResult u x a = atomResult s x a := by unfold atomResult; rw [h.entered.mem]
  have hlen : (atomResult s x a).length = 4 := length_natToBytes ..
  unfold State.actAtom
  rw [if_neg (by omega), State.noteTargets_plain he hl, State.noteChip_quiet he]
  dsimp only
  rw [hskip]
  show Answered ((u.atomPacket e ls x).complete x 6 0 [] 0) p 6 0 x [] ∧ Stored s ((u.atomPacket e ls x).complete x 6 0 [] 0) a _
  rw [State.atomPacket_plain hm hd h4 h.plain, hresult]
  have hst : Acting s u x p a (atomResult s x a).length ls := hlen ▸ h
  exact ⟨State.complete_answers (h.answer_written _) .., hst.stored.congr (State.complete_memory ..)⟩

theorem Stored.bytesToNat {a : Nat} {data : List Byte} (h : Stored s t a data) :
    bytesToNat ((List.range data.length).map fun i => t.mem.read (a + i)) = Sys2Proof.Machine.bytesToNat data := by
  rw [← congrArg Sys2Proof.Machine.bytesToNat (map_nth_range data)]
  exact congrArg Sys2Proof.Machine.bytesToNat (List.map_congr_left fun i hi => h.1 i (List.mem_range.mp hi))

/-! ### Collectives at their target (R350, R366) -/

theorem addSpan_ne_nil (lo hi : Nat) (l : List (Nat × Nat)) : addSpan lo hi l ≠ [] := by
  induction l generalizing lo hi with
  | nil => simp [addSpan]
  | cons y l ih =>
    unfold addSpan
    split
    · simp
    · split
      · simp
      · exact ih _ _

/-- What is held is what was noted last. -/
theorem Ctx.gotAt_setGot (x : Ctx) (bidx level dir edge : Nat) {got : List (Nat × Nat)} (h : got ≠ []) :
    (x.setGot bidx level dir edge got).gotAt bidx level dir edge = got := by
  have hnone : (x.rx.filter fun y => !(y.bidx == bidx && y.level == level)).find? (fun y => y.bidx == bidx && y.level == level
      && y.par == Sparse.get 0 x.prx (parityKey bidx dir edge)) = none := List.find?_eq_none.mpr fun y hy => by
    have := (List.mem_filter.mp hy).2
    simp only [Bool.not_eq_true', Bool.and_eq_false_iff] at this
    rcases this with h | h <;> simp [h]
  have hempty : got.isEmpty = false := by simpa using h
  simp only [Ctx.gotAt, Ctx.setGot, hempty, Bool.false_eq_true, if_false, List.find?_append, hnone]
  simp

theorem State.rdownOf_congr (hc : t.clusters = s.clusters) (hr : t.regions = s.regions) (c bidx : Nat) : t.rdownOf c bidx = s.rdownOf c bidx := by
  unfold State.rdownOf State.regionsOf State.rg State.cl
  rw [hc, hr]

theorem Entered.collLate (h : Entered s u) (x : Pkt) (up : Bool) (c : Nat) : u.collLate x up c = s.collLate x up c := by
  unfold State.collLate
  rw [h.cx c]

theorem Entered.gotAt (h : Entered s u) (c bidx level dir edge : Nat) : (u.cx c).gotAt bidx level dir edge = (s.cx c).gotAt bidx level dir edge := by
  rw [h.cx c]
  rfl

/-- What is held after a collective packet, and how its bucket counts it: its key and its direction. -/
def CollHeld (s t : State) (x : Pkt) (up : Bool) (c : Nat) : Prop :=
  ∀ key dir, key = (if up then field x.aux 24 4 else 16) → dir = (if up then 0 else 1) →
    (t.cx c).gotAt (field x.aux 0 8) key dir (field x.aux 24 4)
      = addSpan x.addr (x.addr + x.data.length) ((s.cx c).gotAt (field x.aux 0 8) key dir (field x.aux 24 4))

theorem State.actColl_spec {x : Pkt} {e : Env} {up : Bool} {c p a : Nat} {bk : Bucket} {ls : List Loc} (he : NoErrors e) (hm : x.pmask = none)
    (hlate : s.collLate x up c = false) (hrd : up = false → s.rdownOf c (field x.aux 0 8) = none) (h : Acting s u x p a x.data.length ls)
    (ht : u.actColl x e up c bk ls = t) : Answered t p 0x12 0 x [] ∧ Stored s t a x.data ∧ CollHeld s t x up c := by
  unfold State.actColl at ht
  rw [h.entered.collLate, hlate, State.writePkt_plain he hm h.plain] at ht
  have hw := State.writeLocs_rest (maskedWrites_plain h.plain x.data)
  have hst := h.stored
  have hans := h.answer_written x.data
  generalize u.writeLocs (maskedWrites ls x.data 0) = v at ht hw hst hans
  extract_lets bidx level key dir s1 s2 at ht
  unfold MemoryOnly at hw
  have hcx : v.cx c = u.cx c := (congrArg (fun w : State => w.cx c) hw).trans rfl
  have hans1 : CanAnswer s1 x p := hans.congr rfl rfl fun _ _ => rfl
  have hd2 : DataStep s1 s2 := s1.complete_data ..
  have hrdown : up = false → s2.rdownOf c bidx = none := fun hup => by
    rw [← hrd hup]
    refine State.rdownOf_congr ?_ ?_ c bidx
    · exact ((hd2.clusters.trans rfl).trans ((congrArg State.clusters hw).trans rfl)).trans h.entered.clusters
    · exact ((hd2.regions.trans rfl).trans ((congrArg State.regions hw).trans rfl)).trans h.entered.regions
  have ht2 : t = s2 := by
    rw [← ht]
    cases up with
    | true => rfl
    | false =>
      show s2.tryRdown c bidx bk e = s2
      unfold State.tryRdown
      rw [hrdown rfl]
  have hmem1 : SameMemory v s1 := .of_eq rfl rfl rfl
  rw [ht2]
  refine ⟨State.complete_answers hans1 .., (hst.congr hmem1).congr (State.complete_memory ..), ?_⟩
  rintro _ _ rfl rfl
  have hs1 : s1.cx c = (v.cx c).setGot bidx key dir level (addSpan x.addr (x.addr + x.data.length) ((v.cx c).gotAt bidx key dir level)) :=
    State.cx_setCx_same ..
  rw [hd2.cx, hs1, Ctx.gotAt_setGot _ _ _ _ _ (addSpan_ne_nil _ _ _), hcx, h.entered.gotAt]

/-! ### The rows -/

theorem State.admitPkt_plain {x : Pkt} {e : Env} {c p a n : Nat} {wr : Bool} {vas : List Nat} {ls : List Loc} (ha : CanAnswer s x p)
    (hw : s.walksWait c vas = false) (hi : s.ingressAt c wr vas = (.ok ls, t)) (he : Enters s x.cls wr ls) (hp : PlainPlaces s a n ls)
    (fault : State → Nat → State) (act : State → List Loc → State) :
    ∃ u, Acting s u x p a n ls ∧ s.admitPkt (HeldPkt.fresh x e) c wr vas fault act = act u ls := by
  obtain ⟨u, path, hu, heq⟩ := State.admitPkt_of_enters (e := e) hw hi he fault act
  rw [chipLines_plain (PlainPlaces.run hp).2] at heq
  exact ⟨u, ⟨hu, hu.canAnswer ha, hu.plain hp⟩, heq⟩

theorem State.rdReq_plain {x : Pkt} {e : Env} {c p a : Nat} {ls : List Loc} (hne : NoErrors e) (ha : CanAnswer s x p) (hc : s.ctxOfJob x.job = some c)
    (hw : s.walksWait c (spanFrom x.addr x.len) = false) (hi : s.ingressAt c false (spanFrom x.addr x.len) = (.ok ls, u))
    (he : Enters s x.cls false ls) (hp : PlainPlaces s a x.len ls) (ht : s.rdReq (HeldPkt.fresh x e) = t) :
    Answered t p 2 0 x ((List.range x.len).map fun i => s.mem.read (a + i)) ∧ SameMemory s t := by
  have hx : (HeldPkt.fresh x e).pkt = x := rfl
  unfold State.rdReq State.memReq at ht
  rw [hx, hc] at ht
  obtain ⟨v, hv, heq⟩ := State.admitPkt_plain (e := e) ha hw hi he hp
    (fun s k => (s.ingressFault k x.src c).complete x 2 2 [] 0) fun s ls => s.actRead x e ls
  rw [← heq.symm.trans ht]
  exact State.actRead_spec hne hv

theorem State.rdReq_held {x : Pkt} {e : Env} {c : Nat} {ls : List Loc} (hc : s.ctxOfJob x.job = some c)
    (hw : s.walksWait c (spanFrom x.addr x.len) = false) (hi : s.ingressAt c false (spanFrom x.addr x.len) = (.ok ls, u))
    (he : Enters s x.cls false ls) (hls : chipLines ls ≠ []) (ht : s.rdReq (HeldPkt.fresh x e) = t) :
    (∃ h ∈ t.heldPkts, h.pkt = x ∧ h.locs = some ls ∧ t.untimedLeft ingressHome h.serial = true) ∧ SameMemory s t := by
  have hx : (HeldPkt.fresh x e).pkt = x := rfl
  unfold State.rdReq State.memReq at ht
  rw [hx, hc] at ht
  obtain ⟨v, path, hv, heq⟩ := State.admitPkt_of_enters (e := e) hw hi he (fun s k => (s.ingressFault k x.src c).complete x 2 2 [] 0)
    fun s ls => s.actRead x e ls
  rw [if_neg (by simpa using hls)] at heq
  obtain ⟨hheld, hmem⟩ := State.heldAt_spec v { HeldPkt.fresh x e with locs := some ls, path } hls rfl (heq.symm.trans ht)
  exact ⟨hheld, hv.sameMemory.trans hmem⟩

theorem State.wrReq_plain {x : Pkt} {e : Env} {c p a : Nat} {ls : List Loc} (hne : NoErrors e) (hm : x.pmask = none) (ha : CanAnswer s x p)
    (hc : s.ctxOfJob x.job = some c) (hw : s.walksWait c (spanFrom x.addr x.data.length) = false)
    (hi : s.ingressAt c true (spanFrom x.addr x.data.length) = (.ok ls, u)) (he : Enters s x.cls true ls) (hp : PlainPlaces s a x.data.length ls)
    (ht : s.wrReq (HeldPkt.fresh x e) = t) : Answered t p 4 0 x [] ∧ Stored s t a x.data := by
  have hx : (HeldPkt.fresh x e).pkt = x := rfl
  unfold State.wrReq State.memReq at ht
  rw [hx, hc] at ht
  obtain ⟨v, hv, heq⟩ := State.admitPkt_plain (e := e) ha hw hi he hp
    (fun s k => (s.ingressFault k x.src c).complete x 4 2 [] 0) fun s ls => s.actWrite x e ls
  rw [← heq.symm.trans ht]
  exact State.actWrite_spec hne hm hv

theorem State.atomReq_plain {x : Pkt} {e : Env} {c p a : Nat} {ls : List Loc} (hne : NoErrors e) (hm : x.pmask = none) (ha : CanAnswer s x p)
    (hc : s.ctxOfJob x.job = some c) (hd : x.data.length = 4) (h4 : bitAt x.aux 4 = false) (hop : field x.aux 0 3 < 6)
    (hw : s.walksWait c (spanFrom x.addr 4) = false) (hi : s.ingressAt c true (spanFrom x.addr 4) = (.ok ls, u)) (he : Enters s x.cls true ls)
    (hp : PlainPlaces s a 4 ls) (ht : s.atomReq (HeldPkt.fresh x e) = t) : Answered t p 6 0 x [] ∧ Stored s t a (atomResult s x a) := by
  have hx : (HeldPkt.fresh x e).pkt = x := rfl
  unfold State.atomReq State.memReq at ht
  rw [hx, hc, hd] at ht
  obtain ⟨v, hv, heq⟩ := State.admitPkt_plain (e := e) ha hw hi he hp
    (fun s k => (s.ingressFault k x.src c).complete x 6 2 [] 0) fun s ls => s.actAtom x e ls
  rw [← heq.symm.trans ht]
  exact State.actAtom_spec hne hm hd h4 hop hv

/-- A register of the reduction block that counts what is refused or late. -/
theorem State.countedAnswer {x : Pkt} {p r status : Nat} (ha : CanAnswer s x p) (hlow : r < 0x20000) (hr : ¬ DataReg r)
    (ht : (s.bump r 1).complete x 0x12 status [] 0 = t) :
    Answered t p 0x12 status x [] ∧ t.reg r = BitVec.ofNat 64 (satAdd 48 (s.regN r) 1) ∧ SameMemory s t := by
  have hb : RegsOnly (· = r) s (s.bump r 1) := .bump s 1 rfl
  have hans : CanAnswer (s.bump r 1) x p := ha.congr (State.bump_active ..) (State.bump_sessions ..) fun a hl => hb.reg a (by omega)
  subst ht
  exact ⟨State.complete_answers hans .., ((State.complete_data ..).reg _ hr).trans (State.reg_bump_one ..), hb.sameMemory.trans (State.complete_memory ..)⟩

theorem redRefused_not_data : ¬ DataReg A.redRefused := fun h => by
  have h' := h.place
  simp only [A.redRefused, A.red] at h'
  omega

theorem redLate_not_data {c : Nat} (hc : c < 16) : ¬ DataReg (A.redLate c) := fun h => by
  have h' := h.place
  simp only [A.redLate, A.red] at h'
  omega

theorem State.ctxOfJob_lt {job c : Nat} (h : s.ctxOfJob job = some c) : c < 16 := List.mem_range.mp (List.mem_of_find?_eq_some h)

theorem State.collRefused_ctx {x : Pkt} {up : Bool} {e : Env} {c : Nat} {bk : Bucket} (h : s.collRefused x up e = some (c, bk)) :
    s.ctxOfJob x.job = some c := by
  unfold State.collRefused at h
  split at h
  · cases h
  · next c' hc =>
    split at h
    · cases h
    · extract_lets level me edge sender size at h
      split at h
      · cases h; exact hc
      · cases h

theorem State.collReq_refused {x : Pkt} {up : Bool} {e : Env} (h : s.collRefused x up e = none) :
    s.collReq (HeldPkt.fresh x e) up = (s.bump A.redRefused 1).complete x 0x12 1 [] 0 := by
  unfold State.collReq
  simp only [HeldPkt.fresh, h]

theorem State.collReq_late {x : Pkt} {up : Bool} {e : Env} {c : Nat} {bk : Bucket} (h : s.collRefused x up e = some (c, bk))
    (hl : s.collLate x up c = true) : s.collReq (HeldPkt.fresh x e) up = (s.bump (A.redLate c) 1).complete x 0x12 0 [] 0 := by
  unfold State.collReq
  simp only [HeldPkt.fresh, h, hl, if_true]

theorem State.collReq_plain {x : Pkt} {up : Bool} {e : Env} {c p a : Nat} {bk : Bucket} {ls : List Loc} {vas : List Nat} (hne : NoErrors e)
    (hm : x.pmask = none) (ha : CanAnswer s x p) (hr : s.collRefused x up e = some (c, bk))
    (hvas : vas = spanFrom ((if up then bk.stageAt (field x.aux 24 4) else bk.result) + x.addr) x.data.length) (hl : s.collLate x up c = false)
    (hw : s.walksWait c vas = false) (hi : s.ingressAt c true vas = (.ok ls, u)) (he : Enters s x.cls true ls) (hp : PlainPlaces s a x.data.length ls)
    (hrd : up = false → s.rdownOf c (field x.aux 0 8) = none) (ht : s.collReq (HeldPkt.fresh x e) up = t) :
    Answered t p 0x12 0 x [] ∧ Stored s t a x.data ∧ CollHeld s t x up c := by
  have hx : (HeldPkt.fresh x e).pkt = x := rfl
  have henv : (HeldPkt.fresh x e).env = e := rfl
  unfold State.collReq at ht
  rw [hx, henv] at ht
  dsimp only at ht
  rw [hr] at ht
  dsimp only at ht
  rw [hl, ← hvas] at ht
  obtain ⟨v, hv, heq⟩ := State.admitPkt_plain (e := e) ha hw hi he hp
    (fun s k => (s.ingressFault k x.src c).complete x 0x12 2 [] 0) fun s ls => s.actColl x e up c bk ls
  exact State.actColl_spec hne hm hl hrd hv (heq.symm.trans ht)

theorem exec_remote {i : Instr} {ty : Nat} {x : Pkt} {e : Env} (h : i = .rdReq x e ∧ ty = 1 ∨ i = .wr x e ∧ ty = 3 ∨ i = .atom x e ∧ ty = 5)
    (ha : Accepts s ty x t) : exec i s = .next (if ty = 1 then t.rdReq (HeldPkt.fresh x e) else if ty = 3 then t.wrReq (HeldPkt.fresh x e)
      else t.atomReq (HeldPkt.fresh x e)) := by
  have hok : x.ok = true := ha.1
  rcases h with ⟨rfl, rfl⟩ | ⟨rfl, rfl⟩ | ⟨rfl, rfl⟩
  · exact (if_pos hok).trans (congrArg Host.Outcome.next (ha.receive _))
  · exact (if_pos hok).trans (congrArg Host.Outcome.next (ha.receive _))
  · exact (if_pos hok).trans (congrArg Host.Outcome.next (ha.receive _))

theorem exec_coll {i : Instr} {ty : Nat} {up : Bool} {x : Pkt} {e : Env}
    (h : i = .collUp x e ∧ ty = 0x10 ∧ up = true ∨ i = .collDown x e ∧ ty = 0x11 ∧ up = false) (ha : Accepts s ty x t) :
    exec i s = .next (t.collReq (HeldPkt.fresh x e) up) := by
  have hok : x.ok = true := ha.1
  rcases h with ⟨rfl, rfl, rfl⟩ | ⟨rfl, rfl, rfl⟩
  · exact (if_pos hok).trans (congrArg Host.Outcome.next (ha.receive _))
  · exact (if_pos hok).trans (congrArg Host.Outcome.next (ha.receive _))

/-- A request whose job no context holds is answered REFUSED. -/
theorem State.memReq_refused {x : Pkt} {e : Env} (cpl : Nat) (wr : Bool) (n : Nat) (act : State → List Loc → State) (h : s.ctxOfJob x.job = none) :
    s.memReq (HeldPkt.fresh x e) cpl wr n act = s.complete x cpl 1 [] 0 := by
  unfold State.memReq
  simp only [HeldPkt.fresh, h]

theorem State.refused_spec {x : Pkt} {p cpl : Nat} (ha : CanAnswer s x p) (ht : s.complete x cpl 1 [] 0 = t) :
    Answered t p cpl 1 x [] ∧ SameMemory s t := by
  subst ht
  exact ⟨State.complete_answers ha .., State.complete_memory ..⟩

/-- Settles O49: the checks leave a state in which the sender can be answered, and a request that enters acts on plain granules alone. -/
theorem remoteRequestsAct : Obligations.RemoteRequestsAct := by
  intro s s1 s2 x e c p a ls hm hne hegress hsession
  have hans {ty : Nat} (h : Accepts s ty x s1) : CanAnswer s1 x p := ⟨h.isMember, hegress, hsession⟩
  refine ⟨fun h hc hw hi he => ⟨fun hp => ?_, fun hls => ?_⟩, fun h hc hw hi he hp => ?_, fun h hc hw hd h4 hop hi he hp => ?_,
    fun i ty up hrow h => ⟨fun hr => ?_, fun bk hr => ⟨fun hl => ?_, fun vas hvas hl hw hi he hp hrd => ?_⟩⟩, fun i ty hrow h hc => ?_⟩
  · exact ⟨_, exec_remote (.inl ⟨rfl, rfl⟩) h, State.rdReq_plain hne (hans h) hc hw hi he hp rfl⟩
  · exact ⟨_, exec_remote (.inl ⟨rfl, rfl⟩) h, State.rdReq_held hc hw hi he hls rfl⟩
  · obtain ⟨hanswer, hin, hout⟩ := State.wrReq_plain hne hm (hans h) hc hw hi he hp rfl
    exact ⟨_, exec_remote (.inr (.inl ⟨rfl, rfl⟩)) h, hanswer, hin, hout⟩
  · obtain ⟨hanswer, hst⟩ := State.atomReq_plain hne hm (hans h) hc hd h4 hop hw hi he hp rfl
    have hlen : (atomResult s1 x a).length = 4 := length_natToBytes ..
    have hval := hst.bytesToNat
    obtain ⟨-, hout⟩ := hst
    rw [hlen] at hval hout
    exact ⟨_, exec_remote (.inr (.inr ⟨rfl, rfl⟩)) h, hanswer, hval.trans (bytesToNat_natToBytes 4 _), hout⟩
  · exact ⟨_, exec_coll hrow h, State.countedAnswer (hans h) (by decide) redRefused_not_data (State.collReq_refused hr).symm⟩
  · have hc : c < 16 := State.ctxOfJob_lt (State.collRefused_ctx hr)
    exact ⟨_, exec_coll hrow h, State.countedAnswer (hans h) (by simp only [A.redLate, A.red]; omega) (redLate_not_data hc) (State.collReq_late hr hl).symm⟩
  · obtain ⟨hanswer, ⟨hin, hout⟩, hheld⟩ := State.collReq_plain hne hm (hans h) hr hvas hl hw hi he hp hrd rfl
    exact ⟨_, exec_coll hrow h, hanswer, hin, hout, hheld⟩
  · refine ⟨_, exec_remote hrow h, State.refused_spec (hans h) ?_⟩
    rcases hrow with ⟨-, rfl⟩ | ⟨-, rfl⟩ | ⟨-, rfl⟩
    · exact (State.memReq_refused 2 false _ _ hc).symm
    · exact (State.memReq_refused 4 true _ _ hc).symm
    · exact (State.memReq_refused 6 true _ _ hc).symm

end Sys2Proof.Machine
end

section
/-!
SUPPORT. Bits and numbers (R65): an element put together from its sign, exponent field and fraction, and an integer element as the value of
a bit vector.
-/
namespace Sys2Proof.Machine

/-! ### Integer elements -/

theorem toBits_eq_toNat (n : Nat) (z : Int) : toBits n z = (BitVec.ofInt n z).toNat :=
  (BitVec.toNat_ofInt z).symm

theorem signed_eq_toInt (n w : Nat) : signed n w = (BitVec.ofNat n w).toInt := by
  have hmsb : (BitVec.ofNat n w).msb = (decide (n ≠ 0) && (w % 2 ^ n).testBit (n - 1)) := by
    rw [BitVec.msb_eq_getLsbD_last, BitVec.getLsbD_ofNat, Nat.testBit_mod_two_pow]
    by_cases hn : n = 0 <;> simp [hn, Nat.pos_of_ne_zero]
  simp only [signed, BitVec.toInt_eq_msb_cond, hmsb, BitVec.toNat_ofNat, Bool.and_eq_true, decide_eq_true_eq]

theorem toBits_signed (n w : Nat) : toBits n (signed n w) = w % 2 ^ n := by
  rw [toBits_eq_toNat, signed_eq_toInt, BitVec.ofInt_toInt, BitVec.toNat_ofNat]

theorem toBits_natCast (n w : Nat) : toBits n (w : Int) = w % 2 ^ n := by
  rw [toBits, ← Int.natCast_mod, Int.toNat_natCast]

/-- R65: the integer an integer format reads in an element. -/
def Fmt.intOf (f : Fmt) (w : Nat) : Int := if f.isSigned then signed f.bits w else ((w % 2 ^ f.bits : Nat) : Int)

theorem Fmt.intOf_range (f : Fmt) (w : Nat) : f.intMin ≤ f.intOf w ∧ f.intOf w ≤ f.intMax := by
  unfold Fmt.intMin Fmt.intMax Fmt.intOf
  split
  · have hlo := BitVec.le_toInt (BitVec.ofNat f.bits w)
    have hhi := BitVec.toInt_lt (x := BitVec.ofNat f.bits w)
    rw [signed_eq_toInt]
    push_cast
    omega
  · have := Nat.mod_lt w (Nat.two_pow_pos f.bits)
    omega

theorem Fmt.toBits_intOf (f : Fmt) (w : Nat) : toBits f.bits (f.intOf w) = w % 2 ^ f.bits := by
  unfold Fmt.intOf
  split
  · exact toBits_signed ..
  · rw [toBits_natCast, Nat.mod_mod]

theorem signedOf_natAbs (z : Int) : signedOf (z < 0) z.natAbs = z := by
  by_cases h : z < 0
  · rw [decide_eq_true h, signedOf, if_pos rfl, Int.ofNat_natAbs_of_nonpos h.le, neg_neg]
  · rw [decide_eq_false h, signedOf, if_neg Bool.false_ne_true, Int.natAbs_of_nonneg (not_lt.mp h)]

theorem decodeFmt_int {f : Fmt} (h : f.shape = none) (w : Nat) : decodeFmt f w = FV.ofInt (f.intOf w) := by
  simp only [decodeFmt, h, Fmt.intOf]

theorem roundTo_int {f : Fmt} (h : f.shape = none) (c : RndCtx) (x : FV) : roundTo f c x = roundInt f c x := by
  simp only [roundTo, h]

theorem encodeFmt_ofInt {f : Fmt} (h : f.shape = none) (z : Int) : encodeFmt f (FV.ofInt z) = toBits f.bits z := by
  simp only [encodeFmt, h, FV.ofInt, le_refl, if_true, Int.toNat_zero, Nat.shiftLeft_zero, signedOf_natAbs]

/-- R75: a multiple of the unit is its own rounding, in every mode. -/
theorem roundUnits_self (c : RndCtx) (n : Bool) (m : Nat) (q : Int) : roundUnits c n m q q = (m, true) := by
  simp [roundUnits, inUnits]

theorem roundInt_ofInt {f : Fmt} {z : Int} (c : RndCtx) (h : f.intMin ≤ z ∧ z ≤ f.intMax) :
    roundInt f c (FV.ofInt z) = ⟨FV.ofInt z, Flag.none⟩ := by
  simp only [roundInt, FV.ofInt, roundUnits_self, signedOf_natAbs, h, and_self, if_true]

/-! ### Elements of a float format -/

namespace FloatShape

/-- The element with sign `n`, exponent field `e` and fraction field `m`. -/
def pack (s : FloatShape) (n : Bool) (e m : Nat) : Nat := (if n then 2 ^ (s.eb + s.mb) else 0) + (e <<< s.mb) + m

/-- The significand as a natural, with the hidden bit of a normal number. -/
def sig (s : FloatShape) (e m : Nat) : Nat := if e = 0 then m else 2 ^ s.mb + m

/-- The exponent of the significand's lowest bit; subnormals share the lowest normal's. -/
def lsb (s : FloatShape) (e : Nat) : Int := ((max e 1 : Nat) : Int) - s.bias - s.mb

/-- The fields spell a finite number: the exponent field of all ones is taken by the special values of R65. -/
def Finite (s : FloatShape) (e m : Nat) : Prop :=
  e < 2 ^ s.eb ∧ m < 2 ^ s.mb ∧ (e = 2 ^ s.eb - 1 → s.sp ≠ .ieee ∧ (s.sp = .e4m3 → m ≠ 2 ^ s.mb - 1))

/-- The shape leaves room for a normal number beside the special values, and for a fraction. -/
def Roomy (s : FloatShape) : Prop := 2 ≤ s.eb ∧ 1 ≤ s.mb

end FloatShape

theorem Fmt.shape_layout {f : Fmt} {s : FloatShape} (h : f.shape = some s) : f.bits = s.eb + s.mb + 1 ∧ s.Roomy := by
  cases f <;> cases h <;> exact ⟨rfl, by decide, by decide⟩

variable {f : Fmt} {s : FloatShape} {e m : Nat}

theorem FloatShape.pack_fields (s : FloatShape) {w : Nat} (h : w < 2 ^ (s.eb + s.mb + 1)) :
    s.pack (bitAt w (s.eb + s.mb)) (field w s.mb s.eb) (field w 0 s.mb) = w := by
  have hsign : (if bitAt w (s.eb + s.mb) then 2 ^ (s.eb + s.mb) else 0) = 2 ^ (s.eb + s.mb) * (w / 2 ^ (s.eb + s.mb)) := by
    have hlt : w / 2 ^ (s.eb + s.mb) < 2 := Nat.div_lt_of_lt_mul (by rwa [← pow_succ])
    rw [bitAt, Nat.testBit_eq_decide_div_mod_eq, Nat.mod_eq_of_lt hlt]
    rcases Nat.lt_succ_iff_lt_or_eq.mp hlt with h0 | h1
    · simp [Nat.lt_one_iff.mp h0]
    · simp [h1]
  have hexp : field w s.mb s.eb <<< s.mb = 2 ^ s.mb * (w / 2 ^ s.mb % 2 ^ s.eb) := by
    rw [field, Nat.shiftLeft_eq, Nat.shiftRight_eq_div_pow, Nat.mul_comm]
  calc s.pack _ _ _ = 2 ^ (s.eb + s.mb) * (w / 2 ^ (s.eb + s.mb)) + 2 ^ s.mb * (w / 2 ^ s.mb % 2 ^ s.eb) + w % 2 ^ s.mb := by
        rw [pack, hsign, hexp, field, Nat.shiftRight_zero]
    _ = 2 ^ (s.mb + s.eb) * (w / 2 ^ (s.mb + s.eb)) + w % 2 ^ (s.mb + s.eb) := by
        rw [Nat.add_comm s.eb, pow_add 2 s.mb, Nat.mod_mul]; omega
    _ = w := Nat.div_add_mod ..

theorem FloatShape.Finite.sig_lt (h : s.Finite e m) : s.sig e m < 2 ^ (s.mb + 1) := by
  obtain ⟨-, hm, -⟩ := h
  rw [sig, pow_succ]
  split <;> omega

theorem FloatShape.sig_eq_zero (h : s.sig e m = 0) : e = 0 ∧ m = 0 := by
  have := Nat.two_pow_pos s.mb
  unfold sig at h
  split at h <;> omega

/-- R65: an encoding is the unique one of its value: the exponent that rounding and encoding take is the one it is written with. -/
theorem FloatShape.Finite.lsb_unique (h : s.Finite e m) (h0 : s.sig e m ≠ 0) :
    max (ilog2 (s.sig e m) (s.lsb e)) (1 - (s.bias : Int)) - s.mb = s.lsb e := by
  have hlt := h.sig_lt
  obtain ⟨-, hm, -⟩ := h
  unfold ilog2 lsb sig at *
  split at h0
  case isTrue he =>
    have := (Nat.log2_lt h0).mpr hm
    simp only [he, if_true]
    omega
  case isFalse he =>
    have : (2 ^ s.mb + m).log2 = s.mb := (Nat.log2_eq_iff h0).mpr ⟨Nat.le_add_right .., by simpa [he] using hlt⟩
    simp only [he, if_false, this]
    omega

/-- `a` units are at most `b` units that are no smaller, where doubling `b` makes up for `a` when it is greater. -/
theorem magLe_of_le {a b : Nat} {p q : Int} (h : p ≤ q) (ha : a ≤ b ∨ p < q ∧ a ≤ 2 * b) : magLe a p b q = true := by
  obtain ⟨k, rfl⟩ : ∃ k : Nat, q = p + k := ⟨(q - p).toNat, by omega⟩
  have hk : a ≤ b * 2 ^ k := by
    rcases ha with ha | ⟨hlt, ha⟩
    · exact ha.trans (Nat.le_mul_of_pos_right _ (Nat.two_pow_pos k))
    · calc a ≤ b * 2 := by omega
        _ ≤ b * 2 ^ k := Nat.mul_le_mul_left _ (Nat.le_self_pow (by omega) 2)
  simpa [magLe, inUnits, Nat.shiftLeft_eq] using hk

/-- R65: no finite number is beyond the largest. -/
theorem FloatShape.Finite.le_maxFin (hs : s.Roomy) (h : s.Finite e m) : magLe (s.sig e m) (s.lsb e) s.maxFin.1 s.maxFin.2 = true := by
  have hlt := h.sig_lt
  obtain ⟨he, hm, hsp⟩ := h
  obtain ⟨heb, hmb⟩ := hs
  have heb4 : 2 ^ 2 ≤ 2 ^ s.eb := Nat.pow_le_pow_right (by decide) heb
  have hmb2 : 2 ^ 1 ≤ 2 ^ s.mb := Nat.pow_le_pow_right (by decide) hmb
  have htop : (2 : Int) ^ s.eb - 1 = ((2 ^ s.eb - 1 : Nat) : Int) := by
    rw [Nat.cast_sub (Nat.two_pow_pos _), Nat.cast_pow, Nat.cast_ofNat, Nat.cast_one]
  rw [pow_succ] at hlt
  cases hk : s.sp with
  | ieee =>
    have hne : e ≠ 2 ^ s.eb - 1 := fun heq => (hsp heq).1 hk
    simp only [maxFin, lsb, hk, htop, pow_succ]
    exact magLe_of_le (by omega) (.inl (by omega))
  | none =>
    simp only [maxFin, lsb, hk, htop, pow_succ]
    exact magLe_of_le (by omega) (.inl (by omega))
  | e4m3 =>
    have hmax : e = 2 ^ s.eb - 1 → s.sig e m ≤ 2 ^ s.mb * 2 - 2 := fun heq => by
      have hne : m ≠ 2 ^ s.mb - 1 := (hsp heq).2 hk
      rw [sig, if_neg (by omega)]
      omega
    simp only [maxFin, lsb, hk, htop, pow_succ]
    by_cases heq : e = 2 ^ s.eb - 1
    · exact magLe_of_le (by omega) (.inl (hmax heq))
    · exact magLe_of_le (by omega) (.inr ⟨by omega, by omega⟩)

/-! ### Decoding, rounding and encoding of a float format's own numbers -/

theorem FV.eq_nan {x : FV} (h : x.isNan = true) : x = .nan x.isSig := by
  cases x with
  | nan sg => rfl
  | inf n => cases h
  | fin n m e => cases h

/-- R65: bits that are no NaN spell a finite number, or the infinity of an IEEE format. -/
theorem decodeFmt_float (h : f.shape = some s) {w : Nat} (hw : w < 2 ^ f.bits) (hn : (decodeFmt f w).isNan = false) :
    ∃ n e m, s.pack n e m = w ∧ (decodeFmt f w = .fin n (s.sig e m) (s.lsb e) ∧ s.Finite e m
      ∨ decodeFmt f w = .inf n ∧ s.sp = .ieee ∧ e = 2 ^ s.eb - 1 ∧ m = 0) := by
  obtain ⟨hbits, hroom, -⟩ := Fmt.shape_layout h
  refine ⟨_, _, _, s.pack_fields (hbits ▸ hw), ?_⟩
  have he : field w s.mb s.eb < 2 ^ s.eb := Nat.mod_lt _ (Nat.two_pow_pos _)
  have hm : field w 0 s.mb < 2 ^ s.mb := Nat.mod_lt _ (Nat.two_pow_pos _)
  have heb : 2 ^ 2 ≤ 2 ^ s.eb := Nat.pow_le_pow_right (by decide) hroom
  simp only [decodeFmt, h] at hn ⊢
  split_ifs at hn ⊢ with h0 htop hm0 h43
  · exact .inl ⟨by simp [FloatShape.sig, FloatShape.lsb, h0], he, hm, fun _ => by omega⟩
  · exact .inr ⟨rfl, htop.2, htop.1, hm0⟩
  · cases hn
  · cases hn
  · refine .inl ⟨?_, he, hm, fun heq => ⟨fun hk => htop ⟨heq, hk⟩, fun hk hmax => h43 ⟨heq, hk, hmax⟩⟩⟩
    rw [FloatShape.sig, if_neg h0, FloatShape.lsb, Nat.max_eq_left (Nat.one_le_iff_ne_zero.mpr h0)]

theorem roundTo_float (h : f.shape = some s) (c : RndCtx) : ∃ c', ∀ x, roundTo f c x = roundFloat s c' x := by
  simp only [roundTo, h]
  exact ⟨_, fun _ => rfl⟩

/-- R85: a number of the format is its own rounding, in every mode; the exponent of a zero is not kept. -/
theorem roundFloat_finite (hs : s.Roomy) (h : s.Finite e m) (c : RndCtx) (n : Bool) :
    roundFloat s c (.fin n (s.sig e m) (s.lsb e)) = ⟨if s.sig e m = 0 then FV.zero n else .fin n (s.sig e m) (s.lsb e), Flag.none⟩ := by
  by_cases h0 : s.sig e m = 0
  · rw [h0]
    rfl
  · simp only [roundFloat, h.lsb_unique h0, roundUnits_self, h.le_maxFin hs, h0, Bool.not_true, Bool.false_eq_true, if_false, if_true]

theorem encodeFmt_zero (h : f.shape = some s) (n : Bool) : encodeFmt f (FV.zero n) = s.pack n 0 0 := by
  simp [encodeFmt, h, FV.zero, FloatShape.pack]

theorem encodeFmt_inf (h : f.shape = some s) (n : Bool) : encodeFmt f (.inf n) = s.pack n (2 ^ s.eb - 1) 0 := by
  simp only [encodeFmt, h, FloatShape.pack, Nat.add_zero]

theorem encodeFmt_finite (h : f.shape = some s) (hf : s.Finite e m) (h0 : s.sig e m ≠ 0) (n : Bool) :
    encodeFmt f (.fin n (s.sig e m) (s.lsb e)) = s.pack n e m := by
  have hm : m < 2 ^ s.mb := hf.2.1
  simp only [encodeFmt, h, if_neg h0, hf.lsb_unique h0, le_refl, if_true, inUnits, sub_self, Int.toNat_zero, Nat.shiftLeft_zero]
  by_cases he : e = 0
  · simp [FloatShape.sig, FloatShape.pack, he, hm]
  · have hexp : (s.lsb e + s.mb + s.bias).toNat = e := by unfold FloatShape.lsb; omega
    simp only [FloatShape.sig, if_neg he, hexp, FloatShape.pack, Nat.add_mod_left, Nat.mod_eq_of_lt hm,
      show ¬2 ^ s.mb + m < 2 ^ s.mb by omega, if_false]

end Sys2Proof.Machine
end

section
/-!
PROOFS. R65, R66, R85: conversions to a number's own format, and conversions of NaNs.
-/
namespace Sys2Proof.Machine

variable {f g : Fmt} {s : FloatShape}

theorem convertBits_eq {src dst : Fmt} {c : RndCtx} {w : Nat} {x : FV} {r : Res} (hx : decodeFmt src w = x) (hr : roundTo dst c x = r) :
    convertBits src dst c w = (encodeFmt dst r.v, r.fl) := by
  subst hx hr
  rfl

/-- R85, an integer format: the value lies in the format's range and is exact. -/
theorem convertBits_int_self (h : f.shape = none) (c : RndCtx) {w : Nat} (hw : w < 2 ^ f.bits) : convertBits f f c w = (w, Flag.none) := by
  rw [convertBits_eq (decodeFmt_int h w) ((roundTo_int h c _).trans (roundInt_ofInt c (f.intOf_range w)))]
  rw [encodeFmt_ofInt h, f.toBits_intOf, Nat.mod_eq_of_lt hw]

/-- R85, a float format: the bits come back from a finite number, zeros of both signs among them, and from an infinity. -/
theorem convertBits_float_self (h : f.shape = some s) (c : RndCtx) {w : Nat} (hw : w < 2 ^ f.bits) (hn : (decodeFmt f w).isNan = false) :
    convertBits f f c w = (w, Flag.none) := by
  obtain ⟨-, hs⟩ := Fmt.shape_layout h
  obtain ⟨c', hround⟩ := roundTo_float h c
  obtain ⟨n, e, m, hpack, ⟨hd, hf⟩ | ⟨hd, hsp, rfl, rfl⟩⟩ := decodeFmt_float h hw hn
  · rw [convertBits_eq hd ((hround _).trans (roundFloat_finite hs hf c' n)), ← hpack]
    by_cases h0 : s.sig e m = 0
    · obtain ⟨rfl, rfl⟩ := FloatShape.sig_eq_zero h0
      rw [if_pos h0, encodeFmt_zero h]
    · rw [if_neg h0, encodeFmt_finite h hf h0]
  · rw [convertBits_eq hd ((hround _).trans (if_pos hsp)), encodeFmt_inf h, hpack]

/-- R85, a NaN into an integer format. -/
theorem convertBits_nan_int (h : g.shape = none) (c : RndCtx) {w : Nat} (hn : (decodeFmt f w).isNan = true) :
    convertBits f g c w = (0, Flag.invalid) := by
  rw [convertBits_eq (FV.eq_nan hn) (roundTo_int h c _)]
  exact Prod.ext ((encodeFmt_ofInt h 0).trans ((toBits_natCast _ 0).trans (Nat.zero_mod _))) rfl

/-- R66, R85: a NaN into a float format. -/
theorem convertBits_nan_float (h : g.shape = some s) (c : RndCtx) {w : Nat} (hn : (decodeFmt f w).isNan = true) :
    convertBits f g c w = (s.qnan, if (decodeFmt f w).isSig then Flag.invalid else Flag.none) := by
  obtain ⟨c', hround⟩ := roundTo_float h c
  rw [convertBits_eq (FV.eq_nan hn) (hround _)]
  simp only [roundFloat, encodeFmt, h]

/-- Settles O1: every bit pattern that is no NaN is the one encoding of its value, so rounding leaves it and encoding gives it back. -/
theorem conversionsKeepValues : Obligations.ConversionsKeepValues := by
  refine ⟨fun f c w hw hn => ?_, fun f g c w hn _ => ?_, by decide⟩
  · cases h : f.shape with
    | none => exact convertBits_int_self h c hw
    | some s => exact convertBits_float_self h c hw hn
  · cases h : g.shape with
    | none => exact convertBits_nan_int h c hn
    | some s => exact convertBits_nan_float h c hn

end Sys2Proof.Machine
end

section
/-!
SUPPORT. Rows of the command streams (R101, R104, R106, R126): what a due head does in its beat.
-/
namespace Sys2Proof.Machine

/-! ### The rows -/

/-- A row of a command stream is the issue of its queue's head, for the bodies it stands for (R126). -/
theorem exec_streamRow {i : Instr} {r k q : Nat} {sel : Cmd512 → Bool} (h : streamRow i = some (r, k, q, sel)) (hw : Instr.wf i = true) (s : State) :
    exec i s = .next (s.issueHead r k q sel (streamEnv i)) := by
  unfold streamRow at h
  split at h <;> cases h
  all_goals exact if_pos hw

section
variable {s : State} {r k q : Nat} {c : Cmd512} {e : Env} {aux : List Nat}

/-- R101, R106: a due head that its row stands for acts. -/
theorem Due.issueHead (h : Due s r k q c e) {sel : Cmd512 → Bool} (hc : sel c = true) : s.issueHead r k q sel e = s.actOn r k q c e := by
  obtain ⟨-, hbeats, hbegin, ⟨hcause, hdesc⟩, hst, hhead⟩ := h
  have hissues : s.issues r k q sel e = true := by simp [State.issues, hbeats, hcause, hdesc, hhead, hc]
  simp only [State.issueHead, if_pos hbeats, hbegin, if_pos hissues, State.stepQueue, hhead, hst]
  rfl

theorem Due.exec_row {i : Instr} {sel : Cmd512 → Bool} (h : Due s r k q c (streamEnv i)) (hrow : streamRow i = some (r, k, q, sel))
    (hw : Instr.wf i = true) (hc : sel c = true) : exec i s = .next (s.actOn r k q c (streamEnv i)) := by
  rw [exec_streamRow hrow hw, h.issueHead hc]

/-- R126: the row of one opcode, where the body is not asked. -/
theorem Due.exec_op {i : Instr} {o : Nat} (h : Due s r k q c) (hrow : streamRow i = some (r, k, q, fun c => Hdr.opcode c == o))
    (hw : Instr.wf i = true) (hc : Hdr.opcode c = o) (he : streamEnv i = noEnv := by rfl) : exec i s = .next (s.actOn r k q c) := by
  rw [exec_streamRow hrow hw, he, h.issueHead (sel := fun c => Hdr.opcode c == o) (beq_iff_eq.mpr hc)]

/-! ### What a command does that passes its checks (R109, R121, R123) -/

theorem State.actOn_pred (hv : s.verdict r k q c e = .pred) : s.actOn r k q c e = s.skipCmd r k q c (A.skipped r k) := by
  simp only [State.actOn, hv]

theorem State.actOn_nop (hv : s.verdict r k q c e = .go aux) (ho : Hdr.opcode c = 0) : s.actOn r k q c e = s.passCmd r k q c := by
  simp only [State.actOn, hv, ho]

theorem State.actOn_end (hv : s.verdict r k q c e = .go aux) (ho : Hdr.opcode c = 1) :
    s.actOn r k q c e = (s.passCmd r k q c).endQueue r k q ((s.queue r k q).pos + 1) := by
  simp only [State.actOn, hv, ho]

theorem State.actOn_stepPoint (hv : s.verdict r k q c e = .go aux) (ho : Hdr.opcode c = 5) :
    s.actOn r k q c e = if (s.queue r k q).evaluating || ((s.passCmd r k q c).queue r k q).st == .ending then s.passCmd r k q c
      else (s.passCmd r k q c).modCl r k fun x => x.setQ q { x.queue q with st := .held } := by
  simp only [State.actOn, hv, ho]

theorem State.actOn_evalPoint (hv : s.verdict r k q c e = .go aux) (ho : Hdr.opcode c = 6) :
    s.actOn r k q c e = if (s.queue r k q).evaluating && (s.cl r k).switchBeat + s.fieldN (A.evalCtrl r k) 32 32 ≤ (s.cl r k).beat
      then (s.passCmd r k q c).evalStop r k q ((s.queue r k q).pos + 1) .point else s.passCmd r k q c := by
  simp only [State.actOn, hv, ho]

theorem State.actOn_evalEnd (hv : s.verdict r k q c e = .go aux) (ho : Hdr.opcode c = 7) :
    s.actOn r k q c e = if (s.queue r k q).evaluating then (s.passCmd r k q c).evalStop r k q ((s.queue r k q).pos + 1) .passEnd
      else s.passCmd r k q c := by
  simp only [State.actOn, hv, ho]

/-- R101: every opcode but the common ones goes into flight. -/
theorem State.actOn_long (hv : s.verdict r k q c e = .go aux) (ho : isCommon (Hdr.opcode c) = false) :
    s.actOn r k q c e = (s.noteRanks r e c).issueLri r k q c aux := by
  have h7 : ¬ Hdr.opcode c ≤ 7 := of_decide_eq_false ho
  simp only [State.actOn, hv]
  split
  case h_9 => rfl
  all_goals omega

end

end Sys2Proof.Machine
end

section
/-!
SUPPORT. Commands that retire in their issue beat (R94, R109, R110, R121, R123).
-/
namespace Sys2Proof.Machine

/-! ### A command that passes -/

/-- From `s` to `t` queue `q` of a cluster has retired a command: SEQ_Q_RETIRED counts it, and other queues, clusters and memory stand. -/
structure Retired (r k q : Nat) (s t : State) : Prop where
  counted : t.reg (A.qRetired r k q) = BitVec.ofNat 64 (satAdd 48 (s.regN (A.qRetired r k q)) 1)
  queues  : ∀ q', q' < 4 → q' ≠ q → t.queue r k q' = s.queue r k q'
  other   : ∀ r' k', otherCluster r k r' k' → t.cl r' k' = s.cl r' k'
  kept    : SameMemory s t

section
variable {s t : State} {r k q : Nat} {c : Cmd512}

theorem State.passCmd_retired (s : State) (r k : Nat) (c : Cmd512) (hq : q < 4) : Retired r k q s (s.passCmd r k q c) := by
  obtain ⟨hm, hg, hf, hother, hqs, -, -, -, hreg, -, -⟩ := s.passCmd_spec r k q c hq
  exact ⟨hreg, hqs, hother, .of_eq hm hg hf⟩

theorem State.queue_passCmd (s : State) (r k : Nat) (c : Cmd512) (hq : q < 4) :
    (s.passCmd r k q c).queue r k q = (s.queue r k q).advance (s.cl r k).beat := by
  obtain ⟨-, -, -, -, -, hqueue, -⟩ := s.passCmd_spec r k q c hq
  exact hqueue

theorem State.beat_passCmd (s : State) (r k q : Nat) (c : Cmd512) : ((s.passCmd r k q c).cl r k).beat = (s.cl r k).beat :=
  (InBeat.refl r k s).passCmd.beat

theorem State.doneFlag_off (h : Hdr.doneEn c = false) : s.doneFlag r k c = s := by
  simp [State.doneFlag, h]

/-- R109: without a done-flag a command that passes writes no register but SEQ_Q_RETIRED, and no region. -/
theorem State.passCmd_off (h : Hdr.doneEn c = false) :
    (∀ a, a ≠ A.qRetired r k q → (s.passCmd r k q c).reg a = s.reg a) ∧ ∀ r', (s.passCmd r k q c).rg r' = s.rg r' := by
  rw [State.passCmd, State.doneFlag_off h]
  exact ⟨fun _ ha => s.reg_bump_ne 1 ha, fun r' => s.rg_bump (A.qRetired r k q) 1 r'⟩

/-- A change of the one queue alone, after it has retired a command. -/
theorem Retired.setQ (h : Retired r k q s t) (x : Queue) : Retired r k q s (t.setCl r k ((t.cl r k).setQ q x)) where
  counted := h.counted
  queues q' h4 hne := by
    rw [State.queue, State.cl_setCl_same, Cluster.queue_setQ _ _ _ _ h4, if_neg hne]
    exact h.queues q' h4 hne
  other r' k' ho := (t.cl_setCl_ne _ ho).trans (h.other r' k' ho)
  kept := h.kept.trans (.of_eq rfl rfl rfl)

theorem State.queue_setQ_same (s : State) (r k : Nat) (x : Queue) (hq : q < 4) :
    (s.setCl r k ((s.cl r k).setQ q x)).queue r k q = x := by
  rw [State.queue, State.cl_setCl_same, Cluster.queue_setQ_same _ _ _ hq]

end

/-- Settles O4: each of these commands comes to `passCmd`, whose effect is known. -/
theorem nopRetires : Obligations.NopRetires := by
  intro i s r k q c aux hw hdue hv hrow
  have hpass : exec i s = .next (s.passCmd r k q c) := by
    rcases hrow with ⟨rfl, ho⟩ | ⟨rfl, ho, hev⟩ | ⟨rfl, ho, hev⟩ | ⟨rfl, ho, hev⟩
    · rw [hdue.exec_op (i := .nop r k q) rfl hw ho, State.actOn_nop hv ho]
    · rw [hdue.exec_op (i := .stepPoint r k q) rfl hw ho, State.actOn_stepPoint hv ho, hev, Bool.true_or, if_pos rfl]
    · rw [hdue.exec_op (i := .evalPoint r k q) rfl hw ho, State.actOn_evalPoint hv ho, if_neg]
      rcases hev with hev | hlt
      · simp [hev]
      · simp [hlt]
    · rw [hdue.exec_op (i := .evalEnd r k q) rfl hw ho, State.actOn_evalEnd hv ho, hev, if_neg Bool.false_ne_true]
  have hq : q < 4 := hdue.1
  obtain ⟨hcount, hqs, hother, hkept⟩ := s.passCmd_retired r k c hq
  obtain ⟨-, -, -, -, -, -, hlris, -⟩ := s.passCmd_spec r k q c hq
  exact ⟨_, hpass, s.queue_passCmd r k c hq, hcount, hlris, hqs, hother, hkept, State.passCmd_off⟩

/-! ### Queues that stop or hold -/

section
variable {x : Queue} {b : Nat}

/-- A queue that runs and belongs to no evaluation has a length (R91, R122). -/
theorem Queue.len_of_not_evaluating (hst : x.st = .issuing) (h : x.evaluating = false) : x.len.isNone = false := by
  have hne : (x.st != .idle) = true := by rw [hst]; rfl
  rwa [Queue.evaluating, hne, Bool.and_true] at h

theorem Queue.st_advance_ne_idle (x : Queue) (b : Nat) : (x.advance b).st ≠ .idle := by
  have h : ∀ atEnd : Bool, (if atEnd then QSt.ending else QSt.issuing) ≠ .idle := by decide
  exact h _

theorem Queue.evaluating_advance (x : Queue) (b : Nat) : (x.advance b).evaluating = x.len.isNone := by
  have hst : ((x.advance b).st != .idle) = true := by simpa using x.st_advance_ne_idle b
  rw [Queue.evaluating, hst, Bool.and_true]
  rfl

/-- R94: a command is not its stream's last. -/
theorem Queue.st_advance_issuing (h : ∀ n, x.len = some n → x.pos + 1 < n) : (x.advance b).st = .issuing := by
  unfold Queue.advance
  dsimp only
  cases hl : x.len with
  | none => rfl
  | some n => rw [if_neg]; simpa using h n hl

end

theorem nth_map {α β : Type} (f : α → β) (d : α) (l : List α) (i : Nat) : nth (f d) (l.map f) i = f (nth d l i) := by
  induction l generalizing i with
  | nil => rfl
  | cons x l ih => cases i with
    | zero => rfl
    | succ i => exact ih i

/-- R94: what a queue is in beat `b`: one that ended in an earlier beat is idle. -/
def Queue.inBeat (b : Nat) (x : Queue) : Queue := if x.st == .ending && x.origin < b then x.toIdle else x

theorem Queue.inBeat_ended {b : Nat} {x : Queue} (hst : x.st = .ending) (ho : x.origin < b) : x.inBeat b = x.toIdle :=
  if_pos (by simp [hst, ho])

theorem Queue.inBeat_not_ending {b : Nat} {x : Queue} (hst : x.st ≠ .ending) : x.inBeat b = x := if_neg (by simp [hst])

theorem Queue.inBeat_twice (b : Nat) (x : Queue) : (x.inBeat b).inBeat b = x.inBeat b := by
  by_cases h : (x.st == .ending && x.origin < b) = true
  · rw [show x.inBeat b = x.toIdle from if_pos h]
    rfl
  · rw [show x.inBeat b = x from if_neg h, show x.inBeat b = x from if_neg h]

theorem Cluster.endQueues_eq (c : Cluster) : c.endQueues = { c with queues := c.queues.map (Queue.inBeat c.beat) } := rfl

theorem Cluster.queue_endQueues (c : Cluster) (q : Nat) : c.endQueues.queue q = (c.queue q).inBeat c.beat :=
  nth_map (Queue.inBeat c.beat) Queue.init c.queues q

theorem Cluster.endQueues_idle {c : Cluster} {q : Nat} (hst : (c.queue q).st = .ending) (ho : (c.queue q).origin < c.beat) :
    (c.endQueues.queue q).st = .idle := by
  rw [Cluster.queue_endQueues, Queue.inBeat_ended hst ho]
  rfl

theorem State.endQueue_training {s : State} {r k q : Nat} (pos : Nat) (h : (s.queue r k q).evaluating = false) :
    s.endQueue r k q pos = s.setCl r k ((s.cl r k).setQ q { (s.cl r k).queue q with st := .ending, origin := (s.cl r k).beat }) := by
  rw [State.endQueue, h, if_neg Bool.false_ne_true, State.modCl_eq]

/-- Settles O5: both commands pass, and then only their queue's state changes. -/
theorem endAndStepPointHold : Obligations.EndAndStepPointHold := by
  constructor
  · intro s r k q c aux hw hdue hv ho hev
    obtain ⟨hq, -, -, -, hst, -⟩ := id hdue
    have hqueue := s.queue_passCmd r k c hq
    have hbeat := s.beat_passCmd r k q c
    have htrain : ((s.passCmd r k q c).queue r k q).evaluating = false := by
      rw [hqueue, Queue.evaluating_advance, Queue.len_of_not_evaluating hst hev]
    have hexec := hdue.exec_op (i := .endq r k q) rfl hw ho
    rw [State.actOn_end hv ho, State.endQueue_training _ htrain] at hexec
    have hnew := (s.passCmd r k q c).queue_setQ_same r k
      { ((s.passCmd r k q c).cl r k).queue q with st := .ending, origin := ((s.passCmd r k q c).cl r k).beat } hq
    obtain ⟨hcount, hqs, hother, hkept⟩ := (s.passCmd_retired r k c hq).setQ
      { ((s.passCmd r k q c).cl r k).queue q with st := .ending, origin := ((s.passCmd r k q c).cl r k).beat }
    refine ⟨_, hexec, by rw [hnew], ?_, by rw [hnew, hbeat], hcount, fun b hb => ?_, hqs, hother, hkept⟩
    · rw [hnew]
      exact congrArg Queue.pos hqueue
    · exact Cluster.endQueues_idle (congrArg Queue.st hnew) ((congrArg Queue.origin hnew).trans_lt (hbeat.trans_lt hb))
  · intro s r k q c aux hw hdue hv ho hev hlen
    have hq : q < 4 := hdue.1
    have hqueue := s.queue_passCmd r k c hq
    have hgoes : (((s.passCmd r k q c).queue r k q).st == .ending) = false := by
      rw [hqueue, Queue.st_advance_issuing hlen]
      rfl
    have hexec := hdue.exec_op (i := .stepPoint r k q) rfl hw ho
    rw [State.actOn_stepPoint hv ho, hev, hgoes, Bool.or_false, if_neg Bool.false_ne_true, State.modCl_eq] at hexec
    have hnew := (s.passCmd r k q c).queue_setQ_same r k { ((s.passCmd r k q c).cl r k).queue q with st := .held } hq
    obtain ⟨hcount, hqs, hother, hkept⟩ := (s.passCmd_retired r k c hq).setQ { ((s.passCmd r k q c).cl r k).queue q with st := .held }
    refine ⟨_, hexec, by rw [hnew], ?_, hcount, hqs, hother, hkept⟩
    rw [hnew]
    exact congrArg Queue.pos hqueue

end Sys2Proof.Machine
end

section
/-!
SUPPORT. Evaluations (R121 to R125): queues that stop, switches and returns.
-/
namespace Sys2Proof.Machine

section
variable {s : State} {r k q : Nat}

/-! ### A queue that stops (R123, R125) -/

/-- From `s` to `t` one queue of a cluster has stopped, and other clusters and memory stand. -/
structure StopsAt (r k q pos : Nat) (why : EvalStop) (s t : State) : Prop where
  queue : t.queue r k q = { s.queue r k q with st := .stopped, stop := why, pos := pos }
  other : ∀ r' k', otherCluster r k r' k' → t.cl r' k' = s.cl r' k'
  kept  : SameMemory s t

theorem StopsAt.regs {t u : State} {pos : Nat} {why : EvalStop} {K : Nat → Prop} (h : StopsAt r k q pos why s t) (hu : RegsOnly K t u) :
    StopsAt r k q pos why s u where
  queue := by rw [State.queue, hu.cl]; exact h.queue
  other r' k' ho := by rw [hu.cl]; exact h.other r' k' ho
  kept := h.kept.trans hu.sameMemory

/-- What the cluster notes for its current beat (R14) is in no queue. -/
theorem StopsAt.noted {t : State} {pos : Nat} {why : EvalStop} (h : StopsAt r k q pos why s t) (l : List (Nat × Nat)) :
    StopsAt r k q pos why s (t.modCl r k fun c => { c with setNow := l }) where
  queue := by rw [State.queue, State.modCl_eq, State.cl_setCl_same]; exact h.queue
  other r' k' ho := (t.cl_setCl_ne _ ho).trans (h.other r' k' ho)
  kept := h.kept.trans (.of_eq rfl rfl rfl)

theorem State.evalStop_spec (s : State) (r k : Nat) (hq : q < 4) (pos : Nat) (why : EvalStop) :
    StopsAt r k q pos why s (s.evalStop r k q pos why) := by
  unfold State.evalStop
  extract_lets s1 es
  have h1 : StopsAt r k q pos why s s1 := by
    refine StopsAt.regs (K := fun _ => True) ⟨s.queue_setQ_same r k _ hq, fun r' k' ho => s.cl_setCl_ne _ ho, .of_eq rfl rfl rfl⟩ (.setReg _ _ trivial)
  split
  · exact ((h1.regs (.setReg (K := fun _ => True) s1 _ trivial)).noted _).regs (.foldl (K := fun _ => True) _ (fun s _ _ => .setReg s _ trivial) _)
  · exact h1

/-! ### The sequencer's own beats (R122, R124) -/

/-- A row that is a cluster's own event, in a beat of that cluster (R33). -/
theorem exec_inBeat {i : Instr} {f : State → State} (hi : exec i s = guard (Instr.wf i) s (.next (s.inBeat r k f))) (hw : Instr.wf i = true)
    (hb : s.beats r k = true) : exec i s = .next (f s) := by
  rw [hi, State.inBeat_of_beats hb]
  exact if_pos hw

theorem State.switchBeat_eq (hp : (s.cl r k).phase = .toEval) (hl : ((s.cl r k).queues.filter Queue.evaluating).all Queue.loaded = true) :
    s.switchBeat r k = (s.setCl r k { s.cl r k with
      queues := (s.cl r k).queues.map fun q => if q.evaluating then q.resume (s.cl r k).beat else q
      phase := .eval, switchBeat := (s.cl r k).beat, begun := true }).setB (A.evalStatus r k) 1 true :=
  if_pos (by rw [hp, hl]; rfl)

theorem State.evalReturn_eq (hp : (s.cl r k).phase = .eval) (hs : ∀ q ∈ (s.cl r k).queues, q.evaluating = true → q.st = .stopped)
    (hl : ∀ l ∈ (s.cl r k).lris, l.eval = false) :
    s.evalReturn r k = s.setCl r k { s.cl r k with queues := (s.cl r k).queues.map Queue.toTrain, phase := .toTrain, begun := true } := by
  have hstopped : ((s.cl r k).queues.filter Queue.evaluating).all (fun q => q.st == .stopped) = true := List.all_eq_true.mpr fun q hq => by
    obtain ⟨hmem, hev⟩ := List.mem_filter.mp hq
    exact beq_iff_eq.mpr (hs q hmem hev)
  have hnone : (s.cl r k).lris.any Lri.eval = false := by simpa using hl
  exact if_pos (by rw [hp, hstopped, hnone]; rfl)

theorem State.returnBeat_eq (hp : (s.cl r k).phase = .toTrain) (hl : ∀ q ∈ (s.cl r k).queues, q.back = true → q.loaded = true) :
    s.returnBeat r k = (s.setCl r k { s.cl r k with
      queues := (s.cl r k).queues.map fun q =>
        if q.back then { (if q.tlen ≤ q.tpos then { q with st := .ending, origin := (s.cl r k).beat } else q.resume (s.cl r k).beat) with back := false } else q
      phase := .train, begun := true }).setB (A.evalStatus r k) 1 false := by
  have hloaded : ((s.cl r k).queues.filter Queue.back).all Queue.loaded = true := List.all_eq_true.mpr fun q hq => by
    obtain ⟨hmem, hback⟩ := List.mem_filter.mp hq
    exact hl q hmem hback
  exact if_pos (by rw [hp, hloaded]; rfl)

end

/-- Settles O6: a queue stops after its command has passed, and each of the sequencer's beats is one write of its cluster. -/
theorem evaluationsStopAndTurn : Obligations.EvaluationsStopAndTurn := by
  refine ⟨fun s r k q c aux hdue hv hev => ?_, fun s r k hr hk hb => ?_⟩
  · have hstop (why : EvalStop) := (s.passCmd r k q c).evalStop_spec r k hdue.1 ((s.queue r k q).pos + 1) why
    have hpass := s.passCmd_retired r k c hdue.1
    refine ⟨fun hw ho => ?_, fun hw ho hbudget => ?_⟩
    · obtain ⟨hqueue, hother, hkept⟩ := hstop .passEnd
      have hexec := hdue.exec_op (i := .evalEnd r k q) rfl hw ho
      rw [State.actOn_evalEnd hv ho, if_pos hev] at hexec
      exact ⟨_, hexec, by rw [hqueue], by rw [hqueue], by rw [hqueue], fun r' k' h => (hother r' k' h).trans (hpass.other r' k' h),
        hpass.kept.trans hkept⟩
    · obtain ⟨hqueue, hother, hkept⟩ := hstop .point
      have hexec := hdue.exec_op (i := .evalPoint r k q) rfl hw ho
      rw [State.actOn_evalPoint hv ho, if_pos (by simp [hev, hbudget])] at hexec
      exact ⟨_, hexec, by rw [hqueue], by rw [hqueue], by rw [hqueue], fun r' k' h => (hother r' k' h).trans (hpass.other r' k' h),
        hpass.kept.trans hkept⟩
  · have hw : (decide (r < 48) && decide (k < 9)) = true := by simp [hr, hk]
    refine ⟨fun hp hl => ?_, fun hp hs hl => ?_, fun hp hl => ?_⟩
    · refine ⟨_, (exec_inBeat (i := .switchBeat r k) rfl hw hb).trans (congrArg _ (State.switchBeat_eq hp hl)), ?_⟩
      refine ⟨congrArg Cluster.phase (State.cl_setCl_same ..), congrArg Cluster.switchBeat (State.cl_setCl_same ..),
        State.bit_setB_same _ _ true (by decide), fun q hq hev => ?_, fun a ha => State.reg_setB_ne _ 1 true ha, .of_eq rfl rfl rfl⟩
      rw [State.setB_eq, State.cl_setReg, State.cl_setCl_same]
      exact List.mem_map.mpr ⟨q, hq, if_pos hev⟩
    · exact ⟨_, (exec_inBeat (i := .evalReturn r k) rfl hw hb).trans (congrArg _ (State.evalReturn_eq hp hs hl)),
        congrArg Cluster.phase (State.cl_setCl_same ..), congrArg Cluster.queues (State.cl_setCl_same ..), fun _ => rfl, .of_eq rfl rfl rfl⟩
    · exact ⟨_, (exec_inBeat (i := .returnBeat r k) rfl hw hb).trans (congrArg _ (State.returnBeat_eq hp hl)),
        congrArg Cluster.phase (State.cl_setCl_same ..), State.bit_setB_same _ _ false (by decide),
        by rw [State.setB_eq, State.cl_setReg, State.cl_setCl_same],
        fun a ha => State.reg_setB_ne _ 1 false ha, .of_eq rfl rfl rfl⟩

end Sys2Proof.Machine
end

section
/-!
SUPPORT. Skips (R106, R107, R291).
-/
namespace Sys2Proof.Machine

variable {s t : State} {r k q : Nat}

/-- From `s` to `t` increments due in a later beat have joined those of a cluster, and nothing else has changed. -/
structure Scheduled (r k : Nat) (s t : State) : Prop where
  cl  : ∃ l, t.cl r k = { s.cl r k with dueInc := l }
  reg : ∀ a, t.reg a = s.reg a
  rg  : ∀ r', t.rg r' = s.rg r'
  other : ∀ r' k', otherCluster r k r' k' → t.cl r' k' = s.cl r' k'
  kept  : SameMemory s t

theorem State.laterFlag_scheduled (s : State) (r k beat : Nat) (c : Cmd512) : Scheduled r k s (s.laterFlag r k beat c) := by
  unfold State.laterFlag
  split
  · exact ⟨⟨_, State.cl_setCl_same ..⟩, fun _ => rfl, fun _ => rfl, fun _ _ ho => s.cl_setCl_ne _ ho, .of_eq rfl rfl rfl⟩
  · exact ⟨⟨_, rfl⟩, fun _ => rfl, fun _ => rfl, fun _ _ _ => rfl, .of_eq rfl rfl rfl⟩

theorem State.cl_skipCmd (s : State) (r k q : Nat) (c : Cmd512) (counter : Nat) :
    ∃ l, (s.skipCmd r k q c counter).cl r k
      = ({ s.cl r k with dueInc := l, begun := true } : Cluster).setQ q ((s.queue r k q).advance (s.cl r k).beat) := by
  obtain ⟨⟨l, hl⟩, -⟩ := s.laterFlag_scheduled r k ((s.cl r k).beat + 1) c
  refine ⟨l, ?_⟩
  rw [State.skipCmd, State.cl_bump, State.advance, State.modCl_eq, State.cl_setCl_same, State.retire, State.cl_bump, hl]
  rfl

/-- R107: beside its cluster a skip changes two counters. -/
theorem State.skipCmd_spec (s : State) (r k q : Nat) (c : Cmd512) (counter : Nat) :
    (∀ a, (s.skipCmd r k q c counter).reg a = ((s.retire r k q).bump counter 1).reg a) ∧ (∀ r', (s.skipCmd r k q c counter).rg r' = s.rg r')
      ∧ (∀ r' k', otherCluster r k r' k' → (s.skipCmd r k q c counter).cl r' k' = s.cl r' k') ∧ SameMemory s (s.skipCmd r k q c counter) := by
  obtain ⟨-, hreg, hrg, hother, hm, hg, hf⟩ := s.laterFlag_scheduled r k ((s.cl r k).beat + 1) c
  have hregN (a : Nat) : (s.laterFlag r k ((s.cl r k).beat + 1) c).regN a = s.regN a := congrArg BitVec.toNat (hreg a)
  have hretire (a : Nat) : (((s.laterFlag r k ((s.cl r k).beat + 1) c).retire r k q).advance r k q).reg a = (s.retire r k q).reg a := by
    show ((s.laterFlag r k ((s.cl r k).beat + 1) c).bump (A.qRetired r k q) 1).reg a = (s.bump (A.qRetired r k q) 1).reg a
    rw [State.reg_bump, State.reg_bump, hregN, hreg]
  refine ⟨fun a => ?_, fun r' => ?_, fun r' k' ho => ?_, fun a => ?_, ?_, ?_⟩
  · rw [State.skipCmd, State.reg_bump, State.reg_bump, State.regN, State.regN, hretire, hretire]
  · rw [State.skipCmd, State.rg_bump, State.advance, State.modCl_eq, State.rg_setCl, State.retire, State.rg_bump, hrg]
  · rw [State.skipCmd, State.cl_bump, State.advance, State.modCl_eq, State.cl_setCl_ne _ _ ho, State.retire, State.cl_bump, hother r' k' ho]
  · rw [State.skipCmd, State.bump_mem, State.advance, State.modCl_eq, State.setCl_mem, State.retire, State.bump_mem, hm]
  · rw [State.skipCmd, State.bump_gran, State.advance, State.modCl_eq, State.setCl_gran, State.retire, State.bump_gran, hg]
  · rw [State.skipCmd, State.bump_flash, State.advance, State.modCl_eq, State.setCl_flash, State.retire, State.bump_flash, hf]

theorem A.skipped_ne_qRetired (r k q : Nat) : A.skipped r k ≠ A.qRetired r k q := by
  simp only [A.skipped, A.qRetired, A.seq, A.cl, A.rtr]
  omega

/-- Settles O9: whatever the row, the head is skipped, and a skip changes its cluster and two counters. -/
theorem predicateSkips : Obligations.PredicateSkips := by
  intro i s r k q sel c hrow hw hdue hsel hv
  have hq : q < 4 := hdue.1
  have hexec := hdue.exec_row hrow hw hsel
  rw [State.actOn_pred hv] at hexec
  obtain ⟨l, hl⟩ := s.cl_skipCmd r k q c (A.skipped r k)
  obtain ⟨hreg, hrg, hother, hkept⟩ := s.skipCmd_spec r k q c (A.skipped r k)
  have hne := A.skipped_ne_qRetired r k q
  refine ⟨_, hexec, ?_, ?_, ?_, by rw [hl]; rfl, by rw [hl]; rfl, hrg, fun a h1 h2 => ?_, fun q' h4 hne => ?_, hother, hkept⟩
  · rw [State.queue, hl, Cluster.queue_setQ_same _ _ _ hq]
  · rw [hreg, State.reg_bump_one, State.regN, State.regN, State.retire, State.reg_bump_ne _ _ hne]
  · rw [hreg, State.reg_bump_ne _ _ hne.symm]
    exact s.reg_bump_one _
  · rw [hreg, State.reg_bump_ne _ _ h1]
    exact s.reg_bump_ne 1 h2
  · rw [State.queue, hl, Cluster.queue_setQ _ _ _ _ h4, if_neg hne]
    rfl

end Sys2Proof.Machine
end

section
/-!
SUPPORT. Starts of queues by sets, and turns at a STEP_POINT (R92, R121, R122).
-/
namespace Sys2Proof.Machine

theorem mem_setBits {n w i : Nat} : i ∈ setBits n w ↔ i < n ∧ w.testBit i = true := by
  simp [setBits]

/-! ### Queues that start (R92) -/

/-- The queues of a list issue from the cluster's current beat as their origin. -/
def Cluster.resumeAll (l : List Nat) (c : Cluster) : Cluster := l.foldl (fun c q => c.setQ q ((c.queue q).resume c.beat)) c

theorem Cluster.queue_resumeAll (l : List Nat) (c : Cluster) {q : Nat} (hq : q < 4) :
    (c.resumeAll l).queue q = if q ∈ l then (c.queue q).resume c.beat else c.queue q := by
  induction l generalizing c with
  | nil => rfl
  | cons p l ih =>
    have hstep : (c.resumeAll (p :: l)).queue q = ((c.setQ p ((c.queue p).resume c.beat)).resumeAll l).queue q := rfl
    rw [hstep, ih, Cluster.queue_setQ _ _ _ _ hq]
    by_cases hp : q = p
    · subst hp
      simp [Queue.resume, Cluster.setQ]
    · simp [hp, Cluster.setQ]

section
variable {s : State} {r k m : Nat}

theorem State.startSet_loaded (h : ∀ q, q < 4 → m.testBit q = true → (s.queue r k q).loaded = true) :
    s.startSet r k m = s.setCl r k { (s.cl r k).resumeAll (setBits 4 m) with starts := (s.cl r k).starts.filter fun x => x != m, begun := true } :=
  if_pos (List.all_eq_true.mpr fun q hq => h q (mem_setBits.mp hq).1 (mem_setBits.mp hq).2)

theorem State.startSet_waits {q : Nat} (hq : q < 4) (hm : m.testBit q = true) (h : (s.queue r k q).loaded = false) : s.startSet r k m = s := by
  refine if_neg fun hall => ?_
  have hl := List.all_eq_true.mp hall q (mem_setBits.mpr ⟨hq, hm⟩)
  exact Bool.false_ne_true (h.symm.trans hl)

theorem State.startBeats_one (h : (s.cl r k).starts = [m]) : s.startBeats r k = s.startSet r k m := by
  rw [State.startBeats, h]
  rfl

end

/-- Settles O11: the one set that is starting starts as a whole, or nothing changes. -/
theorem startBeatStartsTheSet : Obligations.StartBeatStartsTheSet := by
  intro s r k m hw hb hstarts
  refine ⟨_, (exec_inBeat (i := .startBeat r k) rfl hw hb).trans (congrArg _ (State.startBeats_one hstarts)), ?_⟩
  by_cases hall : ∀ q, q < 4 → m.testBit q = true → (s.queue r k q).loaded = true
  · rw [State.startSet_loaded hall]
    have hqueue {q : Nat} (hq : q < 4) : (s.setCl r k { (s.cl r k).resumeAll (setBits 4 m) with
        starts := (s.cl r k).starts.filter fun x => x != m, begun := true }).queue r k q
          = if q ∈ setBits 4 m then (s.queue r k q).resume (s.cl r k).beat else s.queue r k q := by
      rw [State.queue, State.cl_setCl_same]
      exact Cluster.queue_resumeAll _ _ hq
    refine ⟨fun _ => ⟨?_, fun q hq hm => ?_⟩, fun q hq hm hl => ?_, fun q hq hm => ?_, fun _ => rfl, fun _ _ ho => s.cl_setCl_ne _ ho, .of_eq rfl rfl rfl⟩
    · rw [State.cl_setCl_same, hstarts]
      simp
    · rw [hqueue hq, if_pos (mem_setBits.mpr ⟨hq, hm⟩)]
      exact ⟨rfl, rfl, rfl, rfl⟩
    · exact absurd (hall q hq hm) (by simp [hl])
    · rw [hqueue hq, if_neg (by simp [mem_setBits, hm])]
  · push Not at hall
    obtain ⟨q, hq, hm, hl⟩ := hall
    rw [State.startSet_waits hq hm (by simpa using hl)]
    exact ⟨fun h => absurd (h q hq hm) hl, fun _ _ _ _ => rfl, fun _ _ _ => rfl, fun _ => rfl, fun _ _ _ => rfl, .of_eq rfl rfl rfl⟩

/-! ### Returns and switches (R121, R122) -/

section
variable {s : State} {r k : Nat}

theorem State.returnNoSwitch_eq (hp : (s.cl r k).phase = .train) (hh : (s.cl r k).allHeld = true) (hd : (s.cl r k).sliceDue = false)
    (hn : s.noSwitch r k = true) (hl : ∀ q ∈ (s.cl r k).queues, q.training = true → q.loaded = true) :
    s.returnNoSwitch r k = s.setCl r k { s.cl r k with
      slices := (s.cl r k).slices.next, begun := true
      queues := (s.cl r k).queues.map fun q => if q.training then q.resume (s.cl r k).beat else q } := by
  have hloaded : ((s.cl r k).queues.filter Queue.training).all Queue.loaded = true := List.all_eq_true.mpr fun q hq => by
    obtain ⟨hmem, ht⟩ := List.mem_filter.mp hq
    exact hl q hmem ht
  exact if_pos (by rw [hp, hh, hd, hn, hloaded]; rfl)

/-- R121, R122: what queue `q` becomes at a switch of its cluster. -/
def State.switched (s : State) (r k q : Nat) : Queue :=
  ((s.cl r k).endQueues.queue q).toEval (s.fieldN (A.evalBase r k q) 6 46 * 64) (s.fieldN (A.evalPos r k q) 0 24)

theorem Cluster.endQueues_twice (c : Cluster) : c.endQueues.endQueues = c.endQueues := by
  have hmap : (c.queues.map (Queue.inBeat c.beat)).map (Queue.inBeat c.beat) = c.queues.map (Queue.inBeat c.beat) := by
    rw [List.map_map]
    exact List.map_congr_left fun x _ => x.inBeat_twice c.beat
  exact congrArg (fun qs => { c with queues := qs }) hmap

theorem Cluster.allHeld_endQueues (c : Cluster) : c.endQueues.allHeld = c.allHeld := by
  unfold Cluster.allHeld
  rw [Cluster.endQueues_twice]
  rfl

theorem State.evalSwitch_eq (hp : (s.cl r k).phase = .train) (hh : (s.cl r k).allHeld = true) (hd : (s.cl r k).sliceDue = false)
    (hn : s.noSwitch r k = false) :
    s.evalSwitch r k = s.setCl r k { (s.cl r k).endQueues with
      queues := (List.range 4).map (s.switched r k), phase := .toEval, slices := (s.cl r k).slices.next, begun := true } := by
  have hheld := (Cluster.allHeld_endQueues (s.cl r k)).trans hh
  have hcond : ((s.cl r k).phase == .train && (s.cl r k).endQueues.allHeld && !(s.cl r k).sliceDue && !s.noSwitch r k) = true := by
    rw [hp, hheld, hd, hn]
    rfl
  exact if_pos hcond

theorem Cluster.endQueues_training {c : Cluster} {q : Nat} (h : (c.queue q).training = true) : c.endQueues.queue q = c.queue q := by
  have hst : (c.queue q).st ≠ .ending := by
    simp only [Queue.training, Bool.and_eq_true, bne_iff_ne] at h
    exact h.2
  rw [Cluster.queue_endQueues, Queue.inBeat_not_ending hst]

theorem nth_map_range_four {α : Type} (d : α) (f : Nat → α) {q : Nat} (hq : q < 4) : nth d ((List.range 4).map f) q = f q := by
  interval_cases q <;> rfl

/-- R122: a queue that trains and has an evaluation stream fetches it. -/
theorem Queue.toEval_training {x : Queue} {base : Nat} (pos : Nat) (ht : x.training = true) (hb : base ≠ 0) :
    x.toEval base pos = { x with
      tbase := x.base, tlen := x.len.getD 0, tpos := x.pos, back := x.training, buf := [], faults := [], gen := x.gen + 1, stop := .none
      st := .fetching, base := base, len := none, pos := pos, req := pos } :=
  if_neg (by simp [ht, hb])

end

/-- Settles O15: a return and a switch each write their cluster alone. -/
theorem stepPointTurns : Obligations.StepPointTurns := by
  refine ⟨fun s r k hw hb hp hh hd hn hl => ?_, fun s r k hw hb hp hh hd hn => ?_⟩
  · exact ⟨_, (exec_inBeat (i := .stepReturnNoSwitch r k) rfl hw hb).trans (congrArg _ (State.returnNoSwitch_eq hp hh hd hn hl)),
      congrArg Cluster.queues (State.cl_setCl_same ..), by rw [State.cl_setCl_same]; exact hp, by rw [State.cl_setCl_same], fun _ => rfl,
      fun _ _ ho => s.cl_setCl_ne _ ho, .of_eq rfl rfl rfl⟩
  · refine ⟨_, (exec_inBeat (i := .evalSwitch r k) rfl hw hb).trans (congrArg _ (State.evalSwitch_eq hp hh hd hn)),
      congrArg Cluster.phase (State.cl_setCl_same ..), by rw [State.cl_setCl_same]; rfl, fun q hq (ht : ((s.cl r k).queue q).training = true) hbase => ?_, fun _ => rfl,
      fun _ _ ho => s.cl_setCl_ne _ ho, .of_eq rfl rfl rfl⟩
    rw [State.queue, State.cl_setCl_same, Cluster.queue, nth_map_range_four _ _ hq, State.switched, Cluster.endQueues_training ht,
      Queue.toEval_training _ ht (by omega)]
    exact ⟨rfl, rfl, rfl, rfl, rfl, rfl⟩

end Sys2Proof.Machine
end

section
/-!
SUPPORT. The operand of a doorbell has no bound (R92): its row writes the low four bits of it, the set that the cluster remembers.
-/
namespace Sys2Proof.Machine

/-- A module at READY whose region 0 is owned and loaded and whose queue 0 of cluster 0 names a stream of one command. -/
def ringable : State :=
  (({ State.reset with boot := .ready }.setRg 0 { Region.init with owner := some 0, loaded := true }).setReg (A.qLen 0 0 0) 1#64)

theorem ringable_reaches (m : Nat) : ∃ d, Reaches ringable .ralrad (A.doorbell 0 0) d m :=
  ⟨_, by decide +kernel, by decide, by decide, regAt_doorbell 0 (by decide) 0 (by decide), by decide +kernel, rfl⟩

/-- Masks that agree in their low four bits ring alike. -/
theorem exec_seqDoorbell_congr {m n : Nat} (h : m % 16 = n % 16) (p : Party) (r k : Nat) (s : State) :
    exec (.seqDoorbell p r k m) s = exec (.seqDoorbell p r k n) s := by
  show execSeqDoorbell p r k m s = execSeqDoorbell p r k n s
  unfold execSeqDoorbell
  rw [h]
  rfl

/-- Refutes O10: masks 1 and 17 ring alike, so the set remembered cannot be the whole operand in both cases. -/
theorem not_doorbellStartsOrIsDropped : ¬ Obligations.DoorbellStartsOrIsDropped := by
  rintro ⟨h, -, -⟩
  have hring (m : Nat) (hm : ringable.ringDropped 0 0 m = false) :
      Completes (.seqDoorbell .ralrad 0 0 m) ringable fun t => (t.cl 0 0).starts = [m] := by
    obtain ⟨d, hd⟩ := ringable_reaches m
    obtain ⟨t, ht, -, -, hstarts, -⟩ := h (.seqDoorbell .ralrad 0 0 m) ringable .ralrad 0 0 0 m d rfl (by decide) (by decide +kernel)
      (by decide +kernel) hm (.inl ⟨rfl, hd⟩)
    exact ⟨t, ht, hstarts⟩
  obtain ⟨t, ht, hone⟩ := hring 1 (by decide +kernel)
  obtain ⟨u, hu, hmany⟩ := hring 17 (by decide +kernel)
  have hsame : Host.Outcome.next t = .next u := ht.symm.trans ((exec_seqDoorbell_congr rfl .ralrad 0 0 ringable).trans hu)
  cases hsame
  exact absurd (hone.symm.trans hmany) (by decide)

end Sys2Proof.Machine
end

section
/-!
SUPPORT. Long-running commands that go into flight (R101, R109, R112, R114, R341).
-/
namespace Sys2Proof.Machine

section
variable {b s t : State} {r k q : Nat} {x : Cmd512} {l : Lri} {e : Env}

/-! ### Reads without errors -/

theorem SameMemory.refl (s : State) : SameMemory s s := .of_eq rfl rfl rfl

theorem SameMemory.bump {a n : Nat} (h : SameMemory b s) : SameMemory b (s.bump a n) :=
  h.trans (.of_eq (s.bump_mem a n) (s.bump_gran a n) (s.bump_flash a n))

theorem SameMemory.ite {c : Prop} [Decidable c] (hs : SameMemory b s) (ht : SameMemory b t) : SameMemory b (if c then s else t) := by
  split
  · exact hs
  · exact ht

theorem SameMemory.noteCxl {g : Nat} (h : SameMemory b s) : SameMemory b (s.noteCxl g) := .ite (h.bump.trans (.of_eq rfl rfl rfl)) h

/-- R266: where no error is met, reads write no memory; a granule without its key, or one that a device delivers poisoned, is only counted. -/
theorem SameMemory.noteReads {o : Option Nat} {ls : List Loc} (he : NoErrors e) (h : SameMemory b s) : SameMemory b (s.noteReads o e ls) := by
  unfold State.noteReads
  extract_lets count
  have hcount {s : State} (h : SameMemory b s) : SameMemory b (count s) := by
    cases o with
    | none => exact h
    | some r => exact h.bump
  refine List.foldlRecOn (motive := fun t => SameMemory b t) _ _ h fun s h p _ => .ite (.ite (hcount h) h) ?_
  dsimp only
  rw [State.noteGran_quiet he]
  exact .ite (hcount h.bump).noteCxl h.bump

/-! ### The rank table (R341) -/

theorem State.noteRanks_data (s : State) (r : Nat) (e : Env) (x : Cmd512) : DataStep s (s.noteRanks r e x) := by
  unfold State.noteRanks
  extract_lets c
  split
  · split
    · exact .ite (s.noteReads_data _ _ _) (.refl s)
    · exact .refl s
  · exact .refl s

theorem SameMemory.noteRanks (he : NoErrors e) (h : SameMemory b s) : SameMemory b (s.noteRanks r e x) := by
  unfold State.noteRanks
  extract_lets c
  split
  · split
    · exact .ite (h.noteReads he) h
    · exact h
  · exact h

/-! ### The record of a command (R114, R115) -/

/-- What the record of a command takes from the state it issues in. -/
structure RecordOf (s : State) (r k q : Nat) (x : Cmd512) (l : Lri) : Prop where
  cmd   : l.cmd = x
  ds    : l.ds = (s.cl r k).slotDescs x
  home  : l.q = q
  unit  : l.unit = unitOf q x
  issue : l.issue = (s.cl r k).beat
  id    : l.id = (s.cl r k).nextId
  done  : ∀ op, MvOp.ofCmd x = none → TOp.ofCmd x = some op →
    l.done = some ((s.cl r k).beat + (op.plan x (s.progOf r x) (Descs.ofList ((s.cl r k).slotDescs x))).latency)

theorem State.newLri_record (s : State) (r k q : Nat) (x : Cmd512) (aux : List Nat) : RecordOf s r k q x (s.newLri r k q x aux) := by
  unfold State.newLri
  extract_lets c u ds base
  cases hm : MvOp.ofCmd x with
  | some op => exact ⟨rfl, rfl, rfl, rfl, rfl, rfl, fun _ h _ => nomatch hm.symm.trans h⟩
  | none =>
    cases ht : TOp.ofCmd x with
    | none => exact ⟨rfl, rfl, rfl, rfl, rfl, rfl, fun _ _ h => nomatch ht.symm.trans h⟩
    | some op =>
      refine ⟨rfl, rfl, rfl, rfl, rfl, rfl, fun op' _ h => ?_⟩
      obtain rfl : op = op' := Option.some.inj (ht.symm.trans h)
      rfl

theorem State.progOf_congr (h : t.rg r = s.rg r) (x : Cmd512) : t.progOf r x = s.progOf r x := by
  rw [State.progOf, State.progOf, h]

/-- Reads of the rank table change nothing that a record takes. -/
theorem RecordOf.data (h : RecordOf t r k q x l) (hd : DataStep s t) : RecordOf s r k q x l := by
  obtain ⟨hcmd, hds, hq, hunit, hissue, hid, hdone⟩ := h
  rw [hd.cl] at hds hissue hid hdone
  rw [State.progOf_congr (hd.rg r)] at hdone
  exact ⟨hcmd, hds, hq, hunit, hissue, hid, hdone⟩

/-! ### The issue (R101, R112) -/

/-- From `s` to `t` command `l` has gone into flight in a cluster whose queues stand. -/
structure Flies (r k : Nat) (l : Lri) (s t : State) : Prop where
  lris   : (t.cl r k).lris = (s.cl r k).lris ++ [l]
  queues : (t.cl r k).queues = (s.cl r k).queues
  beat   : (t.cl r k).beat = (s.cl r k).beat
  other  : ∀ r' k', otherCluster r k r' k' → t.cl r' k' = s.cl r' k'
  rg     : ∀ r', r' ≠ r → t.rg r' = s.rg r'
  kept   : SameMemory s t

theorem Flies.modCl {f : Cluster → Cluster} (h : Flies r k l s t) (hl : (f (t.cl r k)).lris = (t.cl r k).lris := by rfl)
    (hq : (f (t.cl r k)).queues = (t.cl r k).queues := by rfl) (hb : (f (t.cl r k)).beat = (t.cl r k).beat := by rfl) :
    Flies r k l s (t.modCl r k f) where
  lris := by rw [State.modCl_eq, State.cl_setCl_same, hl, h.lris]
  queues := by rw [State.modCl_eq, State.cl_setCl_same, hq, h.queues]
  beat := by rw [State.modCl_eq, State.cl_setCl_same, hb, h.beat]
  other r' k' ho := (t.cl_setCl_ne _ ho).trans (h.other r' k' ho)
  rg := h.rg
  kept := h.kept.trans (.of_eq rfl rfl rfl)

theorem Flies.addReq {y : Req} (h : Flies r k l s t) : Flies r k l s (t.addReq r y) where
  lris := h.lris
  queues := h.queues
  beat := h.beat
  other := h.other
  rg r' hr := (t.rg_setRg_ne _ hr).trans (h.rg r' hr)
  kept := h.kept.trans (.of_eq rfl rfl rfl)

theorem State.issueEffects_only (s : State) (r k q : Nat) (x : Cmd512) : RegsOnly (fun _ => True) s (s.issueEffects r k q x) := by
  unfold State.issueEffects
  split
  · exact .ite ((RegsOnly.setReg s _ trivial).trans (.setReg _ _ trivial)) (.refl s)
  · split
    · exact .ite (.refl s) (.bump s 1 trivial)
    · exact .refl s
  · exact .refl s

/-- R115: an issue interval is in no queue, and no command's record. -/
theorem Cluster.setBusy_rest (c : Cluster) (q : Nat) (x : Cmd512) (p : VePlan) :
    ∃ b m, c.setBusy q x p = { c with busyUntil := b, lastMode := m } := by
  unfold Cluster.setBusy
  split <;> exact ⟨_, _, rfl⟩

theorem Flies.setBusy {p : VePlan} (h : Flies r k l s t) : Flies r k l s (t.modCl r k fun c => c.setBusy q x p) := by
  obtain ⟨b, m, hb⟩ := (t.cl r k).setBusy_rest q x p
  exact h.modCl (by rw [hb]) (by rw [hb]) (by rw [hb])

/-- From `s` to `t` queue `q` of a cluster has issued long-running command `l`. -/
structure Issued (r k q : Nat) (l : Lri) (s t : State) : Prop where
  lris    : (t.cl r k).lris = (s.cl r k).lris ++ [l]
  pending : Hdr.opcode l.cmd = 0xE0 → ∀ n, n < dlCount l.cmd → (l.id, dlFirst l.cmd + n) ∈ (t.cl r k).dpend
  queue   : t.queue r k q = (s.queue r k q).advance (s.cl r k).beat
  queues  : ∀ q', q' < 4 → q' ≠ q → t.queue r k q' = s.queue r k q'
  other   : ∀ r' k', otherCluster r k r' k' → t.cl r' k' = s.cl r' k'
  rg      : ∀ r', r' ≠ r → t.rg r' = s.rg r'
  kept    : SameMemory s t

/-- The queue goes on once its command flies. -/
theorem Flies.advance (h : Flies r k l s t) (hq : q < 4)
    (hp : Hdr.opcode l.cmd = 0xE0 → ∀ n, n < dlCount l.cmd → (l.id, dlFirst l.cmd + n) ∈ (t.cl r k).dpend) : Issued r k q l s (t.advance r k q) := by
  have hqueue (q' : Nat) : t.queue r k q' = s.queue r k q' := congrArg (fun qs => nth Queue.init qs q') h.queues
  have hcl : (t.advance r k q).cl r k = ({ t.cl r k with begun := true } : Cluster).setQ q ((t.queue r k q).advance (t.cl r k).beat) :=
    State.cl_setCl_same ..
  refine ⟨?_, fun ho n hn => ?_, ?_, fun q' h4 hne => ?_, fun r' k' ho => (t.cl_setCl_ne _ ho).trans (h.other r' k' ho), h.rg,
    h.kept.trans (.of_eq rfl rfl rfl)⟩
  · rw [hcl]
    exact h.lris
  · rw [hcl]
    exact hp ho n hn
  · rw [State.queue, hcl, Cluster.queue_setQ_same _ _ _ hq, hqueue, h.beat]
  · rw [State.queue, hcl, Cluster.queue_setQ _ _ _ _ h4, if_neg hne]
    exact hqueue q'

theorem State.issueLri_issued (s : State) (r k : Nat) (x : Cmd512) (aux : List Nat) (hq : q < 4) :
    Issued r k q (s.newLri r k q x aux) s (s.issueLri r k q x aux) := by
  have hcmd : (s.newLri r k q x aux).cmd = x := (s.newLri_record r k q x aux).cmd
  unfold State.issueLri
  extract_lets l s1 s2 s3
  have heff := s.issueEffects_only r k q x
  have h1 : Flies r k l s s1 := by
    have hcl : s1.cl r k = { s.cl r k with lris := (s.cl r k).lris ++ [l], nextId := (s.cl r k).nextId + 1 } := by
      rw [← heff.cl r k]
      exact State.cl_setCl_same ..
    exact ⟨by rw [hcl], by rw [hcl], by rw [hcl], fun r' k' ho => (State.cl_setCl_ne _ _ ho).trans (heff.cl r' k'), fun r' _ => heff.rg r',
      heff.sameMemory.trans (.of_eq rfl rfl rfl)⟩
  have h2 : Flies r k l s s2 := by
    unfold s2
    split
    · exact h1.setBusy
    · exact h1
  by_cases ho : Hdr.opcode x = 0xE0
  · have h3 : s3 = _ := if_pos ho
    rw [h3]
    refine (h2.modCl.addReq).advance hq fun _ n hn => ?_
    rw [hcmd] at hn ⊢
    rw [State.addReq, State.modRg_eq, State.cl_setRg, State.modCl_eq, State.cl_setCl_same]
    exact List.mem_append_right _ (List.mem_map.mpr ⟨n, List.mem_range.mpr hn, rfl⟩)
  · have h3 : s3 = s2 := if_neg ho
    rw [h3]
    exact h2.advance hq fun h => absurd (hcmd ▸ h) ho

end

/-- Settles O3: the rank table is read, and then the record goes into flight as `newLri` makes it. -/
theorem longCommandGoesIntoFlight : Obligations.LongCommandGoesIntoFlight := by
  intro i s r k q sel c aux hrow hw hdue hsel hlong hv
  have hexec := hdue.exec_row hrow hw hsel
  rw [State.actOn_long hv hlong] at hexec
  have hd := s.noteRanks_data r (streamEnv i) c
  obtain ⟨hcmd, hds, hq, hunit, hissue, hid, hdone⟩ := ((s.noteRanks r (streamEnv i) c).newLri_record r k q c aux).data hd
  obtain ⟨hlris, hpend, hqueue, hqueues, hother, hrg, hkept⟩ := (s.noteRanks r (streamEnv i) c).issueLri_issued r k c aux hdue.1
  rw [hcmd] at hpend
  refine ⟨_, hexec, ⟨_, hlris.trans (by rw [hd.cl]), hcmd, hds, hq, hunit, hissue, hid, hdone, hpend⟩, hqueue.trans ?_, fun q' h4 hne => ?_,
    fun r' k' ho => (hother r' k' ho).trans (hd.cl r' k'), fun r' hr => (hrg r' hr).trans (hd.rg r'),
    fun he => (SameMemory.refl s |>.noteRanks he).trans hkept⟩
  · rw [State.queue, hd.cl]
    rfl
  · rw [hqueues q' h4 hne, State.queue, hd.cl]
    rfl

end Sys2Proof.Machine
end

section
/-!
SUPPORT. Queue fetches (R96, R97, R257, R259).
-/
namespace Sys2Proof.Machine

section
variable {b s t u : State} {r k q : Nat}

/-! ### A fetch request enters its router -/

/-- From `s` to `t` a fetch of queue `q` of a cluster has gone through its router: a fault of it may have entered the queue, and accepted requests,
the numbers given out, other queues and clusters and memory stand. -/
structure FetchPasses (r k q : Nat) (s t : State) : Prop where
  queue    : ∃ fs, t.queue r k q = { s.queue r k q with faults := fs }
  queues   : ∀ q', q' < 4 → q' ≠ q → t.queue r k q' = s.queue r k q'
  nextReq  : (t.rg r).nextReq = (s.rg r).nextReq
  accepted : (t.rg r).accepted = (s.rg r).accepted
  other    : ∀ r' k', otherCluster r k r' k' → t.cl r' k' = s.cl r' k'
  kept     : SameMemory s t

namespace FetchPasses

theorem refl (s : State) : FetchPasses r k q s s := ⟨⟨_, rfl⟩, fun _ _ _ => rfl, rfl, rfl, fun _ _ _ => rfl, .refl s⟩

theorem only {K : Nat → Prop} (h : FetchPasses r k q s t) (hu : RegsOnly K t u) : FetchPasses r k q s u where
  queue := by rw [State.queue, hu.cl]; exact h.queue
  queues q' h4 hne := by rw [State.queue, hu.cl]; exact h.queues q' h4 hne
  nextReq := by rw [hu.rg, h.nextReq]
  accepted := by rw [hu.rg, h.accepted]
  other r' k' ho := by rw [hu.cl, h.other r' k' ho]
  kept := h.kept.trans hu.sameMemory

theorem modRg {f : Region → Region} (h : FetchPasses r k q s t) (hn : (f (t.rg r)).nextReq = (t.rg r).nextReq := by rfl)
    (ha : (f (t.rg r)).accepted = (t.rg r).accepted := by rfl) : FetchPasses r k q s (t.modRg r f) where
  queue := h.queue
  queues := h.queues
  nextReq := by rw [State.modRg_eq, State.rg_setRg_same, hn, h.nextReq]
  accepted := by rw [State.modRg_eq, State.rg_setRg_same, ha, h.accepted]
  other := h.other
  kept := h.kept.trans (.of_eq rfl rfl rfl)

/-- Only faults enter the queue. -/
theorem setCl {c : Cluster} (h : FetchPasses r k q s t) (hc : ∃ fs, c.queue q = { t.queue r k q with faults := fs })
    (hcs : ∀ q', q' < 4 → q' ≠ q → c.queue q' = t.queue r k q') : FetchPasses r k q s (t.setCl r k c) where
  queue := by
    obtain ⟨fs, hc⟩ := hc
    obtain ⟨gs, hq⟩ := h.queue
    exact ⟨fs, by rw [State.queue, State.cl_setCl_same, hc, hq]⟩
  queues q' h4 hne := by
    rw [State.queue, State.cl_setCl_same, hcs q' h4 hne]
    exact h.queues q' h4 hne
  nextReq := h.nextReq
  accepted := h.accepted
  other r' k' ho := (t.cl_setCl_ne _ ho).trans (h.other r' k' ho)
  kept := h.kept.trans (.of_eq rfl rfl rfl)

theorem dropReq {y : Req} {gen base idx n : Nat} (h : FetchPasses r k q s t) (hq : q < 4) (hy : y.kind = .fetch q gen base idx n) (hk : y.k = k)
    (kind va : Nat) : FetchPasses r k q s (t.dropReq r y kind va) := by
  subst hk
  have h1 := h.only (t.recordFault_only r kind va (t.logOf r y.k) (t.faultBy r y).1 (t.faultBy r y).2.1 (t.faultBy r y).2.2)
  unfold State.dropReq
  dsimp only
  simp only [hy, State.modCl_eq]
  split
  · refine h1.setCl ⟨_, Cluster.queue_setQ_same _ _ _ hq⟩ fun q' h4 hne => ?_
    rw [Cluster.queue_setQ _ _ _ _ h4, if_neg hne]
    rfl
  · exact h1.setCl ⟨_, rfl⟩ fun _ _ _ => rfl

theorem translate {y : Req} {gen base idx n : Nat} (hq : q < 4) (hy : y.kind = .fetch q gen base idx n) (hk : y.k = k) (beats : Nat) (e : Env) :
    FetchPasses r k q s (s.translate r y beats e) := by
  unfold State.translate
  extract_lets xm ms vas x s1 s2 new s3 bad
  have h1 : FetchPasses r k q s s1 := ((((FetchPasses.refl s).only (.bump (K := fun _ => True) _ _ trivial)).only
    (.bump (K := fun _ => True) _ _ trivial)).only (.bump (K := fun _ => True) _ _ trivial))
  have h3 : FetchPasses r k q s s3 :=
    List.foldlRecOn (motive := fun t => FetchPasses r k q s t) _ _ h1.modRg fun _ h _ _ => h.only (State.recordFault_only ..)
  clear_value bad
  cases bad with
  | some f => exact h3.modRg.dropReq hq hy hk _ _
  | none => exact h3.modRg

end FetchPasses

/-- R257: a request entering its router takes the next number there. -/
theorem State.present_fetch (s : State) {y : Req} {gen base idx n : Nat} (hq : q < 4) (hy : y.kind = .fetch q gen base idx n) (hk : y.k = k) (e : Env) :
    FetchPasses r k q (s.addReq r y) (s.present r y e) := by
  unfold State.present
  dsimp only
  rw [State.getLast_addReq]
  dsimp only
  split
  · exact FetchPasses.translate (y := { y with id := (s.rg r).nextReq }) hq hy hk 0 e
  · exact .refl _

/-- The commands that a fetch asks for: 64, or those that remain. -/
def Queue.nextFetch (x : Queue) : Nat := match x.len with | some n => min 64 (n - x.req) | none => 64

/-- R96: the queue has asked for its next commands. -/
structure Asked (r k q : Nat) (s t : State) : Prop where
  queue    : ∃ fs, t.queue r k q = { s.queue r k q with req := (s.queue r k q).req + (s.queue r k q).nextFetch, faults := fs }
  queues   : ∀ q', q' < 4 → q' ≠ q → t.queue r k q' = s.queue r k q'
  nextReq  : (t.rg r).nextReq = (s.rg r).nextReq + 1
  accepted : (t.rg r).accepted = (s.rg r).accepted
  other    : ∀ r' k', otherCluster r k r' k' → t.cl r' k' = s.cl r' k'
  kept     : SameMemory s t

theorem State.fetchReq_asked (s : State) (r k : Nat) (hq : q < 4) : Asked r k q s (s.fetchReq r k q) := by
  unfold State.fetchReq
  extract_lets x n
  obtain ⟨⟨fs, hqueue⟩, hqueues, hnext, haccepted, hother, hkept⟩ := (s.setQ r k q { x with req := x.req + n }).present_fetch (r := r) (k := k)
    (y := s.newReq r k (.fetch q x.gen x.base x.req n) 2) hq rfl rfl noEnv
  have hrg : ((s.setQ r k q { x with req := x.req + n }).addReq r (s.newReq r k (.fetch q x.gen x.base x.req n) 2)).rg r = _ := State.rg_setRg_same ..
  rw [hrg] at hnext haccepted
  refine ⟨⟨fs, hqueue.trans ?_⟩, fun q' h4 hne => (hqueues q' h4 hne).trans ?_, hnext, haccepted,
    fun r' k' ho => (hother r' k' ho).trans (s.cl_setCl_ne _ ho), SameMemory.trans (.of_eq rfl rfl rfl) hkept⟩
  · exact congrArg (fun y : Queue => { y with faults := fs }) (s.queue_setQ_same r k _ hq)
  · exact (congrArg (fun c => c.queue q') (State.cl_setCl_same ..)).trans ((Cluster.queue_setQ _ _ _ _ h4).trans (if_neg hne))

/-! ### Fetched commands enter the queue (R97) -/

theorem numberFrom_index {α β : Type} {f : Nat → α → β} {y : β} {l : List α} {n : Nat} (h : y ∈ numberFrom f n l) :
    ∃ i x, n ≤ i ∧ i < n + l.length ∧ y = f i x := by
  induction l generalizing n with
  | nil => simp [numberFrom] at h
  | cons x xs ih =>
    simp only [numberFrom, List.mem_cons, List.length_cons] at h ⊢
    obtain rfl | h := h
    · exact ⟨n, x, le_rfl, by omega, rfl⟩
    · obtain ⟨i, z, hlo, hhi, rfl⟩ := ih h
      exact ⟨i, z, by omega, by omega, rfl⟩

theorem length_chunks {α : Type} {n : Nat} (hn : 0 < n) : ∀ (m : Nat) {xs : List α}, xs.length = n * m → (chunks n m xs).length = m
  | 0, _, _ => rfl
  | m + 1, xs, h => by
    have hne : xs.isEmpty = false := by
      cases xs with
      | nil => simp at h; omega
      | cons => rfl
    rw [chunks, hne]
    simp only [Bool.false_eq_true, if_false, List.length_cons]
    rw [length_chunks hn m (by rw [List.length_drop, h, Nat.mul_succ]; omega)]

theorem State.length_readReq (s : State) (e : Env) (r : Nat) (y : Req) (lost : Bool) (va n : Nat) : (s.readReq e r y lost va n).length = n := by
  rw [State.readReq, List.length_map, List.length_range]

theorem SameMemory.noteSources {lost : Bool} {ls : List Loc} {e : Env} (he : NoErrors e) (h : SameMemory b s) :
    SameMemory b (s.noteSources r e lost ls) := by
  unfold State.noteSources
  dsimp only
  rw [State.noteChip_quiet he]
  exact (h.noteReads he).bump

/-- R60: a request taken off its router is among its accepted ones no more. -/
theorem State.acceptedReq_takeReq (s : State) (r id : Nat) : (s.takeReq r id).acceptedReq r id = none := by
  rw [State.acceptedReq, State.takeReq, State.modRg_eq, State.rg_setRg_same, List.find?_eq_none]
  intro y hy
  simpa using (List.mem_filter.1 hy).2

theorem State.waiting_takeReq (s : State) (r id : Nat) : ((s.takeReq r id).rg r).waiting = (s.rg r).waiting := by
  rw [State.takeReq, State.modRg_eq, State.rg_setRg_same]

/-- R97: the queue that runs the stream of a fetch takes its commands; another takes none. -/
structure Fetched (r k q gen idx n : Nat) (s t : State) : Prop where
  queue   : ∃ cs : List (Nat × Cmd512), t.queue r k q = { s.queue r k q with buf := (s.queue r k q).buf ++ cs }
              ∧ ((s.queue r k q).gen = gen → cs.length = n ∧ ∀ c ∈ cs, idx ≤ c.1 ∧ c.1 < idx + n)
              ∧ ((s.queue r k q).gen ≠ gen → cs = [])
  waiting : (t.rg r).waiting = (s.rg r).waiting
  other   : ∀ r' k', otherCluster r k r' k' → t.cl r' k' = s.cl r' k'

theorem State.fetchDone_spec (s : State) (r : Nat) (y : Req) (e : Env) {gen base idx n : Nat} (hq : q < 4) :
    Fetched r y.k q gen idx n s (s.fetchDone r y e false q gen base idx n) ∧ (s.fetchDone r y e false q gen base idx n).acceptedReq r y.id = none
      ∧ (NoErrors e → SameMemory s (s.fetchDone r y e false q gen base idx n)) := by
  unfold State.fetchDone
  extract_lets va s1 bs cmds s2
  have hd : DataStep s s1 := s.noteSources_data ..
  have hcl : ∀ r' k', s2.cl r' k' = s.cl r' k' := hd.cl
  have hcuts : (chunks 64 n bs).length = n := length_chunks (by norm_num) n (s1.length_readReq ..)
  have hwaiting : (s2.rg r).waiting = (s.rg r).waiting := (s1.waiting_takeReq r y.id).trans (by rw [hd.rg])
  refine ⟨⟨?_, hwaiting, fun r' k' ho => (s2.cl_setCl_ne _ ho).trans (hcl r' k')⟩, s1.acceptedReq_takeReq r y.id,
    fun he => ((SameMemory.refl s).noteSources he).trans (.of_eq rfl rfl rfl)⟩
  by_cases hg : ((s.cl r y.k).queue q).gen = gen
  · refine ⟨cmds, ?_, fun _ => ⟨(length_numberFrom _ _ _).trans hcuts, fun c hc => ?_⟩, fun h => absurd hg h⟩
    · rw [State.modCl_eq, hcl, if_pos (beq_iff_eq.mpr hg), State.queue, State.cl_setCl_same, Cluster.queue_setQ_same _ _ _ hq]
      rfl
    · obtain ⟨i, _, hlo, hhi, rfl⟩ := numberFrom_index hc
      dsimp only
      omega
  · refine ⟨[], ?_, fun h => absurd h hg, fun _ => rfl⟩
    rw [State.modCl_eq, hcl, if_neg (mt beq_iff_eq.mp hg), List.append_nil, State.queue, State.cl_setCl_same]
    rfl

end

/-- Settles O12: a fetch request goes to its router; a completed one fills the buffer. -/
theorem queuesFetch : Obligations.QueuesFetch := by
  constructor
  · intro s r k q hw hb hu hr hmay
    have hq : q < 4 := by
      simp only [Instr.wf, Bool.and_eq_true, decide_eq_true_eq] at hw
      exact hw.2
    have hex : exec (.queueFetchRequest r k q) s = .next (s.fetchReq r k q) :=
      (exec_inBeat (i := .queueFetchRequest r k q) rfl hw hb).trans (congrArg Host.Outcome.next ((State.regionRuns_of_up hu hr _).trans (if_pos hmay)))
    obtain ⟨⟨fs, hqueue⟩, hqueues, hnext, haccepted, hother, hkept⟩ := s.fetchReq_asked r k hq
    exact ⟨_, hex, by rw [hqueue]; rfl, by rw [hqueue], by rw [hqueue], hnext, haccepted, hqueues, hother, hkept⟩
  · intro s r id e x q gen base idx n hw hi hx hkind hserved hq
    have hdone : s.queueFetchComplete r id e = s.fetchDone r x e false q gen base idx n := by
      simp only [State.queueFetchComplete, hx, hkind, hserved, if_true]
    have hex : exec (.queueFetchComplete r id e) s = .next (s.fetchDone r x e false q gen base idx n) :=
      (if_pos hw).trans (congrArg Host.Outcome.next ((State.thenRetry_of_idle hi _).trans hdone))
    obtain ⟨⟨⟨cs, hqueue, hruns, hstale⟩, hwaiting, hother⟩, hgone, hkept⟩ := s.fetchDone_spec r x e (gen := gen) (base := base) (idx := idx) (n := n) hq
    rw [State.acceptedReq_id hx] at hgone
    refine ⟨_, hex, fun hg => ⟨cs, by rw [hqueue], hruns hg⟩, fun hg => ?_, by rw [hqueue], by rw [hqueue], hgone, hwaiting, hother, hkept⟩
    rw [hqueue, hstale hg, List.append_nil]

end Sys2Proof.Machine
end

section
/-!
SUPPORT. Done points of timed commands and of DESC_LOAD (R109, R110, R112, R113).
-/
namespace Sys2Proof.Machine

section
variable {b s t : State} {r k q : Nat}

/-! ### What a timed command counts (R87, R158, R180, R215, R369) -/

theorem A.cl_ne_qRetired {o : Nat} (hq : q < 4) (ho : 0x1000 ≤ o) : A.qRetired r k q ≠ A.cl r k o := by
  simp only [A.qRetired, A.seq, A.cl, A.rtr]
  omega

theorem A.red_ne_qRetired {o : Nat} (ho : o < 0x1000) : A.qRetired r k q ≠ A.red o := by
  simp only [A.qRetired, A.seq, A.cl, A.rtr, A.red]
  omega

/-- From `b` to `s` counters other than SEQ_Q_RETIRED of a queue and status bits of a cluster's beat have been taken. -/
structure Counts (r k q : Nat) (b s : State) : Prop where
  retired : s.reg (A.qRetired r k q) = b.reg (A.qRetired r k q)
  cluster : ∃ now, s.cl r k = { b.cl r k with setNow := now }
  other   : ∀ r' k', otherCluster r k r' k' → s.cl r' k' = b.cl r' k'
  kept    : SameMemory b s

namespace Counts

theorem refl (s : State) : Counts r k q s s := ⟨rfl, ⟨_, rfl⟩, fun _ _ _ => rfl, .refl s⟩

theorem bump {a n : Nat} (h : Counts r k q b s) (ha : A.qRetired r k q ≠ a) : Counts r k q b (s.bump a n) where
  retired := (s.reg_bump_ne n ha).trans h.retired
  cluster := by rw [State.cl_bump]; exact h.cluster
  other r' k' ho := by rw [State.cl_bump, h.other r' k' ho]
  kept := h.kept.bump

theorem bumpUnits {a n : Nat} (h : Counts r k q b s) (ha : A.qRetired r k q ≠ a) : Counts r k q b (s.bumpUnits a n) where
  retired := (s.reg_bumpUnits_ne n ha).trans h.retired
  cluster := by rw [State.cl_bumpUnits]; exact h.cluster
  other r' k' ho := by rw [State.cl_bumpUnits, h.other r' k' ho]
  kept := h.kept.trans (.of_eq (s.bumpUnits_mem a n) (s.bumpUnits_gran a n) (s.bumpUnits_flash a n))

theorem setNow {a v : Nat} (h : Counts r k q b s) (ha : A.qRetired r k q ≠ a) : Counts r k q b (s.setNow r k a v) where
  retired := (s.reg_setReg_ne _ ha).trans h.retired
  cluster := by
    obtain ⟨now, hnow⟩ := h.cluster
    refine ⟨if v = 0 then (s.cl r k).setNow else (a, v) :: (s.cl r k).setNow, (State.cl_setCl_same ..).trans ?_⟩
    rw [State.orReg_eq, State.cl_setReg, hnow]
  other r' k' ho := (State.cl_setCl_ne _ _ ho).trans (h.other r' k' ho)
  kept := h.kept.trans (.of_eq rfl rfl rfl)

end Counts

/-- The counters that a timed command takes at its done point lie past the sequencer's, or are its context's. -/
theorem State.countDone_counts (s : State) (r k : Nat) (l : Lri) (hq : q < 4) (ho : ∀ c, (s.rg r).owner = some c → c < 16) :
    Counts r k q s (s.countDone r k l) := by
  have far {o : Nat} (h : 0x1000 ≤ o) : A.qRetired r k q ≠ A.cl r k o := A.cl_ne_qRetired hq h
  unfold State.countDone
  split
  · exact .refl s
  · extract_lets p s0 c
    split
    extract_lets ve
    have near {o : Nat} (h : o ≤ 0x58 + 0x80 * c) : A.qRetired r k q ≠ A.red o := by
      have hc : c < 16 := by
        cases hown : (s.rg r).owner with
        | none => simp [c, hown]
        | some x => simpa [c, hown] using ho x hown
      exact A.red_ne_qRetired (by omega)
    have h0 : Counts r k q s s0 := ((Counts.refl s).bump (far (by omega))).bump (far (by omega))
    have hve (v : Nat) : Counts r k q s (ve v) := by
      unfold ve
      extract_lets s1 s2 s3 s4
      have h1 : Counts r k q s s1 := (h0.setNow (far (by omega))).bump (far (by omega))
      have h2 : Counts r k q s s2 := ((h1.bumpUnits (far (by omega))).bumpUnits (far (by omega))).bump (far (by omega))
      have h3 : Counts r k q s s3 := ((h2.bumpUnits (far (by omega))).bumpUnits (far (by omega))).bumpUnits (far (by omega))
      have h4 : Counts r k q s s4 := h3.bump (far (by omega))
      exact (((h4.bump (near (by omega))).bump (near (by omega))).bump (near (by omega))).bump (near (by omega))
    split
    · exact ((h0.setNow (far (by omega))).bump (far (by omega))).bumpUnits (far (by omega))
    · exact hve 0
    · exact hve 1
    · split
      · exact h0.bump (far (by omega))
      · exact h0.bump (far (by omega))

/-! ### The done-flag and the retirement (R109, R110) -/

/-- Counters of flags apart, a done-flag changes nothing of its cluster. -/
theorem State.incFlag_cluster (s : State) (r k v n : Nat) : ∃ cnt, (s.incFlag r k v n).cl r k = { s.cl r k with cnt := cnt } := by
  unfold State.incFlag
  split
  case h_1 => exact ⟨_, rfl⟩
  case h_2 => exact ⟨_, s.cl_bump ..⟩
  case h_3 => exact ⟨_, (State.cl_bump ..).trans (State.cl_setCl_same ..)⟩
  case h_4 => exact ⟨_, State.cl_bump ..⟩
  case h_5 =>
    split
    · exact ⟨_, rfl⟩
    · exact ⟨_, s.cl_bump ..⟩
  case h_6 => exact ⟨_, rfl⟩
  case h_7 => exact ⟨_, rfl⟩

/-- From `s` to `t` a command of a queue that has left flight signals its done-flag and retires. -/
structure Ends (r k q : Nat) (s t : State) : Prop where
  retired : t.reg (A.qRetired r k q) = BitVec.ofNat 64 (satAdd 48 (s.regN (A.qRetired r k q)) 1)
  cluster : ∃ cnt, t.cl r k = { s.cl r k with cnt := cnt }
  other   : ∀ r' k', otherCluster r k r' k' → t.cl r' k' = s.cl r' k'
  kept    : SameMemory s t

theorem State.doneFlag_retire_ends (s : State) (r k q : Nat) (c : Cmd512) : Ends r k q s ((s.doneFlag r k c).retire r k q) := by
  obtain ⟨hmem, hgran, hflash, hother, -, -, -, hregs, -⟩ := s.doneFlag_frame r k c
  obtain ⟨hsat, hunmapped, hforeign⟩ := A.qRetired_ne r k q
  refine ⟨?_, ?_, fun r' k' ho => (State.cl_bump ..).trans (hother r' k' ho), (SameMemory.of_eq hmem hgran hflash).bump⟩
  · rw [State.retire, State.reg_bump_one, State.regN, hregs _ hsat hunmapped hforeign]
    rfl
  · rw [State.retire, State.cl_bump]
    unfold State.doneFlag
    split
    · exact s.incFlag_cluster ..
    · exact ⟨_, rfl⟩

/-- A timed command leaves its cluster, in a schedule beat that has begun. -/
def Cluster.leave (c : Cluster) (id : Nat) : Cluster := { c with lris := c.lris.filter fun x => x.id != id, begun := true }

theorem State.donePoint_eq (s : State) (r k : Nat) (l : Lri) : s.donePoint r k l =
    (((s.countDone r k l).setCl r k (((s.countDone r k l).cl r k).leave l.id)).doneFlag r k l.cmd).retire r k l.q := rfl

/-- From `s` to `t` a timed command has reached its done point. -/
structure Done (r k : Nat) (l : Lri) (s t : State) : Prop where
  retired : t.reg (A.qRetired r k l.q) = BitVec.ofNat 64 (satAdd 48 (s.regN (A.qRetired r k l.q)) 1)
  cluster : ∃ now cnt, t.cl r k = { (s.cl r k).leave l.id with setNow := now, cnt := cnt }
  other   : ∀ r' k', otherCluster r k r' k' → t.cl r' k' = s.cl r' k'
  kept    : SameMemory s t

theorem State.donePoint_done {l : Lri} (hq : l.q < 4) (ho : ∀ c, (s.rg r).owner = some c → c < 16) : Done r k l s (s.donePoint r k l) := by
  obtain ⟨hregs, ⟨now, hnow⟩, hothers, hmem⟩ := s.countDone_counts r k l hq ho
  rw [State.donePoint_eq]
  obtain ⟨hretired, ⟨cnt, hcl⟩, hother, hkept⟩ :=
    ((s.countDone r k l).setCl r k (((s.countDone r k l).cl r k).leave l.id)).doneFlag_retire_ends r k l.q l.cmd
  refine ⟨?_, ⟨now, cnt, ?_⟩, fun r' k' ho => (hother r' k' ho).trans ((State.cl_setCl_ne _ _ ho).trans (hothers r' k' ho)),
    (hmem.trans (.of_eq rfl rfl rfl)).trans hkept⟩
  · rw [hretired, State.regN, State.reg_setCl, hregs]
    rfl
  · rw [hcl, State.cl_setCl_same, hnow]
    rfl

/-! ### Descriptors enter the cache (R112) -/

theorem Sparse.get_foldl_set_ne {α : Type} [DecidableEq α] {d : α} {ps : List (Nat × α)} {n : Nat} (m : Sparse α) (h : ∀ p ∈ ps, n ≠ p.1) :
    Sparse.get d (ps.foldl (fun m p => Sparse.set d m p.1 p.2) m) n = Sparse.get d m n :=
  List.foldlRecOn (motive := fun m' => Sparse.get d m' n = Sparse.get d m n) _ _ rfl fun m' hm p hp => (Sparse.get_set_ne d m' p.1 n p.2 (h p hp)).trans hm

theorem A.qRetired_not_data (hr : r < 48) (hk : k < 9) (hq : q < 4) : ¬ DataReg (A.qRetired r k q) := by
  generalize ha : A.qRetired r k q = a
  simp only [A.qRetired, A.seq, A.cl, A.rtr] at ha
  intro h
  cases h with
  | nokey =>
    simp only [A.nokeyReads, A.sec] at ha
    omega
  | atomPoison =>
    simp only [A.atomPoison, A.ekb] at ha
    omega
  | poisonReads r' | spCe r' | spUe r' =>
    simp only [A.poisonReads, A.spCe, A.spUe, A.rtr] at ha
    omega
  | hbmCe h | hbmUe h | hbmPoisonSet h | hbmErrAddr h =>
    simp only [A.hbmCe, A.hbmUe, A.hbmPoisonSet, A.hbmErrAddr, A.hbm] at ha
    omega
  | cxlPoison p =>
    simp only [A.cxlPoison, A.cxl] at ha
    omega
  | mlmStatus h =>
    simp only [A.mlmStatus, A.mem] at ha
    omega
  | txBytes h | transitFlits h =>
    simp only [A.txBytes, A.transitFlits, A.ekb] at ha
    omega

/-- R112: every descriptor loaded enters one of the entries that its DESC_LOAD names. -/
theorem Cluster.entry_load (c : Cluster) (first n : Nat) {ds : List Desc1024} (h : n < first ∨ first + ds.length ≤ n) :
    Sparse.get 0 ((numberFrom (fun i (d : Desc1024) => (first + i, d)) 0 ds).foldl (fun m p => Sparse.set 0 m p.1 p.2) c.dcache) n = c.entry n := by
  refine Sparse.get_foldl_set_ne _ fun p hp => ?_
  obtain ⟨i, d, -, hi, rfl⟩ := numberFrom_index hp
  dsimp only
  omega

/-- From `s` to `t` a DESC_LOAD has left its cluster. -/
structure Loaded (r k : Nat) (l : Lri) (s t : State) : Prop where
  retired : t.reg (A.qRetired r k l.q) = BitVec.ofNat 64 (satAdd 48 (s.regN (A.qRetired r k l.q)) 1)
  lris    : (t.cl r k).lris = (s.cl r k).lris.filter fun y => y.id != l.id
  dpend   : (t.cl r k).dpend = (s.cl r k).dpend.filter fun y => y.1 != l.id
  entries : ∀ n, n < dlFirst l.cmd ∨ dlFirst l.cmd + dlCount l.cmd ≤ n → (t.cl r k).entry n = (s.cl r k).entry n
  other   : ∀ r' k', otherCluster r k r' k' → t.cl r' k' = s.cl r' k'

/-- The reads of the descriptors (R112) count errors, none of which the record of a command's end takes. -/
theorem Loaded.of_eq {l : Lri} (h : Loaded r k l s t) (hreg : s.reg (A.qRetired r k l.q) = b.reg (A.qRetired r k l.q))
    (hcl : ∀ r' k', s.cl r' k' = b.cl r' k') : Loaded r k l b t where
  retired := by rw [h.retired, State.regN, hreg]; rfl
  lris := by rw [h.lris, hcl]
  dpend := by rw [h.dpend, hcl]
  entries n hn := by rw [h.entries n hn, hcl]
  other r' k' ho := by rw [h.other r' k' ho, hcl]

theorem State.finishDesc_loaded {l : Lri} {ds : List Desc1024} (hl : (s.cl r k).lri l.id = some l) (hds : ds.length = dlCount l.cmd) :
    Loaded r k l s (s.finishDesc r k l.id ds) ∧ SameMemory s (s.finishDesc r k l.id ds) := by
  unfold State.finishDesc
  rw [hl]
  dsimp only
  rw [State.modCl_eq]
  obtain ⟨hretired, ⟨cnt, hcl⟩, hother, hkept⟩ := State.doneFlag_retire_ends (s.setCl r k _) r k l.q l.cmd
  rw [State.cl_setCl_same] at hcl
  refine ⟨⟨hretired, by rw [hcl], by rw [hcl], fun n hn => ?_, fun r' k' ho => (hother r' k' ho).trans (s.cl_setCl_ne _ ho)⟩,
    SameMemory.trans (.of_eq rfl rfl rfl) hkept⟩
  rw [hcl, ← (s.cl r k).entry_load (dlFirst l.cmd) n (hds ▸ hn)]
  rfl

theorem State.descDone_loaded {y : Req} {l : Lri} (e : Env) (hl : (s.cl r y.k).lri l.id = some l) (hr : r < 48) (hk : y.k < 9) (hq : l.q < 4) :
    Loaded r y.k l s (s.descDone r y e false l) ∧ (NoErrors e → SameMemory s (s.descDone r y e false l)) := by
  unfold State.descDone
  extract_lets n s1 bs
  have hd : DataStep s s1 := s.noteSources_data ..
  have hcl : ∀ r' k', (s1.takeReq r y.id).cl r' k' = s.cl r' k' := hd.cl
  have hlen : (chunks 128 n bs).length = n := length_chunks (by norm_num) n (s1.length_readReq ..)
  obtain ⟨hloaded, hkept⟩ := State.finishDesc_loaded (s := s1.takeReq r y.id) (ds := (chunks 128 n bs).map fun b => BitVec.ofNat 1024 (bytesToNat b))
    (by rw [hcl, hl]) (by rw [List.length_map, hlen])
  exact ⟨hloaded.of_eq (hd.reg _ (A.qRetired_not_data hr hk hq)) hcl,
    fun he => (((SameMemory.refl s).noteSources he).trans (.of_eq rfl rfl rfl)).trans hkept⟩

end

theorem Cluster.lri_id {c : Cluster} {id : Nat} {l : Lri} (h : c.lri id = some l) : l.id = id := by
  simpa using List.find?_some h

/-- Settles O14: a command that ends leaves flight, counts, signals and retires; a DESC_LOAD fills the entries it names first. -/
theorem commandsInFlightEnd : Obligations.CommandsInFlightEnd := by
  constructor
  · intro s r k id l hw hb hl hq howner
    obtain rfl : l.id = id := by simpa using List.find?_some hl
    have hdone : s.doneOne r k l.id = s.donePoint r k l := by rw [State.doneOne, hl]
    have hex : exec (.timedDonePoint r k l.id) s = .next (s.donePoint r k l) :=
      (exec_inBeat (i := .timedDonePoint r k l.id) rfl hw hb).trans (congrArg Host.Outcome.next hdone)
    obtain ⟨hretired, ⟨now, cnt, hcl⟩, hother, hkept⟩ := s.donePoint_done (k := k) hq howner
    exact ⟨_, hex, by rw [hcl]; rfl, hretired, by rw [hcl]; rfl, by rw [hcl]; rfl, hother, hkept⟩
  · intro s r id lri e x l hw hi hx hkind hl hserved hn
    obtain ⟨hr, hk, -, hunits⟩ := hn
    have hq : l.q < 4 := hunits l (Cluster.lri_mem hl)
    obtain rfl := Cluster.lri_id hl
    have hdone : s.descLoadDone r id e = s.descDone r x e false l := by
      simp only [State.descLoadDone, hx, hkind, hl, hserved, if_true]
    have hex : exec (.descLoadDone r id e) s = .next (s.descDone r x e false l) :=
      (if_pos hw).trans (congrArg Host.Outcome.next ((State.thenRetry_of_idle hi _).trans hdone))
    have h0 : Ending r x.k A.mlmTimeouts s s := ⟨rfl, rfl, hunits⟩
    have hgone := (State.descDone_left (q := x) (e := e) (lost := false) (l := l) h0 (.inl rfl) hr hk).gone
    rw [State.acceptedReq_id hx] at hgone
    obtain ⟨⟨hretired, hlris, hdpend, hentries, hother⟩, hkept⟩ := State.descDone_loaded e hl hr hk hq
    exact ⟨_, hex, hlris, hdpend, hentries, hgone, hretired, hother, hkept⟩

end Sys2Proof.Machine
end

section
/-!
SUPPORT. SEC_ROTATE, SEC_SCRUB_CTRL.GO and MEM_XLATE_INV: what each write comes to (R258, R405, R411).
-/
namespace Sys2Proof.Machine

variable {s : State} {p : Party} {d : RegDef} {w : Nat}

/-! ### Writes that act outside an activation (R13, R15, R447) -/

/-- Outside an activation a write that reaches a register takes the action it asks for and sets its W1S bits. -/
theorem Reaches.csrWrite_eq {a : Nat} (h : Reaches s p a d w) (x : WriteEnv) (ho : d.acc ≠ .ro) (hs : s.activating = false) :
    s.csrWrite p a w x
      = if w &&& d.w1s = 0 then s.writeAction p a d w x else (s.writeAction p a d w x).orReg a (w &&& d.w1s) := by
  obtain ⟨hopen, hv, hsfu, hd, hg, hm⟩ := h
  rw [State.csrWrite_reaches x hopen hv hsfu hd hg hm]
  unfold State.writeEffect
  rw [if_neg (by simpa using ho), if_neg (by simp [hs])]

/-! ### SEC_ROTATE (R411) -/

theorem regAt_secRotate : regAt A.secRotate = some ⟨0, 0, 0, true, .status, .sec true, .module⟩ := by decide

theorem State.csrWrite_secRotate {c : Nat} (hc : c < 16) (h : Reaches s p A.secRotate d (c + 16)) (hs : s.activating = false) :
    s.csrWrite p A.secRotate (c + 16) WriteEnv.none = s.rotate c := by
  obtain rfl : d = _ := Option.some.inj (h.regAt_eq.symm.trans regAt_secRotate)
  rw [h.csrWrite_eq _ (by simp) hs, if_pos (by simp)]
  have hbit : bitAt (c + 16) 4 = true := by simp [bitAt, Nat.testBit, Nat.shiftRight_eq_div_pow]; omega
  have hctx : field (c + 16) 0 4 = c := by simp [field]; omega
  show (if bitAt (c + 16) 4 then s.rotate (field (c + 16) 0 4) else s) = _
  rw [hbit, hctx, if_pos rfl]

theorem exec_secRotate {c : Nat} (hp : p.ok = true) (hc : c < 16) (h : Reaches s p A.secRotate d (c + 16)) (hs : s.activating = false) :
    exec (.secRotate p c) s = .next (s.rotate c) := by
  rw [← State.csrWrite_secRotate hc h hs]
  refine (if_pos hp).trans ?_
  rw [State.wrReg, Nat.mod_eq_of_lt hc]

theorem State.rotate_refused {c : Nat} (h : s.dataProt = false ∨ s.fieldN (A.keyStatus c) 0 2 ≠ 1) : s.rotate c = s.bump A.rotRefused 1 :=
  if_pos (by simpa using h)

/-- A rotation with pages to sweep: the sweep is under way. -/
theorem State.rotate_begins {c : Nat} (hd : s.dataProt = true) (hk : s.fieldN (A.keyStatus c) 0 2 = 1) (hr : s.rngOk = true)
    (hl : s.sweepList c ≠ []) :
    s.rotate c = ((s.newKey.2.setCx c { s.cx c with
      prev := (s.cx c).cur, cur := some s.nextKey, curGen := 1 - (s.cx c).curGen, sweep := s.sweepList c }).setKeyStatus c 2 (1 - (s.cx c).curGen)) := by
  unfold State.rotate
  dsimp only
  rw [if_neg (by simp [hd, hk]), if_neg (by simp [hr])]
  exact if_neg (by simpa using hl)

theorem State.rotate_memory (s : State) (c : Nat) : SameMemory s (s.rotate c) := by
  unfold State.rotate
  dsimp only
  refine .ite (SameMemory.refl s).bump (.ite (.refl s) (.ite (.of_eq rfl rfl rfl) (.of_eq rfl rfl rfl)))

theorem State.fieldN_keyStatus_state (s : State) (c state gen : Nat) (h : state < 4) :
    (s.setKeyStatus c state gen).fieldN (A.keyStatus c) 0 2 = state := by
  simp [State.setKeyStatus, State.fieldN, regField, field]
  omega

/-! ### SEC_SCRUB_CTRL (R405) -/

theorem regAt_scrubCtrl : regAt A.scrubCtrl = some ⟨0xFFFFF, 0, 0x100000, false, .status, .sec false, .module⟩ := by decide

/-- What decides whether an output address answers lies in the registers of the ports (R255, R267, R498). -/
theorem State.outOk_congr {s t : State} (h : ∀ a, a ≠ A.scrubCtrl → t.reg a = s.reg a) (ha : t.active = s.active) (a : Nat) :
    t.outOk a = s.outOk a := by
  have hstatus (p : Nat) : t.reg (A.cxlStatus p) = s.reg (A.cxlStatus p) := h _ (by simp only [A.cxlStatus, A.cxl, A.scrubCtrl, A.sec]; omega)
  have hcap (p : Nat) : t.reg (A.cxlCap p) = s.reg (A.cxlCap p) := h _ (by simp only [A.cxlCap, A.cxl, A.scrubCtrl, A.sec]; omega)
  have hwin : t.reg A.mlmWin = s.reg A.mlmWin := h _ (by decide)
  have hport (m : Nat) : t.reg (A.mlmStatus m) = s.reg (A.mlmStatus m) := h _ (by simp only [A.mlmStatus, A.mem, A.scrubCtrl, A.sec]; omega)
  unfold State.outOk State.mlmUp State.mlmPort State.dataProt State.bit State.fieldN
  simp only [hstatus, hcap, hwin, hport, ha]

theorem State.scrubOk_congr {s t : State} (h : ∀ a, a ≠ A.scrubCtrl → t.reg a = s.reg a) (ha : t.active = s.active) (b n : Nat) :
    t.scrubOk b n = s.scrubOk b n := by
  have hbusy : t.bit A.scrubStatus 0 = s.bit A.scrubStatus 0 := congrArg (fun w : Reg64 => w.toNat.testBit 0) (h _ (by decide))
  unfold State.scrubOk
  simp only [hbusy, State.outOk_congr h ha]

/-- The word that asks for a scrub of `n` parts. -/
theorem goWord_fields {n : Nat} (hn : n < 2 ^ 20) :
    bitAt (n + 1048576) 20 = true ∧ field (n + 1048576) 0 20 = n ∧ (n + 1048576) &&& 0x100000 = 1048576 := by
  have hbit : (n + 2 ^ 20).testBit 20 = true := by simp [Nat.testBit, Nat.shiftRight_eq_div_pow]; omega
  refine ⟨hbit, by simp [field]; omega, ?_⟩
  rw [show (0x100000 : Nat) = 2 ^ 20 by rfl, Nat.and_two_pow, hbit]
  rfl

theorem State.writeAction_scrubCtrl (s : State) (p : Party) (w : Nat) (d : RegDef) (hd : regAt A.scrubCtrl = some d) :
    s.writeAction p A.scrubCtrl d w WriteEnv.none
      = (if bitAt w 20 then (s.storeFields A.scrubCtrl d w).scrubGo (field w 0 20) else s.storeFields A.scrubCtrl d w) := by
  obtain rfl : d = _ := Option.some.inj (hd.symm.trans regAt_scrubCtrl)
  rfl

/-- SEC_SCRUB_CTRL with GO: the parts asked for are stored, and the scrub begins or is refused. -/
theorem exec_scrubGo {n : Nat} (hp : p.ok = true) (hn : n < 1048576) (h : Reaches s p A.scrubCtrl d (n + 1048576)) (hs : s.activating = false) :
    exec (.scrubGo p n) s = .next (((s.storeFields A.scrubCtrl d (n + 1048576)).scrubGo n).orReg A.scrubCtrl 1048576) := by
  have hd := h.regAt_eq.symm.trans regAt_scrubCtrl
  obtain ⟨hgo, hparts, hset⟩ := goWord_fields hn
  refine (if_pos hp).trans (congrArg Host.Outcome.next ?_)
  rw [State.wrReg, Nat.mod_eq_of_lt hn]
  generalize n + 1048576 = w at *
  rw [h.csrWrite_eq _ (by simp [Option.some.inj hd]) hs, State.writeAction_scrubCtrl _ _ _ _ h.regAt_eq, hgo, hparts,
    show w &&& d.w1s = 1048576 by rw [Option.some.inj hd]; exact hset]
  rfl

/-- What a scrub's beginning, or its refusal, writes. -/
theorem State.scrubGo_spec (s : State) (n : Nat) :
    let base := s.fieldN A.scrubBase 21 31 * 0x200000
    (s.scrubOk base n = true → (s.scrubGo n).bit A.scrubStatus 0 = true
      ∧ (s.scrubGo n).scrub = (List.range n).map fun i => base + i * 0x200000)
    ∧ (s.scrubOk base n = false → (s.scrubGo n).bit A.scrubStatus 2 = true ∧ (s.scrubGo n).scrub = s.scrub)
    ∧ (∀ a, a ≠ A.scrubStatus → (s.scrubGo n).reg a = s.reg a) ∧ SameMemory s (s.scrubGo n) := by
  intro base
  by_cases hok : s.scrubOk base n = true
  · rw [show s.scrubGo n = { s.setB A.scrubStatus 0 true with scrub := (List.range n).map fun i => base + i * 0x200000 } from if_pos hok]
    exact ⟨fun _ => ⟨State.bit_setB_same _ _ _ (by decide), rfl⟩, fun h => absurd (h.symm.trans hok) (by decide),
      fun a ha => State.reg_setB_ne _ _ _ ha, .of_eq rfl rfl rfl⟩
  · rw [show s.scrubGo n = s.setB A.scrubStatus 2 true from if_neg hok]
    exact ⟨fun h => absurd h hok, fun _ => ⟨State.bit_setB_same _ _ _ (by decide), rfl⟩, fun a ha => State.reg_setB_ne _ _ _ ha, .of_eq rfl rfl rfl⟩

/-- PARTS reads as asked for, GO set or not (R405). -/
theorem State.fieldN_scrubParts (s : State) {n : Nat} (hn : n < 2 ^ 20) (hd : regAt A.scrubCtrl = some d) :
    regField ((s.storeFields A.scrubCtrl d (n + 2 ^ 20)).reg A.scrubCtrl ||| BitVec.ofNat 64 (2 ^ 20)) 0 20 = n := by
  obtain rfl : d = _ := Option.some.inj (hd.symm.trans regAt_scrubCtrl)
  have hparts (i : Nat) (hi : i < 20) : ((s.storeFields A.scrubCtrl ⟨0xFFFFF, 0, 0x100000, false, .status, .sec false, .module⟩ (n + 2 ^ 20)).reg
      A.scrubCtrl).toNat.testBit i = n.testBit i := by
    refine (s.bit_storeFields A.scrubCtrl _ _ (by omega)).trans ?_
    rw [Nat.zero_testBit, show (0xFFFFF : Nat) = 2 ^ 20 - 1 by rfl, Nat.testBit_two_pow_sub_one, Nat.add_comm, Nat.testBit_two_pow_add_gt hi]
    simp [hi]
  apply Nat.eq_of_testBit_eq
  intro i
  unfold regField field
  rw [Nat.testBit_mod_two_pow, Nat.shiftRight_zero, BitVec.toNat_or, Nat.testBit_or]
  by_cases hi : i < 20
  · rw [hparts i hi, BitVec.toNat_ofNat, Nat.mod_eq_of_lt (by decide), Nat.testBit_two_pow]
    simp [hi, show ¬ 20 = i by omega]
  · rw [Nat.testBit_lt_two_pow (x := n) (hn.trans_le (Nat.pow_le_pow_right (by decide) (by omega)))]
    simp [hi]

/-! ### MEM_XLATE_INV (R258) -/

theorem regAt_xlateInv : regAt A.xlateInv = some ⟨0, 0, 0, true, .status, .inv, .module⟩ := by decide

/-- The word that names a context, ALL and a page. -/
def invWord (c : Nat) (all : Bool) (page : Nat) : Nat := c + (if all then 16 else 0) + page

theorem invWord_fields {c page : Nat} (all : Bool) (hc : c < 16) (hp : page < 2 ^ 52) (h : page % 0x200000 = 0) :
    field (invWord c all page) 0 4 = c ∧ bitAt (invWord c all page) 4 = all ∧ field (invWord c all page) 21 31 * 0x200000 = page := by
  refine ⟨?_, ?_, ?_⟩
  · cases all <;> simp [invWord, field] <;> omega
  · cases all <;> simp [invWord, bitAt, Nat.testBit, Nat.shiftRight_eq_div_pow] <;> omega
  · cases all <;> simp [invWord, field, Nat.shiftRight_eq_div_pow] <;> omega

/-- A context's write names itself, another party's the context in its word. -/
theorem State.writeAction_xlateInv (s : State) (p : Party) (w : Nat) :
    s.writeAction p A.xlateInv ⟨0, 0, 0, true, .status, .inv, .module⟩ w WriteEnv.none
      = s.invalidate (match p with | .ctx c => c | _ => field w 0 4) (bitAt w 4) (field w 21 31 * 0x200000) := rfl

theorem exec_memXlateInv {c page : Nat} {all : Bool} (hok : p.ok = true) (hc : c < 16) (hp : page < 2 ^ 52) (hpage : page % 0x200000 = 0)
    (h : Reaches s p A.xlateInv d (c + (if all then 16 else 0) + page)) (hctx : ∀ x, p = .ctx x → x = c) (hs : s.activating = false) :
    exec (.memXlateInv p c all page) s = .next (s.invalidate c all page) := by
  obtain rfl : d = _ := Option.some.inj (h.regAt_eq.symm.trans regAt_xlateInv)
  obtain ⟨hlow, hall, hhigh⟩ := invWord_fields all hc hp hpage
  have hword : c % 16 + (if all then 16 else 0) + page / 0x200000 % 2147483648 * 0x200000 = invWord c all page := by
    unfold invWord
    omega
  refine (if_pos hok).trans (congrArg Host.Outcome.next ?_)
  rw [hword, State.wrReg]
  generalize hw : invWord c all page = w at *
  have h' : Reaches s p A.xlateInv ⟨0, 0, 0, true, .status, .inv, .module⟩ w := hw ▸ h
  rw [h'.csrWrite_eq _ (by simp) hs, if_pos (by simp), State.writeAction_xlateInv, hall, hhigh]
  cases p with
  | ctx x => rw [hctx x rfl]
  | ralrad => rw [hlow]
  | companion => rw [hlow]
  | operator => rw [hlow]

/-- What each of a run of regions' updates keeps of a region, all of them keep. -/
theorem State.rg_modRgs_keep {f : Region → Region} {P : Region → Prop} (hf : ∀ g, P g → P (f g)) {r : Nat} :
    ∀ (l : List Nat) (s : State), P (s.rg r) → P ((l.foldl (fun s r => s.modRg r f) s).rg r)
  | [], _, h => h
  | r' :: l, s, h => by
    refine State.rg_modRgs_keep hf l (s.modRg r' f) ?_
    rw [State.modRg_eq, State.rg_setRg]
    split
    · next e => exact e ▸ hf _ h
    · exact h

/-- What an update makes true of any region is true of each that it reaches. -/
theorem State.rg_modRgs_make {f : Region → Region} {P : Region → Prop} (hf : ∀ g, P (f g)) {r : Nat} {l : List Nat} (h : r ∈ l) (s : State) :
    P ((l.foldl (fun s r => s.modRg r f) s).rg r) := by
  induction l generalizing s with
  | nil => simp at h
  | cons r' l ih =>
    rcases List.mem_cons.mp h with rfl | h
    · exact State.rg_modRgs_keep (fun g _ => hf g) l (s.modRg r f) (by rw [State.modRg_eq, State.rg_setRg_same]; exact hf _)
    · exact ih h (s.modRg r' f)

/-- No leaf that the invalidation covers stands in the region's cache. -/
def Region.Uncovered (x : Nat × Bool × Nat) (g : Region) : Prop := ∀ q ∈ g.cache, invCovers x q = false

theorem Region.uncached_uncovered (x : Nat × Bool × Nat) (g : Region) : (g.uncached x).Uncovered x := fun q hq => by
  simpa using (List.mem_filter.mp hq).2

theorem State.dropLeaves_uncovered (s : State) (x : Nat × Bool × Nat) {r : Nat} (hr : r < 48) : ((s.dropLeaves x).rg r).Uncovered x := by
  have hmem : r ∈ List.range 48 := List.mem_range.mpr hr
  unfold State.dropLeaves
  generalize List.range 48 = l at hmem
  exact State.rg_modRgs_make (P := Region.Uncovered x) (Region.uncached_uncovered x) hmem s

/-- R258: from its beginning on, an invalidation's leaves stand in no region's cache. -/
theorem State.invalidate_uncovered {c page : Nat} {all : Bool} (h : s.inv = none) {r : Nat} (hr : r < 48) :
    ((s.invalidate c all page).rg r).Uncovered (c, all, page) := by
  have hdrop := s.dropLeaves_uncovered (c, all, page) hr
  unfold State.invalidate
  rw [if_neg (by simp [h])]
  generalize List.range 48 = l
  exact State.rg_modRgs_keep (P := Region.Uncovered (c, all, page)) (f := Region.unwalk (c, all, page)) (fun _ hg => hg) l _ hdrop

theorem State.invalidate_busy {c page : Nat} {all : Bool} (h : s.inv.isSome = true) : s.invalidate c all page = s.bump A.invDrop 1 := if_pos h

/-- Settles O26, command by command: each is a write that reaches its register and comes to one operation of the key store, the scrubber or the caches. -/
theorem securityCommandsAct : Obligations.SecurityCommandsAct := by
  refine fun s p d hp hs => ⟨fun c hc h => ?_, fun n hn h => ?_, fun c all page hc hpage hsize h hctx => ?_⟩
  · refine ⟨_, exec_secRotate hp hc h hs, State.rotate_refused, fun hd hk hr hl => ?_, s.rotate_memory c⟩
    rw [State.rotate_begins hd hk hr hl]
    simp only [State.setKeyStatus, State.cx_setReg, State.cx_setCx_same, true_and]
    exact ⟨State.fieldN_keyStatus_state _ _ _ _ (by decide), fun c' hc' => State.cx_setCx_ne _ _ hc'⟩
  · refine ⟨_, exec_scrubGo hp hn h hs, ?_⟩
    generalize hu : s.storeFields A.scrubCtrl d (n + 1048576) = u
    have hreg (a : Nat) (ha : a ≠ A.scrubCtrl) : u.reg a = s.reg a := hu ▸ s.reg_storeFields_ne d _ ha
    have hbase : u.fieldN A.scrubBase 21 31 = s.fieldN A.scrubBase 21 31 := congrArg (regField · 21 31) (hreg _ (by decide))
    have hact : u.active = s.active := hu ▸ rfl
    obtain ⟨hgo, hrefused, hkept, hmem⟩ := u.scrubGo_spec n
    rw [hbase, State.scrubOk_congr hreg hact] at hgo hrefused
    have hparts : regField (u.reg A.scrubCtrl ||| BitVec.ofNat 64 (2 ^ 20)) 0 20 = n := hu ▸ s.fieldN_scrubParts hn h.regAt_eq
    have hstatus (i : Nat) : ((u.scrubGo n).orReg A.scrubCtrl 1048576).bit A.scrubStatus i = (u.scrubGo n).bit A.scrubStatus i :=
      congrArg (fun w : Reg64 => w.toNat.testBit i) (State.reg_setReg_ne _ _ (by decide))
    have hscrub : u.scrub = s.scrub := hu ▸ rfl
    refine ⟨fun ho => ⟨(hstatus 0).trans (hgo ho).1, (hgo ho).2⟩, fun ho => ⟨(hstatus 2).trans (hrefused ho).1, (hrefused ho).2.trans hscrub⟩, ?_, ?_⟩
    · rw [State.orReg_eq, State.fieldN, State.reg_setReg_same, hkept _ (by decide)]
      exact hparts
    · exact (hu ▸ s.sameMemory_storeFields A.scrubCtrl d _ : SameMemory s u).trans (hmem.trans (.of_eq rfl rfl rfl))
  · refine ⟨_, exec_memXlateInv hp hc hpage hsize h hctx hs, State.invalidate_busy, fun hi => ?_, ?_⟩
    · have hclear (r : Nat) (hr : r < 48) := State.invalidate_uncovered (c := c) (all := all) (page := page) hi hr
      obtain ⟨u, -, he⟩ := State.invalidate_eq (c := c) (all := all) (page := page) hi
      rw [he] at hclear ⊢
      exact ⟨rfl, State.bit_setB_same _ _ _ (by decide), hclear⟩
    · cases hi : s.inv with
      | some x => rw [State.invalidate_busy (by simp [hi])]; exact (SameMemory.refl s).bump
      | none =>
        obtain ⟨u, hu, he⟩ := State.invalidate_eq (c := c) (all := all) (page := page) hi
        rw [he]
        exact hu.sameMemory.trans (.of_eq rfl rfl rfl)

end Sys2Proof.Machine
end

section
/-!
SUPPORT. What GRACE_EXPIRY does to the requests that wait at the ingress (R315, R335): they are dropped, and EKB_NOT_MEMBER_DROP counts them.
-/
namespace Sys2Proof.Machine

theorem State.graceExpiry_member {s : State} (hu : s.up = true) (hm : s.isMember = true) (hn : s.bit A.member 48 = true) :
    s.graceExpiry = ((s.setFld A.member 12 2 2).dropHeld A.notMember).send (.pldm 7 s.modNum) := if_pos (by simp [hu, hm, hn])

/-- In QUARANTINE every request that waits to be accepted has been counted (R315). -/
theorem State.reg_graceExpiry_notMember {s : State} (hu : s.up = true) (hm : s.isMember = true) (hn : s.bit A.member 48 = true)
    (hw : s.heldPkts.countP (fun h => h.locs.isNone) ≠ 0) :
    s.graceExpiry.reg A.notMember = BitVec.ofNat 64 (satAdd 48 (s.regN A.notMember) (s.heldPkts.countP fun h => h.locs.isNone)) := by
  rw [State.graceExpiry_member hu hm hn]
  refine (State.reg_bump ..).trans ?_
  rw [if_pos ⟨rfl, hw⟩, State.regN, show (s.setFld A.member 12 2 2).reg A.notMember = s.reg A.notMember from State.reg_setReg_ne _ _ (by decide)]
  rfl

/-- A read request of eight bytes from module 6 to module 5. -/
def waitingRead : Pkt :=
  { ptype := 1, dst := 5, src := 6, epoch := 0, job := 1, cls := 1, hops := 0, vl := 0, enc := false, pmask := none, status := 0, tag := 3,
    addr := 0, aux := 0, len := 8, data := [], reserved := 0, ctr := 0, tagOk := true }

/-- READY, a member with number 5 that has seen epoch 1, a read request waiting at its ingress. -/
def gracedHolding : State :=
  { State.reset with
    boot := .ready
    regs := [(A.member, BitVec.ofNat 64 (5 + 2 ^ 12 + 2 ^ 32 + 2 ^ 48))]
    heldPkts := [HeldPkt.fresh waitingRead noEnv] }

/-- Refutes O42: the statement lets grace that runs out change EKB_MEMBER alone, but a request that waits at the ingress is dropped with it and
counted in EKB_NOT_MEMBER_DROP. -/
theorem not_plinthEventsAct : ¬ Obligations.PlinthEventsAct := by
  intro h
  have hu : gracedHolding.up = true := by decide +kernel
  have hm : gracedHolding.isMember = true := by decide +kernel
  have hn : gracedHolding.bit A.member 48 = true := by decide +kernel
  have hcount : gracedHolding.graceExpiry.reg A.notMember = 1#64 := State.reg_graceExpiry_notMember hu hm hn (by decide)
  obtain ⟨hgrace, -⟩ := h gracedHolding
  obtain ⟨t, ht, -, -, -, hreg, -⟩ := hgrace hu hm hn
  obtain rfl : gracedHolding.graceExpiry = t := Host.Outcome.next.inj ht
  have hkept : 1#64 = gracedHolding.reg A.notMember := hcount.symm.trans (hreg A.notMember (by decide))
  exact absurd hkept (by decide +kernel)

end Sys2Proof.Machine
end

section
/-!
SUPPORT. The links of Eokoby, Muolmorn and CXL as they train, exchange link control flits and fall (R268, R306 to R311, R493 to R496).
-/
namespace Sys2Proof.Machine

variable {s t u : State} {p : Nat}

/-! ### Links by number (R307, R493) -/

theorem nth_map_range {α : Type} (d : α) (f : Nat → α) {n i : Nat} (h : i < n) : nth d ((List.range n).map f) i = f i := by
  rw [← nth_eq_getElem d _ i (by simpa using h)]
  simp

theorem State.link_setLink (s : State) (l : Link) {q : Nat} (h : q < 10) : (s.setLink p l).link q = if q = p then l else s.link q :=
  nth_map_range _ _ h

theorem State.link_setLink_same (s : State) (l : Link) (h : p < 10) : (s.setLink p l).link p = l := (s.link_setLink l h).trans (if_pos rfl)

theorem State.up_alive (h : s.up = true) : s.alive = true := by
  simp only [State.up, beq_iff_eq] at h
  simp [State.alive, h]

/-! ### What the link layer leaves alone (R310, R337) -/

/-- `t` is `s` but for the links, what has left, and the flits that Eokoby port `p` counts. -/
structure LinkStep (p : Nat) (s t : State) : Prop where
  rest : t = { s with regs := t.regs, hidden := t.hidden, counted := t.counted, links := t.links, outbox := t.outbox }
  reg  : ∀ a, (p < 8 → a ≠ A.txBytes p ∧ a ≠ A.transitFlits p) → t.reg a = s.reg a

namespace LinkStep

theorem refl (s : State) : LinkStep p s s := ⟨rfl, fun _ _ => rfl⟩

theorem trans (h : LinkStep p s t) (h' : LinkStep p t u) : LinkStep p s u where
  rest := h'.rest.trans (congrArg (fun v : State =>
    { v with regs := u.regs, hidden := u.hidden, counted := u.counted, links := u.links, outbox := u.outbox }) h.rest)
  reg a ha := (h'.reg a ha).trans (h.reg a ha)

theorem sameMemory (h : LinkStep p s t) : SameMemory s t :=
  .of_eq ((congrArg State.mem h.rest).trans rfl) ((congrArg State.gran h.rest).trans rfl) ((congrArg State.flash h.rest).trans rfl)

end LinkStep

theorem State.setLink_step (s : State) (q : Nat) (l : Link) : LinkStep p s (s.setLink q l) := ⟨rfl, fun _ _ => rfl⟩

theorem State.countFlit_step (s : State) (transit : Bool) : LinkStep p s (s.countFlit p transit) := by
  unfold State.countFlit
  split
  · next hp =>
    refine ⟨?_, fun a ha => (State.reg_bump_ne _ _ (ha hp).2).trans (State.reg_bumpUnits_ne _ _ (ha hp).1)⟩
    unfold State.bump State.bumpUnits
    split <;> rfl
  · exact .refl s

theorem State.pump_step (s : State) (n : Nat) : LinkStep p s (s.pump p n) := by
  induction n generalizing s with
  | zero => exact .refl s
  | succ n ih =>
    unfold State.pump
    split
    · exact .refl s
    · exact ((s.setLink_step p _).trans (State.countFlit_step _ _)).trans (ih _)

theorem State.takeCredits_step (s : State) (back : List Nat) : LinkStep p s (s.takeCredits p back) :=
  (s.setLink_step p _).trans (State.pump_step _ _)

theorem State.sendControl_step (s : State) : LinkStep p s (s.sendControl p) := ⟨rfl, fun _ _ => rfl⟩

theorem State.reg_sendControl (s : State) (p a : Nat) : (s.sendControl p).reg a = s.reg a := rfl

/-! ### Link control flits (R309, R310) -/

/-- Lane by lane, the credits still out once `back` of them have come back. -/
def paid (back unpaid : List Nat) : List Nat := numberFrom (fun i n => n - nth 0 back i) 0 unpaid

/-- Where nothing waits to leave, credits that come back are all that changes at the port. -/
theorem State.unpaid_takeCredits (s : State) (back : List Nat) (hp : p < 10) (hq : (s.link p).queue = []) :
    ((s.takeCredits p back).link p).unpaid = paid back (s.link p).unpaid := by
  have hdue : Link.flitsDue { s.link p with unpaid := paid back (s.link p).unpaid } = 0 := by simp [Link.flitsDue, hq, sumNat]
  have hset := s.link_setLink_same { s.link p with unpaid := paid back (s.link p).unpaid } hp
  show ((State.pumpPort (s.setLink p { s.link p with unpaid := paid back (s.link p).unpaid }) p).link p).unpaid = _
  rw [State.pumpPort, hset, hdue, State.pump, hset]

theorem State.unpaid_sendControl (s : State) (hp : p < 10) : ((s.sendControl p).link p).unpaid = (s.link p).unpaid := by
  unfold State.sendControl
  extract_lets l c body
  show ((s.setLink p _).link p).unpaid = _
  rw [s.link_setLink_same _ hp]
  rfl

/-- The module's own flit leaves last, and names its port. -/
theorem State.outbox_sendControl (s : State) (hp : p < 8) : ∃ c : LinkCtl, (s.sendControl p).outbox = .control p c :: s.outbox ∧ c.port = p :=
  ⟨_, rfl, by rw [if_pos hp]⟩

/-- The port shows its width and what the peer's flit told (R309, R337). -/
def State.ShowsPeer (s : State) (p width : Nat) (l : LinkCtl) : Prop :=
  s.fieldN (A.portStatus p) 0 2 = width ∧ s.bit (A.portStatus p) 2 = l.member ∧ s.fieldN (A.portStatus p) 3 12 = l.modNum

theorem State.setPeer_shows (s : State) {width : Nat} {l : LinkCtl} (hw : width < 4) (hm : l.modNum < 4096) : (s.setPeer p width l).ShowsPeer p width l := by
  have hreg : (s.setPeer p width l).reg (A.portStatus p) = BitVec.ofNat 64 (peerWord width l) := State.reg_setReg_same ..
  have hlt : peerWord width l < 2 ^ 64 := by unfold peerWord; split <;> omega
  have hmem : (if l.member then 4 else 0) = 4 * l.member.toNat := by cases l.member <;> rfl
  have hbit := l.member.toNat_lt
  unfold State.ShowsPeer State.fieldN State.bit regField field
  rw [hreg, BitVec.toNat_ofNat, Nat.mod_eq_of_lt hlt, peerWord, hmem]
  refine ⟨by omega, ?_, ?_⟩
  · rw [Nat.testBit_eq_decide_div_mod_eq]
    cases hl : l.member <;> simp <;> omega
  · rw [Nat.shiftRight_eq_div_pow]
    omega

theorem State.reg_setPeer_ne (s : State) (p width : Nat) (l : LinkCtl) {a : Nat} (h : a ≠ A.portStatus p) : (s.setPeer p width l).reg a = s.reg a :=
  State.reg_setReg_ne _ _ h

theorem State.link_setPeer (s : State) (p width : Nat) (l : LinkCtl) (q : Nat) : (s.setPeer p width l).link q = s.link q := rfl

theorem LinkStep.showsPeer {width : Nat} {l : LinkCtl} (h : LinkStep p s t) (hs : s.ShowsPeer p width l) : t.ShowsPeer p width l := by
  have hreg : t.reg (A.portStatus p) = s.reg (A.portStatus p) :=
    h.reg _ fun _ => by simp only [A.portStatus, A.txBytes, A.transitFlits, A.ekb]; omega
  unfold State.ShowsPeer State.fieldN State.bit at hs ⊢
  rwa [hreg]

/-! ### The rows -/

theorem exec_portTrainingComplete {lanes rtt : Nat} {l : LinkCtl} (hp : p < 8) (hi : s.portsIdle = true) :
    exec (.portTrainingComplete p lanes rtt l) s = .next (s.portTrained p lanes rtt l) :=
  (if_pos (by simpa [Instr.wf] using hp)).trans (congrArg Host.Outcome.next (State.thenRetry_of_idle hi _))

theorem exec_portRetrainTimeout (hp : p < 8) : exec (.portRetrainTimeout p) s = .next (s.retrainTimeout p) := if_pos (by simpa [Instr.wf] using hp)

theorem exec_linkControlFlit {l : LinkCtl} (hp : p < 10) (hi : s.portsIdle = true) : exec (.linkControlFlit p l) s = .next (s.linkControl p l) :=
  (if_pos (by simpa [Instr.wf] using hp)).trans (congrArg Host.Outcome.next (State.thenRetry_of_idle hi _))

theorem exec_mlmPortRetrain {lanes : Nat} (hp : p < 2) : exec (.mlmPortRetrain p lanes) s = .next (s.mlmRetrain p lanes) :=
  if_pos (by simpa [Instr.wf] using hp)

theorem exec_linkGoesDown {kind : Nat} (hp : Instr.wf (.linkGoesDown kind p) = true) : exec (.linkGoesDown kind p) s = .next (s.linkGoesDown kind p) :=
  if_pos hp

/-! ### Training (R306, R308, R309, R493, R496) -/

/-- The width that a number of lanes gives an Eokoby port (R306, R337). -/
def ekbWidth (lanes : Nat) : Nat := if lanes = 8 then 2 else 1

theorem State.portTrained_eq {lanes : Nat} (rtt : Nat) (l : LinkCtl) (hu : s.up = true) (he : s.active.ekbEn.testBit p = true) (hd : s.portUp p = false)
    (hl : (s.link p).dead = false) (hn : lanes = 8 ∨ lanes = 4) :
    s.portTrained p lanes rtt l
      = (((s.setReg (A.rtt p) (BitVec.ofNat 64 (min rtt 65535))).setLink p Link.init).setPeer p (ekbWidth lanes) l).sendControl p := by
  have hb : bitAt s.active.ekbEn p = true := he
  unfold State.portTrained ekbWidth
  rcases hn with rfl | rfl <;> simp [hu, hb, hd, hl]

theorem State.portTrained_spec {lanes : Nat} (rtt : Nat) {l : LinkCtl} (hp : p < 8) (hu : s.up = true) (he : s.active.ekbEn.testBit p = true)
    (hd : s.portUp p = false) (hl : (s.link p).dead = false) (hn : lanes = 8 ∨ lanes = 4) (hm : l.modNum < 4096) (ht : s.portTrained p lanes rtt l = t) :
    t.ShowsPeer p (ekbWidth lanes) l ∧ t.regN (A.rtt p) = min rtt 65535 ∧ (t.link p).unpaid = noCredits
    ∧ (∃ c : LinkCtl, t.outbox = .control p c :: s.outbox ∧ c.port = p)
    ∧ (∀ a, a ≠ A.portStatus p → a ≠ A.rtt p → t.reg a = s.reg a) ∧ SameMemory s t := by
  rw [State.portTrained_eq rtt l hu he hd hl hn] at ht
  generalize hv : State.setPeer _ p (ekbWidth lanes) l = v at ht
  have hne : A.rtt p ≠ A.portStatus p := by simp only [A.rtt, A.portStatus, A.ekb]; omega
  have hw : ekbWidth lanes < 4 := by unfold ekbWidth; split <;> decide
  have hshow : v.ShowsPeer p (ekbWidth lanes) l := hv ▸ State.setPeer_shows _ hw hm
  have hlink : v.link p = Link.init := by rw [← hv, State.link_setPeer, State.link_setLink_same _ _ (by omega)]
  have hreg (a : Nat) (ha : a ≠ A.portStatus p) : v.reg a = (s.setReg (A.rtt p) (BitVec.ofNat 64 (min rtt 65535))).reg a := by
    rw [← hv, State.reg_setPeer_ne _ _ _ _ ha]
    rfl
  have hmem : SameMemory s v := hv ▸ .of_eq rfl rfl rfl
  have hout : v.outbox = s.outbox := hv ▸ rfl
  subst ht
  refine ⟨(State.sendControl_step v).showsPeer hshow, ?_, ?_, hout ▸ v.outbox_sendControl hp, fun a ha har => ?_, hmem.trans (State.sendControl_step v).sameMemory⟩
  · rw [State.regN, State.reg_sendControl, hreg _ hne, State.reg_setReg_same, BitVec.toNat_ofNat]
    omega
  · rw [v.unpaid_sendControl (by omega), hlink]
    rfl
  · rw [State.reg_sendControl, hreg a ha, State.reg_setReg_ne s _ har]

theorem State.retrainTimeout_eq (hu : s.up = true) (hd : s.portUp p = false) (hl : (s.link p).lost = true) :
    s.retrainTimeout p = s.setLink p { s.link p with lost := false, dead := true } := if_pos (by simp [hu, hd, hl])

theorem State.retrainTimeout_spec (hp : p < 8) (hu : s.up = true) (hd : s.portUp p = false) (hl : (s.link p).lost = true) :
    ((s.retrainTimeout p).link p).dead = true ∧ ((s.retrainTimeout p).link p).lost = false ∧ (∀ a, (s.retrainTimeout p).reg a = s.reg a)
    ∧ SameMemory s (s.retrainTimeout p) := by
  have hlink : (s.retrainTimeout p).link p = { s.link p with lost := false, dead := true } := by
    rw [State.retrainTimeout_eq hu hd hl]
    exact s.link_setLink_same _ (by omega)
  rw [hlink, State.retrainTimeout_eq hu hd hl]
  exact ⟨rfl, rfl, fun _ => rfl, .of_eq rfl rfl rfl⟩

theorem State.mlmRetrain_eq {lanes : Nat} (hu : s.up = true) (he : s.active.mlmEn.testBit p = true) (hd : s.linkUp (8 + p) = false)
    (hn : lanes = 16 ∨ lanes = 8) :
    s.mlmRetrain p lanes
      = ((s.setReg (A.mlmStatus p) (BitVec.ofNat 64 (if lanes = 16 then 2 else 1))).setLink (8 + p) Link.init).sendControl (8 + p) := by
  have hb : bitAt s.active.mlmEn p = true := he
  unfold State.mlmRetrain
  rcases hn with rfl | rfl <;> simp [hu, hb, hd]

/-! ### Link control flits that arrive (R309, R310, R493) -/

theorem State.linkUp_ekb (s : State) (hp : p < 8) : s.linkUp p = s.portUp p := if_pos hp

theorem State.linkControl_ekb {l : LinkCtl} (hp : p < 8) (hu : s.up = true) (hup : s.portUp p = true) :
    s.linkControl p l = ((s.setPeer p (s.fieldN (A.portStatus p) 0 2) l).takeCredits p l.credits).sendControl p := by
  unfold State.linkControl State.portRuns
  rw [s.linkUp_ekb hp, hup, hu, if_pos hp]
  rfl

theorem State.linkControl_mlm {l : LinkCtl} (hup : s.linkUp (8 + p) = true) : s.linkControl (8 + p) l = (s.takeCredits (8 + p) l.credits).sendControl (8 + p) := by
  unfold State.linkControl State.portRuns
  rw [hup, if_neg (by omega : ¬ 8 + p < 8)]
  exact if_pos (by simp)

theorem State.linkControl_spec {l : LinkCtl} (hp : p < 8) (hu : s.up = true) (hup : s.portUp p = true) (hm : l.modNum < 4096) (ht : s.linkControl p l = t) :
    t.ShowsPeer p (s.fieldN (A.portStatus p) 0 2) l ∧ (∃ c : LinkCtl, .control p c ∈ t.outbox ∧ c.port = p)
    ∧ ((s.link p).queue = [] → (t.link p).unpaid = paid l.credits (s.link p).unpaid)
    ∧ (∀ a, a ≠ A.portStatus p → a ≠ A.txBytes p → a ≠ A.transitFlits p → t.reg a = s.reg a) ∧ SameMemory s t := by
  rw [State.linkControl_ekb hp hu hup] at ht
  generalize hv : s.setPeer p (s.fieldN (A.portStatus p) 0 2) l = v at ht
  have hshow : v.ShowsPeer p (s.fieldN (A.portStatus p) 0 2) l := hv ▸ s.setPeer_shows (Nat.mod_lt _ (by decide)) hm
  have hlink : v.link p = s.link p := hv ▸ s.link_setPeer ..
  have hstep : LinkStep p v t := ht ▸ (v.takeCredits_step _).trans (State.sendControl_step _)
  obtain ⟨c, hc, hport⟩ := State.outbox_sendControl (v.takeCredits p l.credits) hp
  refine ⟨hstep.showsPeer hshow, ⟨c, by simp [← ht, hc], hport⟩, fun hq => ?_, fun a ha h1 h2 => ?_, ?_⟩
  · rw [← ht, State.unpaid_sendControl _ (by omega), v.unpaid_takeCredits _ (by omega) (hlink ▸ hq), hlink]
  · exact (hstep.reg a fun _ => ⟨h1, h2⟩).trans (hv ▸ s.reg_setPeer_ne _ _ _ ha)
  · exact (hv ▸ .of_eq rfl rfl rfl : SameMemory s v).trans hstep.sameMemory

theorem State.linkControl_mlm_spec {l : LinkCtl} (hp : p < 2) (hup : s.linkUp (8 + p) = true) (ht : s.linkControl (8 + p) l = t) :
    ((s.link (8 + p)).queue = [] → (t.link (8 + p)).unpaid = paid l.credits (s.link (8 + p)).unpaid) ∧ (∀ a, t.reg a = s.reg a) ∧ SameMemory s t := by
  rw [State.linkControl_mlm hup] at ht
  have hstep : LinkStep (8 + p) s t := ht ▸ (s.takeCredits_step _).trans (State.sendControl_step _)
  refine ⟨fun hq => ?_, fun a => hstep.reg a fun h => by omega, hstep.sameMemory⟩
  rw [← ht, State.unpaid_sendControl _ (by omega), s.unpaid_takeCredits _ (by omega) hq]

/-! ### Links that go down (R268, R308, R495, R496) -/

theorem State.linkGoesDown_ekb (hu : s.up = true) (hup : s.portUp p = true) : s.linkGoesDown 0 p = s.ekbDown p := by
  simp [State.linkGoesDown, State.up_alive hu, hup]

theorem State.linkGoesDown_cxl (hu : s.up = true) : s.linkGoesDown 1 p = s.cxlDown p := by
  simp [State.linkGoesDown, State.up_alive hu]

theorem State.linkGoesDown_mlm (hu : s.up = true) (hup : s.linkUp (8 + p) = true) : s.linkGoesDown 2 p = s.mlmDown p := by
  simp [State.linkGoesDown, State.up_alive hu, hup]

theorem State.ekbDown_spec (s : State) (hp : p < 8) :
    (s.ekbDown p).portUp p = false ∧ ((s.ekbDown p).link p).lost = true
    ∧ (s.ekbDown p).reg (A.linkDowns p) = BitVec.ofNat 64 (satAdd 48 (s.regN (A.linkDowns p)) 1)
    ∧ (s.ekbDown p).health.tally.downs = s.health.tally.downs + 1 ∧ SameMemory s (s.ekbDown p) := by
  have hne : A.portStatus p ≠ A.linkDowns p := by simp only [A.portStatus, A.linkDowns, A.ekb]; omega
  refine ⟨?_, ?_, ?_, by simp [State.ekbDown, State.setLink], ?_⟩
  · have hfld : (s.ekbDown p).fieldN (A.portStatus p) 0 2 = 0 :=
      (congrArg (regField · 0 2) ((State.reg_bump_ne _ 1 hne).trans (State.reg_setReg_same s _ _))).trans (regField_setField _ 0 2 0 (by decide))
    simp [State.portUp, hfld]
  · exact congrArg Link.lost (State.link_setLink_same _ _ (by omega))
  · refine (State.reg_bump_one _ _).trans ?_
    rw [State.regN, show (s.setFld (A.portStatus p) 0 2 0).reg (A.linkDowns p) = s.reg (A.linkDowns p) from State.reg_setReg_ne _ _ hne.symm]
    rfl
  · exact (SameMemory.of_eq rfl rfl rfl : SameMemory s (s.setFld (A.portStatus p) 0 2 0)).bump.trans (.of_eq rfl rfl rfl)

theorem State.cxlDown_spec (s : State) (p : Nat) :
    (s.cxlDown p).bit (A.cxlStatus p) 0 = false ∧ (∀ a, a ≠ A.cxlStatus p → (s.cxlDown p).reg a = s.reg a) ∧ SameMemory s (s.cxlDown p) := by
  unfold State.cxlDown
  split
  · exact ⟨by simp [State.bit], fun a ha => State.reg_setReg_ne _ _ ha, .of_eq rfl rfl rfl⟩
  · next h => exact ⟨by simpa using h, fun _ _ => rfl, .refl s⟩

theorem State.session_dropSession (s : State) (peer : Nat) : (s.dropSession peer).session peer = none := by
  simp [State.session, State.dropSession]

theorem State.mlmDown_spec (s : State) (p : Nat) :
    (s.mlmDown p).linkUp (8 + p) = false ∧ (s.mlmDown p).session (65536 + p) = none
    ∧ (s.mlmDown p).reg (A.mlmDowns p) = BitVec.ofNat 64 (satAdd 48 (s.regN (A.mlmDowns p)) 1) ∧ SameMemory s (s.mlmDown p) := by
  have hne : A.mlmStatus p ≠ A.mlmDowns p := by simp only [A.mlmStatus, A.mlmDowns, A.mem]; omega
  refine ⟨?_, State.session_dropSession _ _, ?_, ?_⟩
  · have hreg : (s.mlmDown p).reg (A.mlmStatus p) = 0 := (State.reg_bump_ne _ 1 hne).trans (State.reg_setReg_same s _ _)
    simp [State.linkUp, State.fieldN, hreg, regField, field]
  · refine (State.reg_bump_one _ _).trans ?_
    rw [State.regN, State.reg_setReg_ne _ _ hne.symm]
    rfl
  · exact (SameMemory.of_eq rfl rfl rfl : SameMemory s (s.setReg (A.mlmStatus p) 0)).bump.trans (.of_eq rfl rfl rfl)

/-- Settles O47, event by event: the registers of the port that moves, its link, and the flit that leaves for it. -/
theorem portsTrainAndFall : Obligations.PortsTrainAndFall := by
  refine fun s p hu => ⟨fun lanes rtt l hp he hd hl hn hm hi => ?_, fun hp hd hl => ?_, fun l hp hup hm hi => ?_, fun l hp hup hi => ?_,
    fun hp hup => ?_, fun hp => ?_, fun hp hup => ?_, fun lanes hp he hd hn => ?_⟩
  · obtain ⟨⟨hwidth, hmember, hnum⟩, hrtt, hcredits, ⟨c, hc, hport⟩, hreg, hmem⟩ := State.portTrained_spec rtt hp hu he hd hl hn hm rfl
    exact ⟨_, exec_portTrainingComplete hp hi, hwidth, hmember, hnum, hrtt, hcredits, ⟨c, by simp [hc], hport⟩, hreg, hmem⟩
  · exact ⟨_, exec_portRetrainTimeout hp, State.retrainTimeout_spec hp hu hd hl⟩
  · obtain ⟨⟨hwidth, hmember, hnum⟩, hsent, hcredits, hreg, hmem⟩ := State.linkControl_spec hp hu hup hm rfl
    exact ⟨_, exec_linkControlFlit (by omega) hi, hwidth, hmember, hnum, hsent, hcredits, hreg, hmem⟩
  · exact ⟨_, exec_linkControlFlit (by omega) hi, State.linkControl_mlm_spec hp hup rfl⟩
  · refine ⟨_, exec_linkGoesDown (by simpa [Instr.wf] using hp), ?_⟩
    rw [State.linkGoesDown_ekb hu hup]
    exact s.ekbDown_spec hp
  · refine ⟨_, exec_linkGoesDown (by simpa [Instr.wf] using hp), ?_⟩
    rw [State.linkGoesDown_cxl hu]
    exact s.cxlDown_spec p
  · refine ⟨_, exec_linkGoesDown (by simpa [Instr.wf] using hp), ?_⟩
    rw [State.linkGoesDown_mlm hu hup]
    exact s.mlmDown_spec p
  · refine ⟨_, exec_mlmPortRetrain hp, ?_⟩
    rw [State.mlmRetrain_eq hu he hd hn]
    refine ⟨?_, fun a ha => State.reg_setReg_ne s _ ha, .of_eq rfl rfl rfl⟩
    rw [show State.regN (State.sendControl _ (8 + p)) (A.mlmStatus p) = (s.setReg (A.mlmStatus p) _).regN (A.mlmStatus p) from rfl, State.regN_setReg_same]
    split <;> rfl

end Sys2Proof.Machine
end

section
/-!
SUPPORT. Ralrad's background work on memory and on itself: patrol, SRAM scrub, recalibration, analogue checks, reseeds (R265, R407, R457, R458,
R470).
-/
namespace Sys2Proof.Machine

variable {s t u : State}

/-! ### Bits set in a register -/

/-- A bit of a register once others are set in it. -/
theorem State.bit_orReg (s : State) (a v : Nat) {i : Nat} (hi : i < 64) : (s.orReg a v).bit a i = (s.bit a i || v.testBit i) := by
  unfold State.bit
  rw [State.orReg_eq, State.reg_setReg_same, BitVec.toNat_or, Nat.testBit_or, BitVec.toNat_ofNat, Nat.testBit_mod_two_pow]
  simp [hi]

/-! ### The patrol (R265) -/

theorem State.granAt_setGran (s : State) (a b : Nat) (g : Gran) : (s.setGran a g).granAt b = if granOf b = granOf a then g else s.granAt b :=
  Sparse.get_set _ _ _ _ _

/-- The visit of an uncorrectable granule, once an error has been corrected or not. -/
def State.poisonFound (s : State) (k g : Nat) : State :=
  (((s.setGran g { s.granAt g with poison := true }).bump (A.hbmUe k) 1).setReg (A.hbmErrAddr k) (BitVec.ofNat 64 (g + 2 ^ 63))).tallyUe 1

theorem State.patrolFind_eq (s : State) (k g : Nat) (e : Env) {v : State} (hv : (if e.ce.contains g then (s.bump (A.hbmCe k) 1).tallyCe 1 else s) = v) :
    s.patrolFind k g e = if g ∈ e.bad then v.poisonFound k g else v := by
  subst hv
  unfold State.patrolFind
  simp only [List.contains_iff_mem]
  rfl

/-- What the patrol's find at granule `g` of stack `k` leaves. -/
structure PatrolFound (k g : Nat) (e : Env) (s t : State) : Prop where
  mem    : t.mem = s.mem
  patrol : t.patrol = s.patrol
  bad    : g ∈ e.bad → (t.granAt g).poison = true ∧ t.reg (A.hbmUe k) = BitVec.ofNat 64 (satAdd 48 (s.regN (A.hbmUe k)) 1)
             ∧ t.reg (A.hbmErrAddr k) = BitVec.ofNat 64 (g + 2 ^ 63)
  good   : g ∉ e.bad → t.gran = s.gran ∧ t.reg (A.hbmUe k) = s.reg (A.hbmUe k)
  ce     : g ∈ e.ce → t.reg (A.hbmCe k) = BitVec.ofNat 64 (satAdd 48 (s.regN (A.hbmCe k)) 1)
  other  : ∀ a, granOf a ≠ granOf g → t.granAt a = s.granAt a

theorem State.patrolFind_spec (s : State) (k g : Nat) (e : Env) : PatrolFound k g e s (s.patrolFind k g e) := by
  have hce : A.hbmCe k ≠ A.hbmUe k := by simp only [A.hbmCe, A.hbmUe, A.hbm]; omega
  have hue : A.hbmUe k ≠ A.hbmErrAddr k := by simp only [A.hbmUe, A.hbmErrAddr, A.hbm]; omega
  have hea : A.hbmCe k ≠ A.hbmErrAddr k := by simp only [A.hbmCe, A.hbmErrAddr, A.hbm]; omega
  generalize hv : (if e.ce.contains g then (s.bump (A.hbmCe k) 1).tallyCe 1 else s) = v
  have hgran : v.gran = s.gran := by subst hv; split <;> simp [State.tallyCe]
  have hmem : v.mem = s.mem := by subst hv; split <;> simp [State.tallyCe]
  have hpatrol : v.patrol = s.patrol := by subst hv; split <;> simp [State.tallyCe]
  have hreg : ∀ a, a ≠ A.hbmCe k → v.reg a = s.reg a := by
    subst hv
    intro a ha
    split
    · exact State.reg_bump_ne s 1 ha
    · rfl
  have hcount : g ∈ e.ce → v.reg (A.hbmCe k) = BitVec.ofNat 64 (satAdd 48 (s.regN (A.hbmCe k)) 1) := by
    subst hv
    intro h
    rw [if_pos (by simpa using h)]
    exact s.reg_bump_one _
  have hat : ∀ a, v.granAt a = s.granAt a := fun a => by unfold State.granAt; rw [hgran]
  rw [s.patrolFind_eq k g e hv]
  split
  · next hb =>
    have hfar {a : Nat} (h1 : a ≠ A.hbmErrAddr k) (h2 : a ≠ A.hbmUe k) : (v.poisonFound k g).reg a = v.reg a :=
      (State.reg_setReg_ne _ _ h1).trans (State.reg_bump_ne _ _ h2)
    have hgr (a : Nat) : (v.poisonFound k g).granAt a = (v.setGran g { v.granAt g with poison := true }).granAt a :=
      congrArg (fun m => Sparse.get Gran.clean m (granOf a)) (by simp [State.poisonFound, State.tallyUe])
    refine ⟨?_, ?_, fun _ => ⟨?_, ?_, ?_⟩, fun h => absurd hb h, fun h => ?_, fun a ha => ?_⟩
    · simp [State.poisonFound, State.tallyUe, hmem]
    · simp [State.poisonFound, State.tallyUe, hpatrol]
    · rw [hgr, State.granAt_setGran, if_pos rfl]
    · refine (State.reg_setReg_ne _ _ hue).trans ((State.reg_bump_one _ _).trans ?_)
      rw [State.regN, State.regN, State.reg_setGran, hreg _ hce.symm]
    · exact State.reg_setReg_same _ _ _
    · rw [hfar hea hce, hcount h]
    · rw [hgr, State.granAt_setGran, if_neg ha, hat]
  · next hb => exact ⟨hmem, hpatrol, fun h => absurd h hb, fun _ => ⟨hgran, hreg _ hce.symm⟩, hcount, fun a _ => hat a⟩

/-- The on-die corrections that a stack has reported are counted and tallied (R265, R383). -/
def State.noteOdecc (s : State) (k n : Nat) : State :=
  { s.bump (A.hbmOdecc k) n with health := { s.health with tally := { s.health.tally with odecc := s.health.tally.odecc + n } } }

/-- The patrol of a stack goes on to its next granule, after its last one to the first (R265). -/
def State.patrolNext (s : State) (k : Nat) : State :=
  if Sparse.get 0 s.patrol k + 1 = stackGranules then { s.bumpW 32 (A.hbmPasses k) 1 with patrol := Sparse.set 0 s.patrol k 0 }
  else { s with patrol := Sparse.set 0 s.patrol k (Sparse.get 0 s.patrol k + 1) }

theorem State.patrolScrub_eq {k : Nat} (e : Env) (hu : s.up = true) (hk : k < 20) (hs : s.bit (A.hbmStatus k) 0 = true) :
    s.patrolScrub k e = ((s.patrolFind k (s.patrolAt k) e).noteOdecc k e.status).patrolNext k :=
  if_neg (by simp [hu, hs]; omega)

theorem State.noteOdecc_kept (s : State) (k n : Nat) :
    (∀ a, a ≠ A.hbmOdecc k → (s.noteOdecc k n).reg a = s.reg a) ∧ (s.noteOdecc k n).mem = s.mem ∧ (s.noteOdecc k n).gran = s.gran
    ∧ (s.noteOdecc k n).patrol = s.patrol :=
  ⟨fun _ ha => State.reg_bump_ne s n ha, s.bump_mem .., s.bump_gran .., s.bump_patrol ..⟩

theorem State.patrolNext_spec (s : State) (k : Nat) :
    (∀ a, a ≠ A.hbmPasses k → (s.patrolNext k).reg a = s.reg a) ∧ (s.patrolNext k).mem = s.mem ∧ (s.patrolNext k).gran = s.gran
    ∧ Sparse.get 0 (s.patrolNext k).patrol k = if Sparse.get 0 s.patrol k + 1 = stackGranules then 0 else Sparse.get 0 s.patrol k + 1 := by
  unfold State.patrolNext
  split
  · exact ⟨fun a ha => State.reg_setReg_ne s _ ha, rfl, rfl, Sparse.get_set_same ..⟩
  · exact ⟨fun _ _ => rfl, rfl, rfl, Sparse.get_set_same ..⟩

/-- A visit leaves what the patrol finds, and its place one granule on. -/
theorem State.patrolScrub_spec {k : Nat} (e : Env) (hu : s.up = true) (hk : k < 20) (hs : s.bit (A.hbmStatus k) 0 = true) :
    (∀ a, a ≠ A.hbmOdecc k → a ≠ A.hbmPasses k → (s.patrolScrub k e).reg a = (s.patrolFind k (s.patrolAt k) e).reg a)
    ∧ (s.patrolScrub k e).mem = s.mem ∧ (s.patrolScrub k e).gran = (s.patrolFind k (s.patrolAt k) e).gran
    ∧ Sparse.get 0 (s.patrolScrub k e).patrol k = if Sparse.get 0 s.patrol k + 1 = stackGranules then 0 else Sparse.get 0 s.patrol k + 1 := by
  have hfound := s.patrolFind_spec k (s.patrolAt k) e
  rw [State.patrolScrub_eq e hu hk hs]
  generalize s.patrolFind k (s.patrolAt k) e = f at hfound ⊢
  obtain ⟨hreg1, hmem1, hgran1, hpatrol1⟩ := f.noteOdecc_kept k e.status
  obtain ⟨hreg2, hmem2, hgran2, hpatrol2⟩ := (f.noteOdecc k e.status).patrolNext_spec k
  rw [hpatrol1, hfound.patrol] at hpatrol2
  exact ⟨fun a ho hp => (hreg2 a hp).trans (hreg1 a ho), (hmem2.trans hmem1).trans hfound.mem, hgran2.trans hgran1, hpatrol2⟩

theorem exec_patrolScrub {k : Nat} {e : Env} (hk : k < 20) : exec (.patrolScrub k e) s = .next (s.patrolScrub k e) :=
  if_pos (by simpa [Instr.wf] using hk)

/-! ### Recalibration (R458) -/

theorem State.endRecal_only (s : State) : RegsOnly (fun a => ∃ k, k < 20 ∧ a = A.hbmStatus k) s s.endRecal :=
  .foldl _ (fun s k hk => .ite (.setReg s _ ⟨k, List.mem_range.mp hk, rfl⟩) (.refl s)) s

/-- Ending recalibrations leaves whether a stack is trained (R458, R477). -/
theorem State.bit_endRecal (s : State) (a : Nat) : s.endRecal.bit a 0 = s.bit a 0 := by
  refine List.foldlRecOn (motive := fun t : State => t.bit a 0 = s.bit a 0) (List.range 20) _ rfl fun t ht k _ => ?_
  split
  · by_cases ha : a = A.hbmStatus k
    · rw [ha, State.bit_setB_ne _ _ _ (by decide), ← ha, ht]
    · exact (congrArg (fun w : Reg64 => w.toNat.testBit 0) (State.reg_setB_ne t 1 false ha)).trans ht
  · exact ht

theorem State.recalibrate_spec (e : Env) (hu : s.up = true) (ht : s.recalibrate e = t) :
    t.recal = (s.recal % 20 + 1) % 20
    ∧ (s.bit (A.hbmStatus (s.recal % 20)) 0 = true → t.bit (A.hbmStatus (s.recal % 20)) 1 = true)
    ∧ (∀ a, a ≠ hbmRfm (s.recal % 20) → (∀ k, k < 20 → a ≠ A.hbmStatus k) → t.reg a = s.reg a) ∧ SameMemory s t := by
  unfold State.recalibrate at ht
  rw [if_neg (by simp [hu])] at ht
  extract_lets k v at ht
  have hk : k < 20 := Nat.mod_lt _ (by decide)
  have hne : A.hbmStatus k ≠ hbmRfm k := by simp only [A.hbmStatus, hbmRfm, A.hbm]; omega
  have hv : RegsOnly (fun a => a = hbmRfm k ∨ ∃ k, k < 20 ∧ a = A.hbmStatus k) s v :=
    (s.endRecal_only.mono fun _ => .inr).trans (.bump _ _ (.inl rfl))
  have htrained : v.bit (A.hbmStatus k) 0 = s.bit (A.hbmStatus k) 0 :=
    (congrArg (fun w : Reg64 => w.toNat.testBit 0) (State.reg_bump_ne _ _ hne)).trans (s.bit_endRecal _)
  have hw : RegsOnly (fun a => a = hbmRfm k ∨ ∃ k, k < 20 ∧ a = A.hbmStatus k) s (if v.bit (A.hbmStatus k) 0 then v.setB (A.hbmStatus k) 1 true else v) :=
    .ite (hv.trans (.setReg v _ (.inr ⟨k, hk, rfl⟩))) hv
  subst ht
  refine ⟨rfl, fun h => ?_, fun a h1 h2 => hw.reg a ?_, hw.sameMemory⟩
  · show State.bit (if v.bit (A.hbmStatus k) 0 then v.setB (A.hbmStatus k) 1 true else v) (A.hbmStatus k) 1 = true
    rw [htrained, if_pos h]
    exact State.bit_setB_same _ _ _ (by decide)
  · rintro (h | ⟨k', hk', h⟩)
    · exact h1 h
    · exact h2 k' hk' h

theorem exec_hbmRecalibration {e : Env} (hi : s.portsIdle = true) : exec (.hbmRecalibration e) s = .next (s.recalibrate e) :=
  congrArg Host.Outcome.next (State.thenRetry_of_idle hi _)

/-! ### Analogue checks (R470) -/

/-- The sensors and references that disagree, as HLT_ABIST_STATUS shows them. -/
def analogueMask (temps vin vref : Nat) : Nat := temps % 32 * 2 ^ 34 + (if 10 < vref then 2 ^ 39 else 0) + (if 10 < vin then 2 ^ 40 else 0)

theorem analogueMask_bits (temps vin vref : Nat) :
    (∀ i, i < 5 → (analogueMask temps vin vref).testBit (34 + i) = temps.testBit i) ∧ (analogueMask temps vin vref).testBit 39 = decide (10 < vref)
    ∧ (analogueMask temps vin vref).testBit 40 = decide (10 < vin) ∧ ∀ i, i < 34 → (analogueMask temps vin vref).testBit i = false := by
  obtain ⟨n, hn, hlow, h5, h6⟩ : ∃ n, analogueMask temps vin vref = 2 ^ 34 * n ∧ n % 2 ^ 5 = temps % 2 ^ 5
      ∧ n.testBit 5 = decide (10 < vref) ∧ n.testBit 6 = decide (10 < vin) := by
    refine ⟨temps % 32 + (if 10 < vref then 32 else 0) + (if 10 < vin then 64 else 0), ?_, ?_, ?_, ?_⟩
    · unfold analogueMask; split <;> split <;> omega
    · split <;> split <;> omega
    · rw [Nat.testBit_eq_decide_div_mod_eq]; split <;> split <;> simp_all <;> omega
    · rw [Nat.testBit_eq_decide_div_mod_eq]; split <;> split <;> simp_all <;> omega
  rw [hn]
  refine ⟨fun i hi => ?_, ?_, ?_, fun i hi => ?_⟩
  · have hbit := congrArg (fun x => x.testBit i) hlow
    simp only [Nat.testBit_mod_two_pow, hi, decide_true, Bool.true_and] at hbit
    rw [Nat.testBit_two_pow_mul, hbit.symm]
    simp
  · rw [Nat.testBit_two_pow_mul, ← h5]
    rfl
  · rw [Nat.testBit_two_pow_mul, ← h6]
    rfl
  · rw [Nat.testBit_two_pow_mul]
    simp [hi]

theorem exec_analogueCheck {temps vin vref : Nat} (hu : s.up = true) :
    exec (.analogueCheck temps vin vref) s = .next (s.orReg A.abist (analogueMask temps vin vref)) :=
  congrArg Host.Outcome.next (if_neg (by simp [hu]))

/-! ### Reseeds (R407) -/

theorem exec_drbgReseed {healthy : Bool} (hr : s.rngOk = true) :
    exec (.drbgReseed healthy) s = .next (if healthy then { s with drbg := 0 } else (s.setB A.secStatus 2 false).send (.pldm 1 0)) :=
  congrArg Host.Outcome.next (if_pos hr)

/-! ### The SRAM scrub (R251, R457) -/

/-- Where the scrub of a bank stands: a line of its own region's memory, in the cluster's scratchpad or in the region buffer. -/
theorem State.scrubLineAt_place (s : State) {r k b : Nat} (hk : k < 9) (hb : b < 48) :
    ∃ n, s.scrubLineAt r k b = physWin + (r * 0x80000 + n) * 128 ∧ (if b < 32 then n < 0x48000 ∧ n / 0x8000 = k else 0x60000 ≤ n ∧ n < 0x80000) := by
  unfold State.scrubLineAt
  extract_lets m
  split
  · refine ⟨k * 0x8000 + (m % 1024 * 32 + b), ?_, ?_⟩
    · unfold spAddr
      omega
    · omega
  · refine ⟨0x60000 + (m % 8192 * 16 + (b - 32)), ?_, ?_⟩
    · unfold rbAddr
      omega
    · omega

/-- A word of the line lies in the bank's region. -/
theorem State.scrubLine_region (s : State) {r k b w : Nat} (hk : k < 9) (hb : b < 48) (hw : w / 128 = s.scrubLineAt r k b / 128) :
    (w - physWin) / 0x4000000 = r := by
  obtain ⟨n, hn, hplace⟩ := s.scrubLineAt_place (r := r) hk hb
  have hlt : n < 0x80000 := by split at hplace <;> omega
  rw [hn] at hw
  unfold physWin at *
  omega

/-- The line that one place of a region's own memory lies in. -/
theorem chipLines_one {a m : Nat} (h : (a - physWin) / 128 = m) :
    chipLines [.chip a] = (if m % 0x80000 < 0x48000 then some (m / 0x80000, m % 0x80000 / 0x8000, m % 0x80000 % 0x8000)
      else if 0x60000 ≤ m % 0x80000 then some (m / 0x80000, 9, m % 0x80000 - 0x60000) else none).toList := by
  unfold chipLines
  simp only [List.filterMap_cons, List.filterMap_nil, dedupNat, List.filter_nil, h]
  split_ifs <;> rfl

/-- The access that reads the line waits in its own cluster, or in its region. -/
theorem State.queueUntimed_scrub (s : State) {r k b : Nat} (id : Nat) (hk : k < 9) (hb : b < 48)
    (ht : s.queueUntimed scrubHome id [.chip (s.scrubLineAt r k b)] = t) :
    t.regs = s.regs ∧ t.scrubLine = s.scrubLine ∧ (t.cl r k).queues = (s.cl r k).queues ∧ ∀ r' k', otherCluster r k r' k' → t.cl r' k' = s.cl r' k' := by
  obtain ⟨n, hn, hplace⟩ := s.scrubLineAt_place (r := r) hk hb
  have hline : (s.scrubLineAt r k b - physWin) / 128 = r * 0x80000 + n := by
    rw [hn, Nat.add_sub_cancel_left, Nat.mul_div_cancel _ (by decide)]
  unfold State.queueUntimed at ht
  rw [chipLines_one hline] at ht
  split at hplace
  · have hunit : (r * 0x80000 + n) / 0x80000 = r ∧ (r * 0x80000 + n) % 0x80000 / 0x8000 = k := by omega
    rw [if_pos (by omega), hunit.1, hunit.2] at ht
    rw [Option.toList_some, List.foldl_cons, List.foldl_nil, if_neg (by dsimp only; omega)] at ht
    subst ht
    exact ⟨rfl, rfl, by rw [State.modCl_eq, State.cl_setCl_same], fun r' k' ho => State.cl_setCl_ne _ _ ho⟩
  · rw [if_neg (by omega), if_pos (by omega)] at ht
    rw [Option.toList_some, List.foldl_cons, List.foldl_nil, if_pos rfl] at ht
    subst ht
    exact ⟨rfl, rfl, rfl, fun _ _ _ => rfl⟩

/-- A corrected word of a chip memory counts in the region that holds it (R251). -/
def State.chipCe (s : State) (w : Nat) : State := (s.bump (A.spCe ((w - physWin) / 0x4000000)) 1).tallyCe 1

/-- The words of a list that lie in a line. -/
def wordsOf (line : Nat) (ws : List Nat) : List Nat := dedupNat (ws.filter fun w => w / 128 == line)

theorem mem_wordsOf {line w : Nat} {ws : List Nat} (h : w ∈ wordsOf line ws) : w / 128 = line := by
  simpa using (List.mem_filter.mp (mem_dedupNat.mp h)).2

theorem wordsOf_one {line w : Nat} (h : w / 128 = line) : wordsOf line [w] = [w] := by
  simp [wordsOf, h, dedupNat]

theorem wordsOf_none {line : Nat} {ws : List Nat} (h : ∀ w ∈ ws, w / 128 ≠ line) : wordsOf line ws = [] := by
  unfold wordsOf
  rw [List.filter_eq_nil_iff.mpr (by simpa using h)]
  rfl

/-- What a read of one line of a chip memory counts: the corrected words in it, then the others. -/
theorem State.noteChip_one (s : State) (e : Env) (a : Nat) :
    s.noteChip e [.chip a] = (wordsOf (a / 128) e.ue).foldl State.chipUe ((wordsOf (a / 128) e.ce).foldl State.chipCe s) := by
  have hline : chipLinesOf [.chip a] = [a / 128] := rfl
  have hin (w : Nat) : [a / 128].contains (w / 128) = (w / 128 == a / 128) := by simp [beq_eq_decide]
  unfold State.noteChip wordsOf
  simp only [hline, hin]
  rfl

section
variable {r : Nat} {l : List Nat} (hl : ∀ w ∈ l, (w - physWin) / 0x4000000 = r)
include hl

/-- Corrected words of a region count there alone. -/
theorem State.chipCes_only (s : State) : (∀ a, a ≠ A.spCe r → (l.foldl State.chipCe s).reg a = s.reg a) ∧ SameMemory s (l.foldl State.chipCe s) := by
  refine List.foldlRecOn (motive := fun t : State => (∀ a, a ≠ A.spCe r → t.reg a = s.reg a) ∧ SameMemory s t) l _ ⟨fun _ _ => rfl, .refl s⟩
    fun t ⟨hreg, hmem⟩ w hw => ⟨fun a ha => ?_, hmem.bump.trans (.of_eq rfl rfl rfl)⟩
  exact (State.reg_bump_ne t 1 (hl w hw ▸ ha)).trans (hreg a ha)

/-- Uncorrectable words of a region count there alone. -/
theorem State.chipUes_only (s : State) : ∀ a, a ≠ A.spUe r → (l.foldl State.chipUe s).reg a = s.reg a := by
  refine List.foldlRecOn (motive := fun t : State => ∀ a, a ≠ A.spUe r → t.reg a = s.reg a) l _ (fun _ _ => rfl) fun t hreg w hw a ha => ?_
  exact (State.reg_bump_ne t 1 (hl w hw ▸ ha)).trans (hreg a ha)

end

theorem DataStep.scrubLine (h : DataStep s t) : t.scrubLine = s.scrubLine := (congrArg State.scrubLine h.rest).trans rfl

theorem A.spCe_ne_spUe (r : Nat) : A.spCe r ≠ A.spUe r := by simp only [A.spCe, A.spUe, A.rtr]; omega

/-- What the read of a line in region `r` counts of its errors. -/
structure LineNoted (r line : Nat) (e : Env) (s t : State) : Prop where
  ce     : ∀ w, w / 128 = line → e.ce = [w] → t.reg (A.spCe r) = BitVec.ofNat 64 (satAdd 48 (s.regN (A.spCe r)) 1)
  ue     : ∀ w, w / 128 = line → e.ue = [w] → t.reg (A.spUe r) = BitVec.ofNat 64 (satAdd 48 (s.regN (A.spUe r)) 1)
  noCe   : (∀ w ∈ e.ce, w / 128 ≠ line) → t.reg (A.spCe r) = s.reg (A.spCe r)
  noUe   : (∀ w ∈ e.ue, w / 128 ≠ line) → t.reg (A.spUe r) = s.reg (A.spUe r) ∧ SameMemory s t

/-- What is counted in the region alone decides. -/
theorem LineNoted.congr {r line : Nat} {e : Env} {v : State} (h : LineNoted r line e u v) (hu : ∀ a, u.reg a = s.reg a) (hs : SameMemory s u)
    (hv : ∀ a, a = A.spCe r ∨ a = A.spUe r → t.reg a = v.reg a) (ht : SameMemory v t) : LineNoted r line e s t := by
  have hN (a : Nat) : s.regN a = u.regN a := congrArg BitVec.toNat (hu a).symm
  refine ⟨fun w hw he => ?_, fun w hw he => ?_, fun hn => ?_, fun hn => ?_⟩
  · rw [hv _ (.inl rfl), hN]; exact h.ce w hw he
  · rw [hv _ (.inr rfl), hN]; exact h.ue w hw he
  · rw [hv _ (.inl rfl), ← hu]; exact h.noCe hn
  · obtain ⟨hreg, hmem⟩ := h.noUe hn
    exact ⟨by rw [hv _ (.inr rfl), ← hu, hreg], (hs.trans hmem).trans ht⟩

theorem State.noteChip_line (s : State) (e : Env) {r a : Nat} (hr : ∀ w, w / 128 = a / 128 → (w - physWin) / 0x4000000 = r) :
    LineNoted r (a / 128) e s (s.noteChip e [.chip a]) ∧ ∀ b, b ≠ A.spCe r → b ≠ A.spUe r → (s.noteChip e [.chip a]).reg b = s.reg b := by
  have hne := A.spCe_ne_spUe r
  rw [State.noteChip_one]
  obtain ⟨hce, hmem⟩ := State.chipCes_only (l := wordsOf (a / 128) e.ce) (fun w hw => hr w (mem_wordsOf hw)) s
  have hue := State.chipUes_only (l := wordsOf (a / 128) e.ue) (fun w hw => hr w (mem_wordsOf hw)) ((wordsOf (a / 128) e.ce).foldl State.chipCe s)
  refine ⟨⟨fun w hw he => ?_, fun w hw he => ?_, fun hn => ?_, fun hn => ?_⟩, fun b h1 h2 => (hue b h2).trans (hce b h1)⟩
  · rw [hue _ hne, he, wordsOf_one hw, List.foldl_cons, List.foldl_nil, ← hr w hw]
    exact State.reg_bump_one s _
  · rw [he, wordsOf_one hw, List.foldl_cons, List.foldl_nil, ← hr w hw]
    refine (State.reg_bump_one _ _).trans ?_
    rw [State.regN, hr w hw, hce _ hne.symm]
    rfl
  · rw [hue _ hne, wordsOf_none hn]
    rfl
  · rw [wordsOf_none hn]
    exact ⟨hce _ hne.symm, hmem⟩

/-- The scrub of a bank goes on to its next line, and a pass that it completes is counted. -/
theorem State.sramScrub_eq {r k b : Nat} (e : Env) (hu : s.up = true) (hr : s.resetting r = false)
    (hb : 32 ≤ b ∨ s.isGated r k = false ∧ (s.cl r k).retired = false ∧ (s.cl r k).slices.running = none) {v : State}
    (hv : (s.queueUntimed scrubHome b [.chip (s.scrubLineAt r k b)]).noteChip e [.chip (s.scrubLineAt r k b)] = v) :
    ∃ n, s.sramScrub r k b e
      = State.bump { v with scrubLine := Sparse.set 0 v.scrubLine (scrubKey r k b) (Sparse.get 0 v.scrubLine (scrubKey r k b) + 1) } A.scrubPasses n := by
  subst hv
  unfold State.sramScrub
  refine ⟨_, if_neg ?_⟩
  have hgated : (s.cl r k).gated = s.isGated r k := rfl
  rcases hb with h | ⟨h1, h2, h3⟩
  · simp [hu, hr, h]
  · simp [hu, hr, hgated, h1, h2, h3]

theorem exec_sramScrubRead {r k b : Nat} {e : Env} (hr : r < 48) (hk : k < 9) (hb : b < 48) :
    exec (.sramScrubRead r k b e) s = .next (s.sramScrub r k b e) := if_pos (by simp [Instr.wf, hr, hk, hb])

theorem A.scrubPasses_ne (r : Nat) : A.spCe r ≠ A.scrubPasses ∧ A.spUe r ≠ A.scrubPasses := by
  simp only [A.spCe, A.spUe, A.rtr, A.scrubPasses, A.hlt]
  omega

theorem State.sramScrub_spec {r k b : Nat} (e : Env) (hk : k < 9) (hb : b < 48) (hu : s.up = true) (hr : s.resetting r = false)
    (hm : 32 ≤ b ∨ s.isGated r k = false ∧ (s.cl r k).retired = false ∧ (s.cl r k).slices.running = none) (ht : s.sramScrub r k b e = t) :
    LineNoted r (s.scrubLineAt r k b / 128) e s t
    ∧ Sparse.get 0 t.scrubLine (scrubKey r k b) = Sparse.get 0 s.scrubLine (scrubKey r k b) + 1
    ∧ (∀ a, a ≠ A.spCe r → a ≠ A.spUe r → a ≠ A.scrubPasses → t.reg a = s.reg a)
    ∧ (t.cl r k).queues = (s.cl r k).queues ∧ (∀ r' k', otherCluster r k r' k' → t.cl r' k' = s.cl r' k') := by
  obtain ⟨n, hn⟩ := State.sramScrub_eq e hu hr hm rfl
  have hmem := (s.queueUntimed_kept scrubHome b [.chip (s.scrubLineAt r k b)]).2
  obtain ⟨hregs, hline, hqueues, hother⟩ := State.queueUntimed_scrub (t := _) s (r := r) b hk hb rfl
  generalize s.queueUntimed scrubHome b [.chip (s.scrubLineAt r k b)] = u at hn hmem hregs hline hqueues hother
  have hreg (a : Nat) : u.reg a = s.reg a := congrArg (fun m => Sparse.get 0 m a) hregs
  obtain ⟨hnoted, hfar⟩ := u.noteChip_line e fun w => s.scrubLine_region (r := r) hk hb
  have hdata := u.noteChip_data e [.chip (s.scrubLineAt r k b)]
  generalize u.noteChip e [.chip (s.scrubLineAt r k b)] = v at hn hnoted hfar hdata
  have hcl (r' k' : Nat) : t.cl r' k' = u.cl r' k' := by
    rw [← ht, hn, State.cl_bump]
    exact hdata.cl r' k'
  have hlast (a : Nat) (ha : a ≠ A.scrubPasses) : t.reg a = v.reg a := by
    rw [← ht, hn, State.reg_bump_ne _ _ ha]
    rfl
  obtain ⟨hce, hue⟩ := A.scrubPasses_ne r
  refine ⟨hnoted.congr hreg hmem ?_ ?_, ?_, fun a h1 h2 h3 => ?_, ?_, fun r' k' ho => ?_⟩
  · rintro a (rfl | rfl)
    · exact hlast _ hce
    · exact hlast _ hue
  · rw [← ht, hn]
    exact (SameMemory.of_eq rfl rfl rfl).bump
  · rw [← ht, hn, State.bump_scrubLine, ← hline, ← hdata.scrubLine]
    exact Sparse.get_set_same ..
  · rw [hlast a h3, hfar a h1 h2, hreg]
  · rw [hcl, hqueues]
  · rw [hcl, hother r' k' ho]

/-- Settles O35, work by work: each changes the registers it counts in and its own place, the patrol the granule it visits besides. -/
theorem backgroundWork : Obligations.BackgroundWork := by
  refine fun s hu => ⟨fun k e g hk hs hg => ?_, fun r k b e line hr hk hb hreset hm hline => ?_, fun e hi => ?_, fun temps vin vref => ?_, fun healthy hr => ?_⟩
  · obtain ⟨hreg, hmem, hgran, hpatrol⟩ := State.patrolScrub_spec e hu hk hs
    have hfound := s.patrolFind_spec k g e
    rw [← hg] at hreg hgran
    have hat (a : Nat) : (s.patrolScrub k e).granAt a = (s.patrolFind k g e).granAt a := congrArg (fun m => Sparse.get Gran.clean m (granOf a)) hgran
    obtain ⟨hce, hue, hea⟩ : (A.hbmCe k ≠ A.hbmOdecc k ∧ A.hbmCe k ≠ A.hbmPasses k) ∧ (A.hbmUe k ≠ A.hbmOdecc k ∧ A.hbmUe k ≠ A.hbmPasses k)
        ∧ A.hbmErrAddr k ≠ A.hbmOdecc k ∧ A.hbmErrAddr k ≠ A.hbmPasses k := by
      simp only [A.hbmCe, A.hbmUe, A.hbmErrAddr, A.hbmOdecc, A.hbmPasses, A.hbm]
      omega
    refine ⟨_, exec_patrolScrub hk, fun a => by rw [hmem], fun hb => ?_, fun hb => ?_, fun hc => ?_, fun a ha => ?_, hpatrol⟩
    · rw [hat, hreg _ hue.1 hue.2, hreg _ hea.1 hea.2]
      exact hfound.bad hb
    · rw [hgran, hreg _ hue.1 hue.2]
      exact hfound.good hb
    · rw [hreg _ hce.1 hce.2]
      exact hfound.ce hc
    · rw [hat]
      exact hfound.other a ha
  · obtain ⟨hnoted, hnext, hregs, hqueues, hother⟩ := State.sramScrub_spec e hk hb hu hreset hm rfl
    rw [← hline] at hnoted
    exact ⟨_, exec_sramScrubRead hr hk hb, hnoted.ce, hnoted.ue, hnoted.noCe, hnoted.noUe, hnext, hregs, hqueues, hother⟩
  · exact ⟨_, exec_hbmRecalibration hi, State.recalibrate_spec e hu rfl⟩
  · obtain ⟨htemps, hvref, hvin, hlow⟩ := analogueMask_bits temps vin vref
    refine ⟨_, exec_analogueCheck hu, fun i hi => ?_, ?_, ?_, fun i hi => ?_, fun a ha => State.reg_setReg_ne _ _ ha, .of_eq rfl rfl rfl⟩
    · rw [State.bit_orReg _ _ _ (by omega), htemps i hi]
    · rw [State.bit_orReg _ _ _ (by decide), hvref]
    · rw [State.bit_orReg _ _ _ (by decide), hvin]
    · rw [State.bit_orReg _ _ _ (by omega), hlow i hi, Bool.or_false]
  · refine ⟨_, exec_drbgReseed hr, ?_⟩
    cases healthy with
    | true => exact ⟨fun _ => ⟨rfl, hr⟩, nofun, fun _ _ => rfl, .of_eq rfl rfl rfl⟩
    | false =>
      refine ⟨nofun, fun _ => ⟨State.bit_setB_same _ _ _ (by decide), List.mem_cons_self⟩, fun a ha => State.reg_setB_ne s _ _ ha, .of_eq rfl rfl rfl⟩

end Sys2Proof.Machine
end

section
/-!
SUPPORT. Counters that take increments (R285 to R287, R290, R292): which counter changes, and what SYNC_SAT counts.
-/
namespace Sys2Proof.Machine

/-! ### One counter (R286) -/

theorem Ctr.add_eq (c : Ctr) (n : Nat) : c.add n = (⟨min (c.count + n) ctrMax, c.matched⟩, decide (ctrMax < c.count + n)) := by
  unfold Ctr.add
  split
  · next h => rw [Nat.min_eq_right h.le, decide_eq_true h]
  · next h => rw [Nat.min_eq_left (Nat.le_of_not_lt h), decide_eq_false h]

/-- From the counters `f` to `g` one has taken `n` more, up to the top; its MATCHED and every other counter stand. -/
structure Incremented (i n : Nat) (f g : Nat → Ctr) : Prop where
  count   : (g i).count = min ((f i).count + n) ctrMax
  matched : (g i).matched = (f i).matched
  others  : ∀ j, j ≠ i → g j = f j

theorem incremented_set (m : Sparse Ctr) (i n : Nat) :
    Incremented i n (Sparse.get Ctr.zero m) (Sparse.get Ctr.zero (Sparse.set Ctr.zero m i ((Sparse.get Ctr.zero m i).add n).1)) where
  count := by rw [Sparse.get_set_same, Ctr.add_eq]
  matched := by rw [Sparse.get_set_same, Ctr.add_eq]
  others j hj := Sparse.get_set_ne _ _ _ _ _ hj

/-! ### SYNC_SAT (R286) -/

/-- From `s` to `t` SYNC_SAT of a region counts a saturation where there is one, and every other register and memory stand. -/
structure Saturated (r : Nat) (sat : Prop) [Decidable sat] (s t : State) : Prop where
  counted : t.reg (A.syncSat r) = if sat then BitVec.ofNat 64 (satAdd 48 (s.regN (A.syncSat r)) 1) else s.reg (A.syncSat r)
  reg     : ∀ a, a ≠ A.syncSat r → t.reg a = s.reg a
  kept    : SameMemory s t

theorem saturated_bump {s u : State} (r c n : Nat) (hu : ∀ a, u.reg a = s.reg a) (hm : SameMemory s u) :
    Saturated r (ctrMax < c + n) s (u.bump (A.syncSat r) (if decide (ctrMax < c + n) then 1 else 0)) where
  counted := by
    rw [State.reg_bump, State.regN, State.regN, hu]
    by_cases h : ctrMax < c + n
    · simp [h]
    · simp [h]
  reg a ha := (u.reg_bump_ne _ ha).trans (hu a)
  kept := hm.bump

variable {s : State} {r k q : Nat} {c : Cmd512} {aux : List Nat}

/-! ### A region's node counters (R287, R292) -/

theorem State.incNode_saturated (s : State) (r i n bound : Nat) :
    Saturated r (ctrMax < ((s.rg r).ctr i).count + n) s (s.incNode r i n bound) := by
  unfold State.incNode
  dsimp only
  rw [Ctr.add_eq]
  exact saturated_bump r _ n (fun _ => rfl) (.of_eq rfl rfl rfl)

theorem State.incNode_incremented (s : State) (r i n bound : Nat) : Incremented i n (s.rg r).ctr ((s.incNode r i n bound).rg r).ctr := by
  rw [State.incNode, State.rg_bump, State.rg_setRg_same]
  exact incremented_set (s.rg r).cnt i n

theorem State.rg_incNode_ne (s : State) {r r' : Nat} (i n bound : Nat) (h : r' ≠ r) : (s.incNode r i n bound).rg r' = s.rg r' :=
  (s.incNode_frame r 0 i n bound).region r' h

theorem State.cl_incNode (s : State) (r i n bound r' k' : Nat) : (s.incNode r i n bound).cl r' k' = s.cl r' k' := State.cl_bump ..

/-! ### A cluster's own counters (R285) -/

theorem State.incOwn_saturated (s : State) (r k i n : Nat) :
    Saturated r (ctrMax < ((s.cl r k).ctr i).count + n) s (s.incOwn r k i n) := by
  unfold State.incOwn
  dsimp only
  rw [Ctr.add_eq]
  exact saturated_bump r _ n (fun _ => rfl) (.of_eq rfl rfl rfl)

theorem State.incOwn_incremented (s : State) (r k i n : Nat) : Incremented i n (s.cl r k).ctr ((s.incOwn r k i n).cl r k).ctr := by
  rw [State.incOwn, State.cl_bump, State.modRg_eq, State.cl_setRg, State.cl_setCl_same]
  exact incremented_set (s.cl r k).cnt i n

/-- From `s` to `t` MATCHED of a cluster's own counter is `n` where that is larger; COUNT, the rest of the cluster but its counters, other
clusters and memory stand. -/
structure Raised (r k i n : Nat) (s t : State) : Prop where
  count   : ((t.cl r k).ctr i).count = ((s.cl r k).ctr i).count
  matched : ((t.cl r k).ctr i).matched = max ((s.cl r k).ctr i).matched n
  cluster : ∃ cnt, t.cl r k = { s.cl r k with cnt := cnt }
  other   : ∀ r' k', otherCluster r k r' k' → t.cl r' k' = s.cl r' k'
  kept    : SameMemory s t

theorem State.raiseMatched_raised (s : State) (r k i n : Nat) : Raised r k i n s (s.raiseMatched r k true i n) := by
  have hcl : (s.raiseMatched r k true i n).cl r k = { s.cl r k with
      cnt := Sparse.set Ctr.zero (s.cl r k).cnt i { (s.cl r k).ctr i with matched := max ((s.cl r k).ctr i).matched n } } := State.cl_setCl_same ..
  have hctr : ((s.raiseMatched r k true i n).cl r k).ctr i = { (s.cl r k).ctr i with matched := max ((s.cl r k).ctr i).matched n } := by
    rw [hcl]
    exact Sparse.get_set_same ..
  exact ⟨by rw [hctr], by rw [hctr], ⟨_, hcl⟩, fun _ _ ho => s.cl_setCl_ne _ ho, .of_eq rfl rfl rfl⟩

/-- R290: a satisfied wait raises MATCHED, and passes. -/
theorem State.waitIssue_raises {i : Nat} (hf : s.flagRef r (waitFlag c) = .own i) :
    ∃ t, Raised r k i (waitThresh c) s t ∧ s.waitIssue r k q c = t.passCmd r k q c := by
  unfold State.waitIssue
  dsimp only
  rw [hf]
  split
  · next h => exact ⟨s, ⟨rfl, by rw [h, Nat.max_zero], ⟨_, rfl⟩, fun _ _ _ => rfl, .refl s⟩, rfl⟩
  · exact ⟨_, s.raiseMatched_raised r k i _, rfl⟩

/-! ### The rows (R104, R106) -/

theorem State.actOn_signal (hv : s.verdict r k q c = .go aux) (ho : Hdr.opcode c = 3) :
    s.actOn r k q c = (s.incFlag r k (sigFlag c) (sigInc c)).passCmd r k q c := by
  simp only [State.actOn, hv, ho]

theorem State.actOn_wait (hv : s.verdict r k q c = .go aux) (ho : Hdr.opcode c = 2) :
    s.actOn r k q c = if s.waitMet r k c then s.waitIssue r k q c
      else s.setCl r k ((s.cl r k).setQ q { (s.cl r k).queue q with st := .waiting }) := by
  simp only [State.actOn, hv, ho, State.modCl_eq]

theorem State.incFlag_own {v i n : Nat} (h : s.flagRef r v = .own i) : s.incFlag r k v n = s.incOwn r k i n := by
  simp only [State.incFlag, h]

theorem State.waitMet_own {i : Nat} (h : s.flagRef r (waitFlag c) = .own i) :
    s.waitMet r k c = (waitThresh c ≤ s.visible r k true i : Bool) := by
  simp only [State.waitMet, State.flagSeen, h]

/-- R109: without a done-flag a command that passes increments no counter. -/
theorem State.cnt_passCmd_off (s : State) (r k q : Nat) (h : Hdr.doneEn c = false) : ((s.passCmd r k q c).cl r k).cnt = (s.cl r k).cnt := by
  rw [State.passCmd, State.doneFlag_off h, State.advance, State.modCl_eq, State.cl_setCl_same, State.retire, State.cl_bump]
  rfl

theorem State.ctr_passCmd_off (s : State) (r k q : Nat) (h : Hdr.doneEn c = false) : ((s.passCmd r k q c).cl r k).ctr = (s.cl r k).ctr :=
  congrArg (Sparse.get Ctr.zero) (s.cnt_passCmd_off r k q h)

theorem exec_signal {i : Nat} (hdue : Due s r k q c) (hw : Instr.wf (.signal r k q) = true) (hv : s.verdict r k q c = .go aux)
    (ho : Hdr.opcode c = 3) (hf : s.flagRef r (sigFlag c) = .own i) :
    exec (.signal r k q) s = .next ((s.incOwn r k i (sigInc c)).passCmd r k q c) := by
  rw [hdue.exec_op rfl hw ho, State.actOn_signal hv ho, State.incFlag_own hf]

/-- Settles O7: either command comes to a change of its own counter and `passCmd`, or to a change of its queue's state. -/
theorem signalsAndWaits : Obligations.SignalsAndWaits := by
  constructor
  · intro s r k q c aux i hw hdue hv ho hoff hf
    have hq : q < 4 := hdue.1
    have hinc := s.incOwn_incremented r k i (sigInc c)
    have hsat := s.incOwn_saturated r k i (sigInc c)
    have hframe := s.incOwn_frame r k i (sigInc c)
    obtain ⟨hreg, -⟩ := State.passCmd_off (s := s.incOwn r k i (sigInc c)) (r := r) (k := k) (q := q) hoff
    obtain ⟨-, -, hother, hkept⟩ := (s.incOwn r k i (sigInc c)).passCmd_retired r k c hq
    refine ⟨_, exec_signal hdue hw hv ho hf, ?_, ?_, ?_, ?_, ?_, fun a ha hne => ?_, fun r' k' h => ?_, hsat.kept.trans hkept⟩
    · rw [State.ctr_passCmd_off _ r k q hoff, hinc.count]
    · rw [State.ctr_passCmd_off _ r k q hoff, hinc.matched]
    · rw [State.ctr_passCmd_off _ r k q hoff]
      exact hinc.others
    · rw [hreg _ (A.qRetired_ne r k q).1.symm, hsat.counted]
    · rw [State.queue_passCmd _ r k c hq, State.queue, Cluster.queue, hframe.queues]
      rfl
    · rw [hreg a ha, hsat.reg a hne]
    · rw [hother r' k' h, hframe.other r' k' h]
  · intro s r k q c aux i hw hdue hv ho hoff hf
    have hq : q < 4 := hdue.1
    have hexec := hdue.exec_op (i := .wait r k q) rfl hw ho
    rw [State.actOn_wait hv ho, State.waitMet_own hf] at hexec
    by_cases hmet : waitThresh c ≤ s.visible r k true i
    · obtain ⟨t, hraised, ht⟩ := State.waitIssue_raises (k := k) (q := q) hf
      rw [if_pos (decide_eq_true hmet), ht] at hexec
      obtain ⟨-, -, hother, hkept⟩ := t.passCmd_retired r k c hq
      obtain ⟨cnt, hcl⟩ := hraised.cluster
      refine ⟨_, hexec, fun _ => ⟨?_, ?_⟩, fun hlt => absurd hmet (Nat.not_le_of_lt hlt), ?_, fun r' k' h => ?_, hraised.kept.trans hkept⟩
      · rw [t.queue_passCmd r k c hq, State.queue, hcl]
        rfl
      · rw [State.ctr_passCmd_off _ r k q hoff, hraised.matched]
      · rw [State.ctr_passCmd_off _ r k q hoff, hraised.count]
      · rw [hother r' k' h, hraised.other r' k' h]
    · rw [if_neg (by simpa using hmet)] at hexec
      have hqueue := s.queue_setQ_same r k { (s.cl r k).queue q with st := .waiting } hq
      refine ⟨_, hexec, fun h => absurd h hmet, fun _ => ⟨by rw [hqueue], by rw [hqueue]; rfl, by rw [State.cl_setCl_same]; rfl⟩,
        by rw [State.cl_setCl_same]; rfl, fun _ _ h => s.cl_setCl_ne _ h, .of_eq rfl rfl rfl⟩

end Sys2Proof.Machine
end

section
/-!
SUPPORT. Arrivals at barrier nodes and releases at region nodes (R295, R297, R298, R301).
-/
namespace Sys2Proof.Machine

variable {s : State} {r k q : Nat} {c : Cmd512} {aux : List Nat} {n : Node} {f : BarF} {e : BarEntry}

/-! ### One arrival (R298, R301) -/

/-- The first arrival of a use of an ID sets its fields at the node. -/
theorem State.arriveAt_first (r beat stamp : Nat) (froms : List Nat) (h : s.bars.find? (s.counting n f.bid) = none) :
    s.arriveAt r n f beat stamp froms = { s with bars := s.bars ++ [⟨n, f, 1, 0, beat, false, froms, stamp⟩] } := by
  simp only [State.arriveAt, h]

/-- From `s` to `t` a node holds an arrival for an ID, and what other nodes hold, the releases and memory stand. -/
structure Arrives (n : Node) (bid : Nat) (s t : State) : Prop where
  held   : ∃ x ∈ t.bars, x.node = n ∧ x.f.bid = bid ∧ 1 ≤ x.count + x.extra
  others : ∀ x ∈ s.bars, x.node ≠ n → x ∈ t.bars
  rels   : t.rels = s.rels
  kept   : SameMemory s t

theorem Arrives.bump {bid a m : Nat} {t : State} (h : Arrives n bid s t) : Arrives n bid s (t.bump a m) where
  held := by rw [State.bump_bars]; exact h.held
  others := by rw [State.bump_bars]; exact h.others
  rels := by rw [State.bump_rels, h.rels]
  kept := h.kept.bump

theorem State.node_of_counting {bid : Nat} (h : s.counting n bid e = true) : e.node = n ∧ e.f.bid = bid := by
  simp only [State.counting, Bool.and_eq_true, beq_iff_eq] at h
  exact h.1.1

/-- An entry that counts the next arrival takes the place of the one that the node held. -/
theorem arrives_replaced {bid : Nat} {x y : BarEntry} (hx : x ∈ s.bars) (hc : s.counting n bid x = true) (hy : y.node = x.node ∧ y.f = x.f)
    (hcount : 1 ≤ y.count + y.extra) : Arrives n bid s { s with bars := s.bars.map fun z => if s.counting n bid z then y else z } where
  held := by
    obtain ⟨hnode, hbid⟩ := State.node_of_counting hc
    exact ⟨y, List.mem_map.mpr ⟨x, hx, if_pos hc⟩, hy.1.trans hnode, (congrArg BarF.bid hy.2).trans hbid, hcount⟩
  others z hz hne := List.mem_map.mpr ⟨z, hz, if_neg fun h => hne (State.node_of_counting h).1⟩
  rels := rfl
  kept := .of_eq rfl rfl rfl

theorem State.arriveAt_arrives (s : State) (r : Nat) (n : Node) (f : BarF) (beat stamp : Nat) (froms : List Nat) :
    Arrives n f.bid s (s.arriveAt r n f beat stamp froms) := by
  cases hfind : s.bars.find? (s.counting n f.bid) with
  | none =>
    rw [State.arriveAt_first r beat stamp froms hfind]
    exact ⟨⟨_, List.mem_append_right _ (List.mem_singleton_self _), rfl, rfl, by simp⟩, fun x hx _ => List.mem_append_left _ hx, rfl, .of_eq rfl rfl rfl⟩
  | some x =>
    have hx := List.mem_of_find?_eq_some hfind
    have hc : s.counting n f.bid x = true := List.find?_some hfind
    unfold State.arriveAt
    rw [hfind]
    dsimp only
    by_cases hf : (x.f == f) = true
    · simp only [if_pos hf]
      exact arrives_replaced hx hc ⟨rfl, rfl⟩ (Nat.le_add_right_of_le (Nat.le_add_left 1 x.count))
    · simp only [if_neg hf]
      exact (arrives_replaced (y := { x with extra := x.extra + 1 }) hx hc ⟨rfl, rfl⟩ (Nat.le_add_left 1 (x.count + x.extra))).bump

theorem State.arriveUp_arrives (s : State) (n : Node) (f : BarF) (stamp : Nat) (froms : List Nat) :
    Arrives n f.bid s (s.arriveUp n f stamp froms) := s.arriveAt_arrives ..

/-! ### BARRIER (R297, R298) -/

theorem State.actOn_barrier (hv : s.verdict r k q c = .go aux) (ho : Hdr.opcode c = 4) :
    s.actOn r k q c = (s.arriveAt r (.cluster r k) (barFields c) (s.cl r k).beat s.ticks []).modCl r k fun x =>
      x.setQ q { x.queue q with st := .waiting, arrived := true } := by
  simp only [State.actOn, hv, ho]

/-- Settles O8: the node counts no use of the ID, so the arrival begins one; the rest is a change of the queue's state. -/
theorem barrierArrives : Obligations.BarrierArrives := by
  intro s r k q c aux hw hdue hv ho hnone
  have hq : q < 4 := hdue.1
  have hfirst : s.bars.find? (s.counting (.cluster r k) (barFields c).bid) = none :=
    List.find?_eq_none.mpr fun e he hc => hnone e he (State.node_of_counting hc)
  have hexec := hdue.exec_op (i := .barrier r k q) rfl hw ho
  rw [State.actOn_barrier hv ho, State.arriveAt_first _ _ _ _ hfirst, State.modCl_eq] at hexec
  have hqueue := State.queue_setQ_same { s with bars := s.bars ++ [⟨.cluster r k, barFields c, 1, 0, (s.cl r k).beat, false, [], s.ticks⟩] } r k
    { (s.cl r k).queue q with st := .waiting, arrived := true } hq
  refine ⟨_, hexec, ⟨_, rfl, rfl, rfl, rfl, rfl, rfl⟩, congrArg Queue.st hqueue, congrArg Queue.arrived hqueue, (congrArg Queue.pos hqueue).trans rfl,
    fun _ => rfl, fun q' h4 hne => ?_, fun r' k' ho => State.cl_setCl_ne _ _ ho, .of_eq rfl rfl rfl⟩
  rw [State.queue, State.cl_setCl_same, Cluster.queue_setQ _ _ _ _ h4, if_neg hne]
  rfl

/-! ### Arrivals that go up (R298) -/

theorem State.nodeArrival_root {i : Nat} (h : (s.bars.filter s.barComplete)[i]? = some e) (hn : ∀ r k, e.node ≠ .cluster r k)
    (hr : s.isRoot e = true) : s.nodeArrival i = (s.markSent e).pushRel e.node e.f (s.nodeCtx e.node) e.stamp := by
  unfold State.nodeArrival
  rw [h]
  dsimp only
  split
  · next hnode => exact absurd hnode (hn _ _)
  · exact if_pos hr

theorem State.nodeArrival_region {i : Nat} (h : (s.bars.filter s.barComplete)[i]? = some e) (hn : e.node = .region r) (hf : 2 ≤ e.f.scope) :
    s.nodeArrival i = (s.markSent e).arriveUp (.die (dieOf r) (s.nodeCtx e.node)) e.f e.stamp [] := by
  have hroot : s.isRoot e = false := by
    simp only [State.isRoot, hn, Node.isTop, beq_eq_false_iff_ne]
    omega
  unfold State.nodeArrival
  rw [h]
  dsimp only
  rw [hn]
  dsimp only
  rw [if_neg (by rw [hroot]; exact Bool.false_ne_true), State.sendUp, hn]

theorem exec_barrierNodeArrival (hu : s.up = true) (i : Nat) : exec (.barrierNodeArrival i) s = .next (s.nodeArrival i) :=
  congrArg Host.Outcome.next (if_pos hu)

/-! ### Releases that go down (R295, R298) -/

theorem foldl_pushRel (f : BarF) (c stamp : Nat) (l : List Node) (s : State) :
    l.foldl (fun s n => s.pushRel n f c stamp) s = { s with rels := s.rels ++ l.map fun n => ⟨n, f, c, stamp⟩ } := by
  induction l generalizing s with
  | nil => simp
  | cons n l ih => rw [List.foldl_cons, ih]; simp [State.pushRel]

/-- What a region's node does before a release leaves it: with REALIGN it realigns its counters. -/
def State.realigned (s : State) (r : Nat) (f : BarF) : State := if f.realign then s.realignNode r (2 ≤ f.scope) else s

/-- R298: a release that reaches a region's node goes on to each of its clusters. -/
theorem State.passRelease_region {u : State} {x : Rel} (h : x.node = .region r)
    (hu : ({ s with rels := s.rels.erase x } : State).realigned r x.f = u) :
    s.passRelease x = { u.dropEntry x.node x.f with
      rels := u.rels ++ (List.range (u.nClusters r)).map fun l => ⟨.cluster r (u.physOf r l), x.f, x.ctx, x.stamp⟩ } := by
  subst hu
  unfold State.passRelease
  rw [h]
  exact (foldl_pushRel ..).trans (by rw [List.map_map]; rfl)

theorem A.epoch_ne_step (r : Nat) : A.epoch r ≠ A.step r := by
  simp only [A.epoch, A.step, A.rsync, A.rtr]
  omega

/-- R295: a realignment writes SYNC_EPOCH, SYNC_STEP and its region. -/
theorem State.realigned_spec (s : State) (r : Nat) (f : BarF) :
    (s.realigned r f).regN (A.epoch r) = (if f.realign then (s.regN (A.epoch r) + 1) % 2 ^ 32 else s.regN (A.epoch r))
    ∧ (∀ a, a ≠ A.epoch r → a ≠ A.step r → (s.realigned r f).reg a = s.reg a)
    ∧ SameMemory s (s.realigned r f) := by
  unfold State.realigned
  split
  · unfold State.realignNode
    extract_lets g mode s1 s2
    have hepoch : s2.regN (A.epoch r) = (s.regN (A.epoch r) + 1) % 2 ^ 32 := by
      rw [State.regN_setReg_same]
      exact Nat.mod_eq_of_lt ((Nat.mod_lt _ (by decide)).trans (by decide))
    have hreg {a : Nat} (ha : a ≠ A.epoch r) : s2.reg a = s.reg a := s1.reg_setReg_ne _ ha
    split
    · exact ⟨(congrArg BitVec.toNat (s2.reg_setReg_ne _ (A.epoch_ne_step r))).trans hepoch,
        fun a ha hs => (s2.reg_setReg_ne _ hs).trans (hreg ha), .of_eq rfl rfl rfl⟩
    · exact ⟨hepoch, fun a ha _ => hreg ha, .of_eq rfl rfl rfl⟩
  · exact ⟨rfl, fun _ _ _ => rfl, .refl s⟩

theorem State.regionShape_realigned (s : State) (f : BarF) (hr : r < 48) :
    (s.realigned r f).reg (A.regionShape r) = s.reg (A.regionShape r) := by
  obtain ⟨-, hreg, -⟩ := s.realigned_spec r f
  have hlt := A.regionShape_lt hr
  exact hreg _ (by simp only [A.epoch, A.rsync, A.rtr]; omega) (by simp only [A.step, A.rsync, A.rtr]; omega)

theorem State.nClusters_congr {t : State} (h : t.reg (A.regionShape r) = s.reg (A.regionShape r)) : t.nClusters r = s.nClusters r :=
  congrArg (regField · 0 4) h

theorem State.physOf_congr {t : State} (h : t.reg (A.regionShape r) = s.reg (A.regionShape r)) (l : Nat) : t.physOf r l = s.physOf r l := by
  unfold State.physOf State.bit State.fieldN
  rw [State.nClusters_congr h, h]

theorem exec_barrierRelease {i : Nat} {x : Rel} (hu : s.up = true) (h : s.rels[i]? = some x) :
    exec (.barrierRelease i) s = .next (s.passRelease x) := by
  have hpass : s.barrierRelease i = s.passRelease x := by
    unfold State.barrierRelease
    rw [h]
  exact congrArg Host.Outcome.next ((if_pos hu).trans hpass)

/-- Settles O19: a complete node begins a release or arrives at its die; a release at a region realigns, forgets and goes on down. -/
theorem barriersReleaseRegions : Obligations.BarriersReleaseRegions := by
  refine ⟨fun s i e hu he => ⟨fun r c htop => ?_, fun r hnode hscope => ?_⟩, fun s i r x hu hx hnode hr => ?_⟩
  · have hroot : (∀ r k, e.node ≠ .cluster r k) ∧ s.isRoot e = true := by
      rcases htop with ⟨hn, hf⟩ | ⟨hn, hf⟩
      · simp [hn, State.isRoot, Node.isTop, hf]
      · simp [hn, State.isRoot, Node.isTop, hf]
    exact ⟨_, (exec_barrierNodeArrival hu i).trans (congrArg _ (State.nodeArrival_root he hroot.1 hroot.2)), rfl, rfl, fun _ => rfl, .of_eq rfl rfl rfl⟩
  · have hmem : e ∈ s.bars := List.mem_of_mem_filter (List.mem_of_getElem? he)
    have hmark : { e with sent := true } ∈ (s.markSent e).bars := List.mem_map.mpr ⟨e, hmem, if_pos (beq_self_eq_true e)⟩
    have hup := (s.markSent e).arriveUp_arrives (.die (dieOf r) (s.nodeCtx e.node)) e.f e.stamp []
    exact ⟨_, (exec_barrierNodeArrival hu i).trans (congrArg _ (State.nodeArrival_region he hnode hscope)), hup.held,
      hup.others _ hmark (by simp [hnode]), hup.rels, .trans (.of_eq rfl rfl rfl) hup.kept⟩
  · obtain ⟨hepoch, -, hkept⟩ := State.realigned_spec { s with rels := s.rels.erase x } r x.f
    have hshape := State.regionShape_realigned { s with rels := s.rels.erase x } x.f hr
    refine ⟨_, (exec_barrierRelease hu hx).trans (congrArg _ (State.passRelease_region hnode rfl)), fun e he hgone => ?_, fun l hl => ?_, hepoch, hkept⟩
    · obtain ⟨-, hstays⟩ := List.mem_filter.mp he
      simp [hgone, hnode] at hstays
    · refine List.mem_append_right _ (List.mem_map.mpr ⟨l, List.mem_range.mpr (hl.trans_eq (State.nClusters_congr hshape).symm), ?_⟩)
      rw [State.physOf_congr hshape]
      rfl

end Sys2Proof.Machine
end

section
/-!
SUPPORT. FLAG_INC, armature packets and key exchange packets that pass the checks (R287, R292, R299, R324, R417).
-/
namespace Sys2Proof.Machine

variable {s s1 : State} {x : Pkt} {c : Nat}

/-! ### Flags and barriers (R287, R299) -/

theorem exec_flagInc (ha : Accepts s 7 x s1) : exec (.flagInc x) s = .next (s1.flagIncReq x) :=
  (if_pos ha.1).trans (congrArg Host.Outcome.next (ha.receive _))

theorem exec_barArrive (ha : Accepts s 8 x s1) : exec (.barArrive x) s = .next (s1.barArrive x) :=
  (if_pos ha.1).trans (congrArg Host.Outcome.next (ha.receive _))

theorem exec_barRelease (ha : Accepts s 9 x s1) : exec (.barRelease x) s = .next (s1.barRelease x) :=
  (if_pos ha.1).trans (congrArg Host.Outcome.next (ha.receive _))

theorem State.flagIncReq_eq {g : Nat} (hc : s.ctxOfJob x.job = some c) (hg : s.logRegion c (field x.aux 9 6) = some g) :
    s.flagIncReq x = s.incNode g (field x.aux 0 9) (field x.addr 0 24) (1320 + 770 * x.hops) := by
  simp only [State.flagIncReq, hc, hg]

theorem State.barArrive_first (hc : s.ctxOfJob x.job = some c) (hf : s.bars.find? (s.counting (.fabric c) (barOf x).bid) = none) :
    s.barArrive x = { s with bars := s.bars ++ [⟨.fabric c, barOf x, 1, 0, 0, false, [x.src], s.ticks⟩] } := by
  simp only [State.barArrive, hc]
  exact State.arriveAt_first _ _ _ _ hf

/-- R299: the release of a use whose arrival has gone up, and that is not on its way down already. -/
theorem State.barRelease_eq {y : BarEntry} (hc : s.ctxOfJob x.job = some c)
    (hy : (s.bars.find? fun z => z.node == .fabric c && z.f == barOf x && z.sent) = some y) (hb : s.brokenNode (.fabric c) (barOf x).bid = false)
    (hr : ∀ z ∈ s.rels, ¬(z.node = .fabric c ∧ z.f = barOf x)) :
    s.barRelease x = s.pushRel (.fabric c) (barOf x) c (max y.stamp s.ticks) := by
  have hfound := List.find?_some hy
  simp only [Bool.and_eq_true, beq_iff_eq] at hfound
  obtain ⟨⟨hnode, hfields⟩, -⟩ := hfound
  have hnone : (s.rels.any fun z => z.node == .fabric c && z.f == barOf x) = false := by simpa using hr
  simp only [State.barRelease, hc, hy, hnode, hfields, hb, hnone, Bool.or_false, if_neg Bool.false_ne_true]

/-! ### Key exchange (R417) -/

theorem exec_kexHello (ha : Accepts s 0x20 x s1) (hi : s.portsIdle = true) (chainOk : Bool) :
    exec (.kexHello x chainOk) s = .next (s1.kexHello x chainOk) :=
  (if_pos ha.1).trans (congrArg Host.Outcome.next ((State.thenRetry_of_idle hi _).trans (ha.receive _)))

theorem exec_kexReply (ha : Accepts s 0x21 x s1) (hi : s.portsIdle = true) (chainOk : Bool) :
    exec (.kexReply x chainOk) s = .next (s1.kexReply x chainOk) :=
  (if_pos ha.1).trans (congrArg Host.Outcome.next ((State.thenRetry_of_idle hi _).trans (ha.receive _)))

theorem State.session_openSession (s : State) (peer sendKey recvKey : Nat) :
    (s.openSession peer sendKey recvKey).session peer = some ⟨peer, sendKey, recvKey, 0, 0, []⟩ := by
  have hgone : (s.sessions.filter fun y => y.peer != peer).find? (fun y => y.peer == peer) = none :=
    List.find?_eq_none.mpr fun y hy => by simpa using (List.mem_filter.mp hy).2
  unfold State.openSession State.session State.dropSession
  rw [List.find?_append, hgone]
  simp

/-- R414, R417: the packets of a key exchange leave unsealed. -/
theorem State.sessions_sendPkt (s : State) (h : 0x20 ≤ x.ptype) : (s.sendPkt x).sessions = s.sessions := by
  have hplain : (s.dataProt && (x.ptype < 0x20 : Bool)) = false := by simp [h]
  unfold State.sendPkt
  split
  · rfl
  · split
    · rfl
    · next p _ =>
      dsimp only
      rw [hplain]
      have hlink (key : Option Nat) (y : Pkt) : LinkStep p s (s.egressPkt p key y) := (s.setLink_step p _).trans (State.pump_step _ _)
      exact (congrArg State.sessions (hlink ..).rest).trans rfl

/-- The responder of the higher number opens the session that it answers for. -/
theorem State.kexHello_opens (ha : s.activating = false) (hn : x.src < s.modNum) (hr : s.rngOk = true) :
    ((s.kexHello x true).session x.src).isSome = true ∧ SameMemory s (s.kexHello x true) := by
  have ha : s.bit A.secStatus 3 = false := ha
  have hr : s.bit A.secStatus 2 = true := hr
  unfold State.kexHello
  rw [if_neg (by simp [ha]), if_neg (by omega), if_neg (by decide), if_neg (by simp [hr])]
  refine ⟨?_, SameMemory.trans (.of_eq rfl rfl rfl) (State.sendPkt_memory ..)⟩
  unfold State.session
  rw [State.sessions_sendPkt _ (by exact Nat.le_succ 0x20)]
  exact congrArg Option.isSome (State.session_openSession ..)

theorem State.kexHello_fails (ha : s.activating = false) (hn : x.src < s.modNum) :
    s.kexHello x false = { s.bump A.kexFail 1 with kexs := s.kexs ++ [⟨x.src, 0, x.data, true⟩] } := by
  have ha : s.bit A.secStatus 3 = false := ha
  unfold State.kexHello
  rw [if_neg (by simp [ha]), if_neg (by omega), if_pos Bool.not_false]

section
variable {y : Kex} (ha : s.activating = false) (hy : (s.kexs.find? fun y => y.peer == x.src && !y.failed && y.priv != 0) = some y)
include ha hy

/-- The initiator opens the session, and the exchange is over. -/
theorem State.kexReply_opens : ((s.kexReply x true).session x.src).isSome = true ∧ (∀ z ∈ (s.kexReply x true).kexs, z.peer ≠ x.src)
    ∧ SameMemory s (s.kexReply x true) := by
  have ha : s.bit A.secStatus 3 = false := ha
  unfold State.kexReply
  rw [if_neg (by simp [ha]), hy]
  refine ⟨congrArg Option.isSome (State.session_openSession ..), fun z hz => ?_, .of_eq rfl rfl rfl⟩
  obtain ⟨-, hz⟩ := List.mem_filter.mp hz
  simpa using hz

theorem State.kexReply_fails : s.kexReply x false
    = { s.bump A.kexFail 1 with kexs := s.kexs.map fun z => if z.peer == x.src then { z with failed := true } else z } := by
  have ha : s.bit A.secStatus 3 = false := ha
  unfold State.kexReply
  rw [if_neg (by simp [ha]), hy]
  rfl

end

/-- A failed exchange changes no session, and is counted. -/
theorem State.kexFails_spec (s : State) (l : List Kex) : ({ s.bump A.kexFail 1 with kexs := l } : State).sessions = s.sessions
    ∧ ({ s.bump A.kexFail 1 with kexs := l } : State).reg A.kexFail = BitVec.ofNat 64 (satAdd 48 (s.regN A.kexFail) 1)
    ∧ SameMemory s { s.bump A.kexFail 1 with kexs := l } :=
  ⟨s.bump_sessions .., s.reg_bump_one _, (SameMemory.refl s).bump.trans (.of_eq rfl rfl rfl)⟩

/-- Settles O51, packet by packet: each has its own meaning in the state that the checks leave. -/
theorem armatureAndKeyPacketsAct : Obligations.ArmatureAndKeyPacketsAct := by
  intro s s1 x c
  refine ⟨fun ha hc g hg => ?_, fun ha hc hf => ?_, fun ha hc y hy hb hr => ?_, fun ha hi hact hn => ⟨fun hrng => ?_, ?_⟩,
    fun ha hi hact y hy => ⟨?_, ?_⟩⟩
  · have hinc := s1.incNode_incremented g (field x.aux 0 9) (field x.addr 0 24) (1320 + 770 * x.hops)
    exact ⟨_, (exec_flagInc ha).trans (congrArg _ (State.flagIncReq_eq hc hg)), hinc.count, hinc.matched, fun _ h => s1.rg_incNode_ne _ _ _ h,
      s1.cl_incNode _ _ _ _, (s1.incNode_saturated ..).kept⟩
  · exact ⟨_, (exec_barArrive ha).trans (congrArg _ (State.barArrive_first hc hf)), _, rfl, rfl, rfl, rfl, rfl, .of_eq rfl rfl rfl⟩
  · exact ⟨_, (exec_barRelease ha).trans (congrArg _ (State.barRelease_eq hc hy hb hr)), rfl, rfl, .of_eq rfl rfl rfl⟩
  · exact ⟨_, exec_kexHello ha hi true, State.kexHello_opens hact hn hrng⟩
  · exact ⟨_, (exec_kexHello ha hi false).trans (congrArg _ (State.kexHello_fails hact hn)), s1.kexFails_spec _⟩
  · exact ⟨_, exec_kexReply ha hi true, State.kexReply_opens hact hy⟩
  · exact ⟨_, (exec_kexReply ha hi false).trans (congrArg _ (State.kexReply_fails hact hy)), s1.kexFails_spec _⟩

end Sys2Proof.Machine
end

section
/-!
SUPPORT. The operands of SYNC_POKE have no bound: its row writes the low 24 bits of the increment into the register's field (R293).
-/
namespace Sys2Proof.Machine

theorem ringable_pokes (w : Nat) : ∃ d, Reaches ringable .ralrad (A.poke 0) d w :=
  ⟨_, by decide +kernel, by decide, by decide, regAt_poke 0 (by decide), rfl, rfl⟩

/-- An increment of 2^24 writes 0 into S_INC, and a poke of 0 does nothing. -/
theorem exec_syncPoke_wraps : exec (.syncPoke .ralrad 0 0 (2 ^ 24)) ringable = .next ringable := by rfl

/-- Refutes O18: SYNC_POKE with the increment 2^24, of which the row keeps the low 24 bits, adds nothing to the counter, which the statement wants
at the top. -/
theorem not_nodeCountersIncrement : ¬ Obligations.NodeCountersIncrement := by
  unfold Obligations.NodeCountersIncrement
  rintro ⟨hpoke, -⟩
  obtain ⟨d, hd⟩ := ringable_pokes (0 + 2 ^ 24 * 65536)
  obtain ⟨t, ht, hcount, -⟩ := hpoke ringable .ralrad 0 0 (2 ^ 24) d rfl hd (by decide)
  obtain rfl : ringable = t := Host.Outcome.next.inj (exec_syncPoke_wraps.symm.trans ht)
  exact absurd hcount (by decide +kernel)

end Sys2Proof.Machine
end

section
/-!
SUPPORT. Completions that pass the checks (R324, R327).
-/
namespace Sys2Proof.Machine

variable {s s1 : State} {x : Pkt}

/-- Each type of completion has its row, and all come to `State.completion`. -/
theorem exec_completion {i : Instr} {ty : Nat}
    (hi : i = .rdData x ∧ ty = 2 ∨ i = .wrCpl x ∧ ty = 4 ∨ i = .atomCpl x ∧ ty = 6 ∨ i = .collCpl x ∧ ty = 0x12) (ha : Accepts s ty x s1) :
    exec i s = .next (s1.completion x) := by
  have hact : s.receive ty x (fun s => s.completion x) = s1.completion x := ha.receive _
  rcases hi with ⟨rfl, rfl⟩ | ⟨rfl, rfl⟩ | ⟨rfl, rfl⟩ | ⟨rfl, rfl⟩
  all_goals exact (if_pos ha.1).trans (congrArg Host.Outcome.next hact)

/-- A packet sent, once `x` has answered it (R324). -/
def Sent.answered (y : Sent) (x : Pkt) : Sent := { y with done := true, status := x.status, data := x.data, mask := x.pmask.getD 0 }

/-- The first packet sent that `x` answers: of its tag and its sender, and not answered yet. -/
def State.answeredBy (s : State) (x : Pkt) : Option Sent := s.sent.find? fun y => y.tag == x.tag && y.peer == x.src && !y.done

theorem State.completion_stray (h : s.answeredBy x = none) : s.completion x = s := by
  unfold State.answeredBy at h
  simp only [State.completion, h]

theorem State.completion_eq {y : Sent} (h : s.answeredBy x = some y) :
    s.completion x = { s.bump A.remoteRefused (if x.status = 0 then 0 else 1) with
      sent := s.sent.map fun z => if z.tag == y.tag && z.peer == y.peer then y.answered x else z } := by
  unfold State.answeredBy at h
  simp only [State.completion, h]
  rfl

/-- What a completion that answers `y` leaves. -/
theorem State.completion_spec {y : Sent} (h : s.answeredBy x = some y) :
    y.answered x ∈ (s.completion x).sent ∧ (∀ z ∈ s.sent, ¬(z.tag = y.tag ∧ z.peer = y.peer) → z ∈ (s.completion x).sent)
    ∧ (s.completion x).sent.length = s.sent.length
    ∧ (s.completion x).reg A.remoteRefused
      = (if x.status = 0 then s.reg A.remoteRefused else BitVec.ofNat 64 (satAdd 48 (s.regN A.remoteRefused) 1))
    ∧ (∀ a, a ≠ A.remoteRefused → (s.completion x).reg a = s.reg a) ∧ SameMemory s (s.completion x) := by
  rw [State.completion_eq h]
  refine ⟨List.mem_map.mpr ⟨y, List.mem_of_find?_eq_some h, if_pos (by simp)⟩, fun z hz hne => List.mem_map.mpr ⟨z, hz, if_neg (by simpa using hne)⟩,
    List.length_map _, ?_, fun a ha => State.reg_bump_ne s _ ha, (SameMemory.refl s).bump.trans (.of_eq rfl rfl rfl)⟩
  refine (State.reg_bump ..).trans ?_
  by_cases hs : x.status = 0
  · simp [hs]
  · simp [hs]

/-- Settles O50: each completion's row is `State.completion` in the state that the checks leave. -/
theorem completionsAreTaken : Obligations.CompletionsAreTaken := fun _ _ _ _ _ hi ha =>
  ⟨fun hn => (exec_completion hi ha).trans (congrArg _ (State.completion_stray hn)),
    fun _ hy => ⟨_, exec_completion hi ha, State.completion_spec hy⟩⟩

end Sys2Proof.Machine
end

section
/-!
SUPPORT. The checks of an arriving packet, in their order, and what each of its rows does with what they decide (R312, R313, R315, R317, R333, R402,
R414, R415).
-/
namespace Sys2Proof.Machine

variable {s d t : State} {i : Instr} {ty : Nat} {x : Pkt}

/-! ### Rows that carry a packet -/

/-- Instruction `i` brings packet `x` before the checks: the row of type `ty`, where that is the packet's type or the packet's is not in use, or
PACKET_TRANSIT. -/
structure Brings (s : State) (i : Instr) (ty : Nat) (x : Pkt) : Prop where
  row   : packetRow i = some (ty, x) ∧ (x.ptype = ty ∨ s.typeKnown x.ptype = false) ∨ i = .packetTransit x ∧ ty = 0
  ok    : x.ok = true
  opens : s.ingressOpen ty = true
  idle  : ty = 0x20 ∨ ty = 0x21 → s.portsIdle = true

/-- Every row of a packet type receives the packet under that type. -/
theorem exec_packetRow (h : packetRow i = some (ty, x)) (hok : x.ok = true) (hidle : ty = 0x20 ∨ ty = 0x21 → s.portsIdle = true) :
    ∃ act, exec i s = .next (s.receive ty x act) := by
  unfold packetRow at h
  split at h <;> cases h
  case h_13 | h_14 => exact ⟨_, (if_pos hok).trans (congrArg Host.Outcome.next (State.thenRetry_of_idle (hidle (by decide)) _))⟩
  all_goals exact ⟨_, if_pos hok⟩

theorem exec_packetTransit (hok : x.ok = true) : exec (.packetTransit x) s = .next (s.packetTransit x) := if_pos hok

/-- What is left of the checks' decision on `x` before a packet for this module acts. -/
def Arrived.left (x : Pkt) : Arrived → State
  | .dropped s => s
  | .transit s => s.transit x
  | .here s => s

namespace Brings

/-- Where the checks keep the packet from this module, what they decide is all that happens. -/
theorem exec_eq {a : Arrived} (h : Brings s i ty x) (ha : (Drained s x).arrive x = a) (hn : ∀ u, a ≠ .here u) : exec i s = .next (a.left x) := by
  have ha : (s.drainPkt (List.range 8) x).arrive x = a := ha
  obtain ⟨⟨hrow, hty⟩ | ⟨rfl, rfl⟩, hok, hopen, hidle⟩ := h
  · obtain ⟨act, he⟩ := exec_packetRow hrow hok hidle
    rw [he, State.receive, if_pos (by simpa [hopen] using hty), ha]
    cases a with
    | here u => exact absurd rfl (hn u)
    | dropped | transit => rfl
  · rw [exec_packetTransit hok, State.packetTransit, hopen, ha]
    cases a with
    | here u => exact absurd rfl (hn u)
    | dropped | transit => rfl

theorem dropped (h : Brings s i ty x) (ha : (Drained s x).arrive x = .dropped t) : exec i s = .next t := h.exec_eq ha fun _ => Arrived.noConfusion

theorem transit (h : Brings s i ty x) (ha : (Drained s x).arrive x = .transit t) : exec i s = .next (t.transit x) := h.exec_eq ha fun _ => Arrived.noConfusion

/-- Rows of packet types have the types of R313, R366 and R417. -/
theorem ptype_eq (h : Brings s i ty x) (h0 : ty ≠ 0) (hk : s.typeKnown x.ptype = true) : x.ptype = ty := by
  obtain ⟨⟨-, hty⟩ | ⟨-, hty⟩, -, -, -⟩ := h
  · exact hty.resolve_right (by simp [hk])
  · exact absurd hty h0

end Brings

/-- R313, R417: the types in use from 0x20 on are those of a key exchange. -/
theorem State.typeKnown_kex {n : Nat} (h : s.typeKnown n = true) (hn : 0x20 ≤ n) : n = 0x20 ∨ n = 0x21 := by
  unfold State.typeKnown at h
  simp at h
  omega

/-- A packet that leaves its lane's buffer changes the links alone (R310). -/
theorem drained_links (s : State) (x : Pkt) : ∃ ls, Drained s x = { s with links := ls } := by
  unfold Drained State.drainPkt
  split
  · exact ⟨s.links, rfl⟩
  · exact ⟨_, rfl⟩

/-! ### Membership, epoch and destination (R315, R317, R333, R335) -/

theorem State.arrive_notMember (hm : d.isMember = false) : d.arrive x = .dropped (d.bump A.notMember 1) := if_pos (by simp [hm])

section
variable (hm : d.isMember = true)
include hm

theorem State.arrive_epochOld (he : x.epoch ≠ d.fabEpoch) (hn : newerEpoch x.epoch d.fabEpoch = false) :
    d.arrive x = .dropped (d.bump A.epochOld 1) := by
  simp [State.arrive, hm, he, hn]

theorem State.arrive_epochNew (he : x.epoch ≠ d.fabEpoch) (hn : newerEpoch x.epoch d.fabEpoch = true) :
    d.arrive x = .dropped ((d.noteNewer x.epoch).bump A.epochNew 1) := by
  simp [State.arrive, hm, he, hn]

variable (he : x.epoch = d.fabEpoch)
include he

theorem State.arrive_elsewhere (hd : x.dst ≠ d.modNum) : d.arrive x = .transit d := by
  simp [State.arrive, hm, he, hd]

variable (hd : x.dst = d.modNum)
include hd

theorem State.arrive_bad (hb : d.typeKnown x.ptype = false ∨ fieldsBad x = true) : d.arrive x = .dropped (d.bump A.badPkt 1) := by
  simpa [State.arrive, hm, he, hd] using fun hk hf => by simp [hk, hf] at hb

theorem State.arrive_checked (hk : d.typeKnown x.ptype = true) (hf : fieldsBad x = false) : d.arrive x = d.securityCheck x := by
  simp [State.arrive, hm, he, hd, hk, hf]

end

theorem fieldsBad_of_reserved (h : x.reserved ≠ 0) : fieldsBad x = true := by simp [fieldsBad, h]

/-! ### Security (R402, R414, R415) -/

theorem not_kex {n : Nat} (h : n < 0x20) : ¬(n = 0x20 ∨ n = 0x21) := by omega

theorem State.securityCheck_firmware (hp : d.dataProt = false) (he : x.enc = true) : d.securityCheck x = .dropped (d.bump A.badPkt 1) := by
  simp [State.securityCheck, hp, he]

section
variable (hp : d.dataProt = true)
include hp

theorem State.securityCheck_kex (hk : x.ptype = 0x20 ∨ x.ptype = 0x21) (he : x.enc = true) :
    d.securityCheck x = .dropped (d.bump A.gcmFail 1) := by
  simp [State.securityCheck, hp, hk, he]

variable (hk : x.ptype < 0x20)
include hk

theorem State.securityCheck_plain (he : x.enc = false) : d.securityCheck x = .dropped (d.bump A.plainDrop 1) := by
  simp [State.securityCheck, hp, he, not_kex hk]

variable (he : x.enc = true)
include he

theorem State.securityCheck_noSession (hs : d.session x.src = none) : d.securityCheck x = .dropped (d.bump A.gcmFail 1) := by
  simp [State.securityCheck, hp, he, hs, not_kex hk]

variable {y : Session} (hs : d.session x.src = some y)
include hs

theorem State.securityCheck_tag (ht : x.tagOk = false) : d.securityCheck x = .dropped (d.bump A.gcmFail 1) := by
  simp [State.securityCheck, hp, he, hs, ht, not_kex hk]

theorem State.securityCheck_replay (ht : x.tagOk = true) (ha : y.accepts x.ctr = false) : d.securityCheck x = .dropped (d.bump A.replayDrop 1) := by
  simp [State.securityCheck, hp, he, hs, ht, ha, not_kex hk]

end

/-! ### A newer epoch (R335) -/

/-- What noting a newer epoch leaves. -/
theorem State.noteNewer_spec {e : Nat} (he : e < 65536) (hb : s.bit A.member 48 = false) :
    (s.noteNewer e).bit A.member 48 = true ∧ (s.noteNewer e).fieldN A.member 32 16 = e ∧ (s.noteNewer e).fabEpoch = s.fabEpoch
    ∧ (s.noteNewer e).modNum = s.modNum ∧ RegsOnly (· = A.member) s (s.noteNewer e) := by
  have hnote : s.noteNewer e = (s.setFld A.member 32 16 e).setB A.member 48 true := by simp [State.noteNewer, hb]
  have hfield {lo len : Nat} (h : lo + len ≤ 48) : (s.noteNewer e).fieldN A.member lo len = (s.setFld A.member 32 16 e).fieldN A.member lo len := by
    rw [hnote, State.fieldN, State.setB_eq, State.reg_setReg_same]
    exact regField_setField_ne _ _ _ _ _ _ (.inl h)
  have hbelow {lo len : Nat} (h : lo + len ≤ 32) : (s.noteNewer e).fieldN A.member lo len = s.fieldN A.member lo len := by
    rw [hfield (by omega), State.fieldN, State.setFld_eq, State.reg_setReg_same]
    exact regField_setField_ne _ _ _ _ _ _ (.inl h)
  refine ⟨hnote ▸ State.bit_setB_same _ _ _ (by decide), ?_, hbelow (by decide), hbelow (by decide), hnote ▸ ?_⟩
  · rw [hfield (by decide), State.fieldN, State.setFld_eq, State.reg_setReg_same, regField_setField _ _ _ _ (by decide), Nat.mod_eq_of_lt (show e < 2 ^ 16 from he)]
  · exact (RegsOnly.setReg s (K := (· = A.member)) _ rfl).trans (.setReg _ _ rfl)

/-- A packet of a newer epoch is counted, and the epoch shows in EKB_MEMBER beside the module's own. -/
theorem State.epochNew_spec {e : Nat} (he : e < 65536) (hb : s.bit A.member 48 = false) (ht : (s.noteNewer e).bump A.epochNew 1 = t) :
    t.bit A.member 48 = true ∧ t.fieldN A.member 32 16 = e ∧ t.fabEpoch = s.fabEpoch ∧ t.modNum = s.modNum
    ∧ t.reg A.epochNew = BitVec.ofNat 64 (satAdd 48 (s.regN A.epochNew) 1) ∧ SameMemory s t := by
  obtain ⟨hbit, hseen, hepoch, hnum, honly⟩ := State.noteNewer_spec he hb
  have hcount : RegsOnly (· = A.epochNew) (s.noteNewer e) t := ht ▸ .bump _ _ rfl
  have hmember : A.member ≠ A.epochNew := by decide
  refine ⟨(hcount.bit hmember).trans hbit, (hcount.fieldN hmember).trans hseen, (hcount.fieldN hmember).trans hepoch,
    (hcount.fieldN hmember).trans hnum, ?_, honly.sameMemory.trans hcount.sameMemory⟩
  rw [← ht, State.reg_bump_one, honly.regN hmember.symm]

/-! ### Transit (R317, R319) -/

theorem State.pump_outbox (s : State) (p n : Nat) : (s.pump p n).outbox = s.outbox := by
  induction n generalizing s with
  | zero => rfl
  | succ n ih =>
    unfold State.pump
    split
    · rfl
    · rw [ih, State.countFlit]
      split
      · rw [State.bump_outbox, State.bumpUnits_outbox]
        rfl
      · rfl

/-- What leaves by a port is shown by its sender, not by the port. -/
theorem State.egressPkt_outbox (s : State) (p : Nat) (key : Option Nat) (x : Pkt) : (s.egressPkt p key x).outbox = s.outbox := State.pump_outbox ..

theorem State.transit_hops (h : 31 ≤ x.hops) : s.transit x = s.bump A.hopsDrop 1 := if_pos h

theorem State.transit_noRoute (h : x.hops < 31) (he : s.egress x.dst = none) : s.transit x = s.bump A.routeDrop 1 := by
  simp [State.transit, show ¬ 31 ≤ x.hops by omega, he]

/-- A packet in transit leaves as it came, one hop further. -/
theorem State.transit_leaves {p : Nat} (h : x.hops < 31) (he : s.egress x.dst = some p) :
    (∃ y, (s.transit x).outbox = .packet p y :: s.outbox ∧ y.hops = x.hops + 1 ∧ y.dst = x.dst ∧ y.src = x.src ∧ y.data = x.data
      ∧ y.ptype = x.ptype ∧ y.tag = x.tag) ∧ SameMemory s (s.transit x) := by
  have hgo : s.transit x = (s.egressPkt p none { x with hops := x.hops + 1, vl := if s.bit (A.portCtrl p) 0 then 1 else x.vl }).send
      (.packet p { x with hops := x.hops + 1, vl := if s.bit (A.portCtrl p) 0 then 1 else x.vl }) := by
    simp [State.transit, show ¬ 31 ≤ x.hops by omega, he]
  rw [hgo]
  exact ⟨⟨_, congrArg _ (State.egressPkt_outbox ..), rfl, rfl, rfl, rfl, rfl, rfl⟩, (State.egressPkt_memory ..).trans (.of_eq rfl rfl rfl)⟩

/-- Settles O48: the first check that fails decides, and every row drops the packet or sends it on as the checks say. -/
theorem arrivalIsChecked : Obligations.ArrivalIsChecked := by
  intro s d i ty x hrow hok hopen hidle hd
  have hb : Brings s i ty x := ⟨hrow, hok, hopen, hidle⟩
  have hx : x.epoch < 65536 := by simp only [Pkt.ok, Bool.and_eq_true, decide_eq_true_eq] at hok; omega
  obtain ⟨ls, hls⟩ := drained_links s x
  have drops {t} (ha : d.arrive x = .dropped t) : exec i s = .next t := hb.dropped (hd ▸ ha)
  have passes (ha : d.arrive x = .transit d) : exec i s = .next (d.transit x) := hb.transit (hd ▸ ha)
  rw [hls] at hd
  subst hd
  refine ⟨fun hm => drops (State.arrive_notMember hm), fun hm he hn => drops (State.arrive_epochOld hm he hn), fun hm he hn hseen => ?_,
    fun hm he hdst => ?_, fun hm he hdst h0 => ⟨fun hbad => ?_, fun hk hf => ?_⟩⟩
  · exact ⟨_, drops (State.arrive_epochNew hm he hn), State.epochNew_spec (s := { s with links := ls }) hx hseen rfl⟩
  · have hgo := passes (State.arrive_elsewhere hm he hdst)
    exact ⟨fun hh => hgo.trans (congrArg _ (State.transit_hops hh)), fun hh hr => hgo.trans (congrArg _ (State.transit_noRoute hh hr)),
      fun p hh hr => ⟨_, hgo, State.transit_leaves (s := { s with links := ls }) hh hr⟩⟩
  · exact drops (State.arrive_bad hm he hdst (hbad.imp id fieldsBad_of_reserved))
  · have hty : x.ptype = ty := hb.ptype_eq h0 hk
    have checks {t} (ha : State.securityCheck { s with links := ls } x = .dropped t) : exec i s = .next t :=
      drops ((State.arrive_checked (d := { s with links := ls }) hm he hdst hk hf).trans ha)
    refine ⟨fun hp hx => checks (State.securityCheck_firmware hp hx), fun hp hlt hx => checks (State.securityCheck_plain hp (hty ▸ hlt) hx),
      fun hp hge hx => checks (State.securityCheck_kex hp (State.typeKnown_kex hk (hty ▸ hge)) hx), fun hp hlt hx => ?_⟩
    exact ⟨fun hs => checks (State.securityCheck_noSession hp (hty ▸ hlt) hx hs), fun _ hs ht => checks (State.securityCheck_tag hp (hty ▸ hlt) hx hs ht),
      fun _ hs ht ha => checks (State.securityCheck_replay hp (hty ▸ hlt) hx hs ht ha)⟩

end Sys2Proof.Machine
end

section
/-!
SUPPORT. Flits that a port receives and replays of those that it has sent (R307, R308, R337).
-/
namespace Sys2Proof.Machine

variable {s t : State} {p : Nat} {f : Flit}

/-! ### Rows of flits -/

theorem exec_flitReceive (hp : p < 10) (hf : f.bytes.length = 256) : exec (.flitReceive p f) s = .next (s.flitReceive p f) :=
  if_pos (by simp [Instr.wf, hp, hf])

theorem exec_flitReplay (seq : Nat) (hp : p < 10) : exec (.flitReplay p seq) s = .next (s.flitReplay p seq) := if_pos (by simp [Instr.wf, hp])

theorem State.portRuns_of_up (hu : s.up = true) (hup : s.linkUp p = true) : s.portRuns p = true := by simp [State.portRuns, hu, hup]

/-! ### What the FEC counts (R308, R337) -/

/-- The counters of corrected and of uncorrected codewords of port `p`. -/
def FecCounter (p a : Nat) : Prop := p < 8 ∧ (a = A.fecCorr p ∨ a = A.fecUncorr p)

theorem State.countFec_only (s : State) (p : Nat) (f : Flit) : RegsOnly (FecCounter p) s (s.countFec p f) := by
  unfold State.countFec
  split
  · next hp => exact (RegsOnly.bump s _ ⟨hp, .inl rfl⟩).trans (.bump _ _ ⟨hp, .inr rfl⟩)
  · exact .refl s

theorem not_fecCounter_linkDowns : ¬ FecCounter p (A.linkDowns p) := by
  simp only [FecCounter, A.linkDowns, A.fecCorr, A.fecUncorr, A.ekb]
  omega

theorem not_fecCounter_rxBytes : ¬ FecCounter p (A.rxBytes p) := by
  simp only [FecCounter, A.rxBytes, A.fecCorr, A.fecUncorr, A.ekb]
  omega

theorem State.countFec_hidden (s : State) (p : Nat) (f : Flit) : (s.countFec p f).hidden = s.hidden := by
  unfold State.countFec
  split
  · simp
  · rfl

theorem State.countFec_links (s : State) (p : Nat) (f : Flit) : (s.countFec p f).links = s.links := by rw [(s.countFec_only p f).rest]

theorem State.countFec_outbox (s : State) (p : Nat) (f : Flit) : (s.countFec p f).outbox = s.outbox := by rw [(s.countFec_only p f).rest]

theorem State.link_countFec (s : State) (p : Nat) (f : Flit) (q : Nat) : (s.countFec p f).link q = s.link q := by
  unfold State.link
  rw [s.countFec_links]

/-! ### Which flits are taken, dropped and asked for again (R308) -/

/-- A flit that the receiver cannot use where it stands: it fails its checks, or it is not the one expected. -/
def Link.refuses (l : Link) (f : Flit) : Prop := flitIntact f = false ∨ f.fecBad ≠ 0 ∨ flitSeq f ≠ l.rxSeq

section
variable (hr : s.portRuns p = true)
include hr

theorem State.flitReceive_taken (hi : flitIntact f = true) (hb : f.fecBad = 0) (hs : flitSeq f = (s.link p).rxSeq) :
    s.flitReceive p f = (s.countFec p f).flitTaken p f := by
  simp [State.flitReceive, hr, s.link_countFec, hi, hb, hs]

/-- While the receiver takes flits, the first that it refuses fails. -/
theorem State.flitReceive_refused (hf : (s.link p).refuses f) (hd : (s.link p).discard = false) :
    s.flitReceive p f = (s.countFec p f).flitFails p := by
  unfold State.flitReceive
  simp only [hr, s.link_countFec, hd]
  by_cases hbad : flitIntact f = false ∨ f.fecBad ≠ 0
  · simpa using fun hi hb => by simp [hi, hb] at hbad
  · obtain ⟨hi, hb⟩ : flitIntact f = true ∧ f.fecBad = 0 := by simpa using hbad
    have hs : flitSeq f ≠ (s.link p).rxSeq := by simpa [Link.refuses, hi, hb] using hf
    simp [hi, hb, hs]

theorem State.flitReceive_dropped (hs : flitSeq f ≠ (s.link p).rxSeq) (hd : (s.link p).discard = true) : s.flitReceive p f = s.countFec p f := by
  simp [State.flitReceive, hr, s.link_countFec, hs, hd]

/-- The expected flit fails again. -/
theorem State.flitReceive_again (hs : flitSeq f = (s.link p).rxSeq) (hf : flitIntact f = false ∨ f.fecBad ≠ 0) :
    s.flitReceive p f = (s.countFec p f).flitFails p := by
  unfold State.flitReceive
  simp only [hr, s.link_countFec, hs]
  simpa using fun hi hb => by simp [hi, hb] at hf

end

/-- The first flit that fails: the receiver discards from here, and names the SEQ that it expects. -/
theorem State.flitFails_first (hd : (s.link p).discard = false) :
    s.flitFails p = (s.setLink p { s.link p with discard := true, fails := 0 }).requestRetry p := if_pos (by simp [hd])

theorem State.flitFails_last (hd : (s.link p).discard = true) (hf : 15 ≤ (s.link p).fails) : s.flitFails p = s.linkDown p := by
  simp [State.flitFails, hd, hf]

theorem State.linkDown_ekb (s : State) (hp : p < 8) : s.linkDown p = s.ekbDown p := if_pos hp

theorem State.flitFails_first_spec (hp : p < 10) (hd : (s.link p).discard = false) :
    ((s.flitFails p).link p).rxSeq = (s.link p).rxSeq ∧ ((s.flitFails p).link p).discard = true
    ∧ OutMsg.flit p 2 (s.link p).rxSeq ∈ (s.flitFails p).outbox ∧ SameMemory s (s.flitFails p) := by
  have hlink : (s.flitFails p).link p = { s.link p with discard := true, fails := 0 } := by
    rw [State.flitFails_first hd]
    exact s.link_setLink_same _ hp
  have hout : (s.flitFails p).outbox = .flit p 2 (s.link p).rxSeq :: s.outbox := by
    rw [State.flitFails_first hd, State.requestRetry, s.link_setLink_same _ hp]
    rfl
  rw [hlink, hout, State.flitFails_first hd]
  exact ⟨rfl, rfl, List.mem_cons_self, .of_eq rfl rfl rfl⟩

/-! ### The expected flit (R307, R337) -/

/-- A counter in units of 2^12 with its remainder (R514). -/
def State.unitsAt (s : State) (a : Nat) : Nat := s.regN a * 4096 + Sparse.get 0 s.hidden a

theorem State.unitsAt_bumpUnits (s : State) (a : Nat) {n : Nat} (hn : n ≠ 0) : (s.bumpUnits a n).unitsAt a = min (s.unitsAt a + n) (2 ^ 60 - 1) := by
  have hlt : min (s.unitsAt a + n) (2 ^ 60 - 1) < 2 ^ 60 := by omega
  unfold State.bumpUnits
  rw [if_neg hn]
  show (s.setReg a (BitVec.ofNat 64 (min (s.unitsAt a + n) (2 ^ 60 - 1) / 4096))).regN a * 4096 + Sparse.get 0 (Sparse.set 0 s.hidden a _) a = _
  rw [State.regN_setReg_same, Sparse.get_set_same, Nat.mod_eq_of_lt (by omega)]
  exact Nat.div_add_mod' _ _

/-- A link once it has taken the flit that it expects. -/
def Link.taking (l : Link) (f : Flit) : Link :=
  let past := (flitAck f + 4096 - l.reqSeq % 4096) % 4096 < 2048
  let l1 := { l with rxSeq := (l.rxSeq + 1) % 4096, discard := false, fails := 0, reqs := if past then 0 else l.reqs }
  if flitType f = 0 then l1.takeBody f else l1

/-- It expects the next SEQ, and discards nothing. -/
theorem Link.taking_spec (l : Link) (f : Flit) : (l.taking f).rxSeq = (l.rxSeq + 1) % 4096 ∧ (l.taking f).discard = false ∧ (l.taking f).fails = 0 := by
  unfold Link.taking
  extract_lets past l1
  split
  · exact ⟨rfl, rfl, rfl⟩
  · exact ⟨rfl, rfl, rfl⟩

theorem State.flitTaken_eq (s : State) (p : Nat) (f : Flit) :
    s.flitTaken p f = if (p < 8 && flitType f = 0 : Bool) then (s.setLink p ((s.link p).taking f)).bumpUnits (A.rxBytes p) 242
      else s.setLink p ((s.link p).taking f) := rfl

theorem State.link_flitTaken (s : State) (f : Flit) {q : Nat} (hq : q < 10) :
    (s.flitTaken p f).link q = if q = p then (s.link p).taking f else s.link q := by
  have hlinks : (s.flitTaken p f).links = (s.setLink p ((s.link p).taking f)).links := by
    rw [State.flitTaken_eq]
    split
    · exact State.bumpUnits_links ..
    · rfl
  rw [← s.link_setLink _ hq, State.link, hlinks]
  rfl

/-- R337: the body of a data flit counts at an Eokoby port. -/
theorem State.unitsAt_flitTaken (s : State) (hp : p < 8) (hf : flitType f = 0) :
    (s.flitTaken p f).unitsAt (A.rxBytes p) = min (s.unitsAt (A.rxBytes p) + 242) (2 ^ 60 - 1) := by
  rw [State.flitTaken_eq, if_pos (by simp [hp, hf]), State.unitsAt_bumpUnits _ _ (by decide)]
  rfl

theorem State.flitTaken_sameMemory (s : State) (p : Nat) (f : Flit) : SameMemory s (s.flitTaken p f) := by
  rw [State.flitTaken_eq]
  refine .ite (.of_eq ?_ ?_ ?_) (.of_eq rfl rfl rfl)
  · exact State.bumpUnits_mem ..
  · exact State.bumpUnits_gran ..
  · exact State.bumpUnits_flash ..

/-! ### Replay (R308) -/

/-- A retry request that names the flit of the one before it once more. -/
def Link.asksAgain (l : Link) (seq : Nat) : Bool := l.reqs ≠ 0 && l.reqSeq == seq % 4096

/-- The counter of the flits that port `p` sends again. -/
def retryCounter (p : Nat) : Nat := if p < 8 then A.retry p else A.mlmRetry (p - 8)

theorem retryCounter_ekb (hp : p < 8) : retryCounter p = A.retry p := if_pos hp

/-- The link and the message of a replay, before it is counted. -/
def State.replays (s : State) (p seq : Nat) : State :=
  (s.setLink p { s.link p with reqSeq := seq % 4096, reqs := if (s.link p).asksAgain seq then (s.link p).reqs + 1 else 1 }).send
    (.replay p ((s.link p).since seq))

section
variable (hr : s.portRuns p = true) {seq : Nat}
include hr

/-- A request that the port answers: its replay is counted, an Eokoby port's for the health monitor too. -/
theorem State.flitReplay_eq (hq : (s.link p).reqs = 0 ∨ (s.link p).reqSeq ≠ seq % 4096 ∨ (s.link p).reqs < 16) :
    ∃ h, s.flitReplay p seq = { (s.replays p seq).bump (retryCounter p) ((s.link p).since seq).length with health := h } := by
  have hagain : ¬ ((s.link p).asksAgain seq && 16 ≤ (s.link p).reqs) = true := by
    simp only [Link.asksAgain, Bool.and_eq_true, decide_eq_true_eq, beq_iff_eq]
    omega
  generalize hu : (s.replays p seq).bump (retryCounter p) ((s.link p).since seq).length = u
  unfold State.flitReplay
  rw [if_neg (by simp [hr])]
  extract_lets l again n s1 s2
  rw [if_neg (show ¬ (again && 16 ≤ l.reqs) = true from hagain)]
  split
  · next hp8 =>
    rw [retryCounter_ekb hp8] at hu
    subst hu
    exact ⟨_, rfl⟩
  · next hp8 =>
    rw [retryCounter, if_neg hp8] at hu
    subst hu
    exact ⟨_, rfl⟩

theorem State.flitReplay_down (hn : 16 ≤ (s.link p).reqs) (hq : (s.link p).reqSeq = seq % 4096) : s.flitReplay p seq = s.linkDown p := by
  unfold State.flitReplay
  rw [if_neg (by simp [hr])]
  exact if_pos (by simp [hn, hq]; omega)

end

theorem State.link_replays (s : State) (seq : Nat) (hp : p < 10) :
    (s.replays p seq).link p = { s.link p with reqSeq := seq % 4096, reqs := if (s.link p).asksAgain seq then (s.link p).reqs + 1 else 1 } :=
  s.link_setLink_same _ hp

/-- What a replay leaves, once it is counted. -/
theorem State.replays_spec (s : State) (seq : Nat) (h : Health) (hp : p < 10)
    (ht : t = { (s.replays p seq).bump (retryCounter p) ((s.link p).since seq).length with health := h }) :
    OutMsg.replay p ((s.link p).since seq) ∈ t.outbox ∧ (t.link p).reqSeq = seq % 4096 ∧ (t.link p).kept = (s.link p).kept
    ∧ (p < 8 → (s.link p).since seq ≠ [] → t.reg (A.retry p) = BitVec.ofNat 64 (satAdd 48 (s.regN (A.retry p)) ((s.link p).since seq).length))
    ∧ (∀ a, a ≠ A.retry p → a ≠ A.mlmRetry (p - 8) → t.reg a = s.reg a) ∧ SameMemory s t := by
  have hlink : t.link p = (s.replays p seq).link p := by
    rw [ht]
    exact congrArg (nth Link.init · p) (State.bump_links ..)
  have hout : t.outbox = .replay p ((s.link p).since seq) :: s.outbox := by
    rw [ht]
    exact State.bump_outbox ..
  have hsent : SameMemory s (s.replays p seq) := .of_eq rfl rfl rfl
  rw [hlink, s.link_replays seq hp, hout]
  subst ht
  refine ⟨List.mem_cons_self, rfl, rfl, fun hp8 hne => ?_, fun a ha hm => ?_, hsent.bump.trans (.of_eq rfl rfl rfl)⟩
  · rw [← retryCounter_ekb hp8]
    exact (State.reg_bump ..).trans (if_pos ⟨rfl, by simpa using hne⟩)
  · refine State.reg_bump_ne _ _ ?_
    unfold retryCounter
    split
    · exact ha
    · exact hm

/-- Settles O46: whatever comes, the FEC counts first; then the link takes the flit, drops it or fails, and a retry request is answered or ends it. -/
theorem flitsAreSequenced : Obligations.FlitsAreSequenced := by
  intro s p hp hu hup
  have hr : s.portRuns p = true := State.portRuns_of_up hu hup
  refine ⟨fun f hf => ⟨fun hi hb hs => ?_, fun hbad hd => ?_, fun hs hd => ?_, fun hp8 hs hbad hd hn => ?_⟩, fun seq hq => ?_, fun seq hp8 hn hq => ?_⟩
  · have hlink {q : Nat} (hq : q < 10) : ((s.countFec p f).flitTaken p f).link q = if q = p then (s.link p).taking f else s.link q := by
      rw [State.link_flitTaken _ _ hq, s.link_countFec, s.link_countFec]
    have htaken := Link.taking_spec (s.link p) f
    rw [← (hlink hp).trans (if_pos rfl)] at htaken
    obtain ⟨hseq, hdisc, hfails⟩ := htaken
    refine ⟨_, (exec_flitReceive hp hf).trans (congrArg _ (State.flitReceive_taken hr hi hb hs)), hseq, hdisc, hfails, fun hp8 h0 => ?_,
      fun q hq hne => (hlink hq).trans (if_neg hne),
      (s.countFec_only p f).sameMemory.trans (State.flitTaken_sameMemory ..)⟩
    refine (State.unitsAt_flitTaken _ hp8 h0).trans ?_
    rw [State.unitsAt, (s.countFec_only p f).regN not_fecCounter_rxBytes, s.countFec_hidden]
  · have h := State.flitFails_first_spec (s := s.countFec p f) hp ((congrArg Link.discard (s.link_countFec p f p)).trans hd)
    rw [s.link_countFec] at h
    obtain ⟨hseq, hdisc, hasked, hmem⟩ := h
    exact ⟨_, (exec_flitReceive hp hf).trans (congrArg _ (State.flitReceive_refused hr hbad hd)), hseq, hdisc, hasked,
      (s.countFec_only p f).sameMemory.trans hmem⟩
  · exact ⟨_, (exec_flitReceive hp hf).trans (congrArg _ (State.flitReceive_dropped hr hs hd)), s.countFec_links .., s.countFec_outbox ..,
      (s.countFec_only p f).sameMemory⟩
  · have hlink := s.link_countFec p f p
    have hdown : (s.countFec p f).flitFails p = (s.countFec p f).ekbDown p :=
      (State.flitFails_last (by rw [hlink]; exact hd) (by rw [hlink]; exact hn)).trans (State.linkDown_ekb _ hp8)
    obtain ⟨hport, hlost, hcount, -⟩ := (s.countFec p f).ekbDown_spec hp8
    refine ⟨_, (exec_flitReceive hp hf).trans (congrArg _ ((State.flitReceive_again hr hs hbad).trans hdown)), hport, hlost, hcount.trans ?_⟩
    rw [(s.countFec_only p f).regN not_fecCounter_linkDowns]
  · obtain ⟨h, he⟩ := State.flitReplay_eq hr hq
    exact ⟨_, exec_flitReplay seq hp, State.replays_spec s seq h hp he⟩
  · obtain ⟨hport, hlost, -⟩ := s.ekbDown_spec hp8
    exact ⟨_, (exec_flitReplay seq hp).trans (congrArg _ ((State.flitReplay_down hr hn hq).trans (s.linkDown_ekb hp8))), hport, hlost⟩

end Sys2Proof.Machine
end

section
/-!
SUPPORT. Writes of EKB_GRACE, EKB_CTX_JOB_c, CFG_MBOX_OUT_TAIL, MEM_MLM_WIN and EKB_JOIN: what each write comes to (R316, R322, R335, R336, R497,
R504).
-/
namespace Sys2Proof.Machine

variable {s t : State} {p : Party} {d : RegDef} {a w : Nat}

/-! ### Writes that only act (R13, R15, R447) -/

/-- A write that reaches a register without W1S bits, which an activation does not close, takes its action and no more. -/
theorem Reaches.csrWrite_acts (h : Reaches s p a d w) (x : WriteEnv) (ho : d.acc ≠ .ro) (h1 : d.w1s = 0) (hr : refusedActivating a = false) :
    s.csrWrite p a w x = s.writeAction p a d w x := by
  obtain ⟨hopen, hv, hsfu, hd, hg, hm⟩ := h
  rw [State.csrWrite_reaches x hopen hv hsfu hd hg hm]
  simp [State.writeEffect, ho, h1, hr]

theorem not_refusedActivating_ekb (ha : A.ekb 0 ≤ a) : refusedActivating a = false := by
  simp only [A.ekb] at ha
  simp only [refusedActivating, Bool.or_eq_false_iff, beq_eq_false_iff_ne, A.regionAssign, A.secRotate, A.scrubCtrl, A.stageCtrl, A.maqCtrl, A.bootSel,
    A.sec, A.cfg]
  omega

/-- The same of a register of the Eokoby block that is no counter (R337). -/
theorem Reaches.csrWrite_ekb (h : Reaches s p a d w) (x : WriteEnv) (ha : A.ekb 0 ≤ a) (ho : d.acc ≠ .ro) (h1 : d.w1s = 0) (hc : d.isCounter = false)
    (hk : d.kind ≠ .power) : s.csrWrite p a w x = s.writeRest p a d w x := by
  rw [h.csrWrite_acts x ho h1 (not_refusedActivating_ekb ha)]
  simp only [A.ekb] at ha
  unfold State.writeAction A.pwr A.hlt A.mem
  rw [if_neg (by simp [hc, hk]), if_neg (by omega), if_neg (by omega), if_neg (by omega)]

/-! ### EKB_GRACE (R336) -/

theorem regAt_grace : regAt A.grace = some ⟨0xFFFF, 0, 0, false, .status, .ekb, .module⟩ := by decide

theorem clampGrace_eq (v : Nat) : clampGrace v = max 10 (min 10000 v) := by
  unfold clampGrace
  split_ifs <;> omega

theorem exec_ekbGraceWrite {ms : Nat} (hp : p.ok = true) (hm : ms < 65536) (h : Reaches s p A.grace d ms) :
    exec (.ekbGraceWrite p ms) s = .next (s.setReg A.grace (BitVec.ofNat 64 (max 10 (min 10000 ms)))) := by
  obtain rfl : d = _ := Option.some.inj (h.regAt_eq.symm.trans regAt_grace)
  have hf : field ms 0 16 = ms := by simp [field]; omega
  have hact : s.csrWrite p A.grace ms WriteEnv.none = s.setReg A.grace (BitVec.ofNat 64 (clampGrace (field ms 0 16))) :=
    h.csrWrite_ekb _ (by decide) (by simp) rfl rfl (by simp)
  rw [clampGrace_eq, hf] at hact
  rw [← hact]
  refine (if_pos hp).trans ?_
  rw [State.wrReg, Nat.mod_eq_of_lt hm]

/-! ### EKB_CTX_JOB_c (R322) -/

theorem regAt_ctxJob : ∀ c, c < 16 → regAt (A.ctxJob c) = some ⟨0x1FFFF, 0, 0, false, .status, .ctx c, .module⟩ := by decide

/-- A job ID with its VALID bit, as EKB_CTX_JOB_c holds them. -/
def jobWord (job : Nat) (valid : Bool) : Nat := job + if valid then 65536 else 0

theorem jobWord_job {job : Nat} (h : job < 65536) (valid : Bool) : field (jobWord job valid) 0 16 = job := by
  cases valid <;> simp [field, jobWord] <;> omega

theorem jobWord_valid {job : Nat} (h : job < 65536) (valid : Bool) : (jobWord job valid).testBit 16 = valid := by
  cases valid <;> simp [jobWord, Nat.testBit_eq_decide_div_mod_eq] <;> omega

/-- Another context of the module holds the job ID valid (R322). -/
def State.jobTaken (s : State) (c job : Nat) : Bool :=
  (List.range 16).any fun x => x != c && s.bit (A.ctxJob x) 16 && s.fieldN (A.ctxJob x) 0 16 == job

theorem State.jobTaken_false_iff {c job : Nat} :
    s.jobTaken c job = false ↔ ∀ x, x < 16 → x ≠ c → ¬(s.bit (A.ctxJob x) 16 = true ∧ s.fieldN (A.ctxJob x) 0 16 = job) := by
  simp [State.jobTaken, and_imp]

theorem exec_ekbCtxJobWrite {c job : Nat} {valid : Bool} (hp : p.ok = true) (hc : c < 16) (hj : job < 65536)
    (h : Reaches s p (A.ctxJob c) d (jobWord job valid)) : exec (.ekbCtxJobWrite p c job valid) s = .next (s.ctxJobWrite c job valid) := by
  obtain rfl : d = _ := Option.some.inj (h.regAt_eq.symm.trans (regAt_ctxJob c hc))
  have hact : s.csrWrite p (A.ctxJob c) (jobWord job valid) WriteEnv.none
      = s.ctxJobWrite c (field (jobWord job valid) 0 16) ((jobWord job valid).testBit 16) := by
    rw [h.csrWrite_ekb _ (by simp [A.ctxJob, A.ekb]) (by simp) rfl rfl (by simp)]
    have hne {b : Nat} (hb : b < 0x20080) : A.ctxJob c ≠ b := by simp only [A.ctxJob, A.ekb]; omega
    unfold State.writeRest
    rw [if_neg (hne (by decide)), if_neg (hne (by decide)), if_neg (hne (by decide)), if_neg (hne (by decide)), if_neg (hne (by decide))]
    exact if_pos rfl
  rw [jobWord_job hj, jobWord_valid hj] at hact
  rw [← hact]
  refine (if_pos (by simp [Instr.wf, hp, hc])).trans ?_
  rw [State.wrReg, Nat.mod_eq_of_lt hj]
  rfl

/-- The second holder of a job ID is rejected: VALID is cleared, and the register stays else (R322). -/
theorem State.ctxJobWrite_rejected {c job : Nat} (hj : job < 65536) (h : s.jobTaken c job = true) :
    s.ctxJobWrite c job true = s.setB (A.ctxJob c) 16 false := by
  rw [State.jobTaken] at h
  simp only [State.ctxJobWrite, Nat.mod_eq_of_lt hj, h]
  rfl

theorem State.ctxJobWrite_stored {c job : Nat} {valid : Bool} (hj : job < 65536) (h : (valid && s.jobTaken c job) = false) :
    s.ctxJobWrite c job valid = s.setReg (A.ctxJob c) (BitVec.ofNat 64 (jobWord job valid)) := by
  rw [State.jobTaken] at h
  simp only [State.ctxJobWrite, Nat.mod_eq_of_lt hj, h]
  rfl

theorem State.ctxJobWrite_spec {c job : Nat} {valid : Bool} (hj : job < 65536) (ht : s.ctxJobWrite c job valid = t) :
    (t.bit (A.ctxJob c) 16 = (valid && !s.jobTaken c job))
    ∧ t.fieldN (A.ctxJob c) 0 16 = (if valid && !t.bit (A.ctxJob c) 16 then s.fieldN (A.ctxJob c) 0 16 else job)
    ∧ (∀ b, b ≠ A.ctxJob c → t.reg b = s.reg b) ∧ SameMemory s t := by
  cases htaken : valid && s.jobTaken c job with
  | true =>
    obtain ⟨rfl, hheld⟩ : valid = true ∧ s.jobTaken c job = true := by simpa using htaken
    rw [State.ctxJobWrite_rejected hj hheld] at ht
    subst ht
    have hbit : (s.setB (A.ctxJob c) 16 false).bit (A.ctxJob c) 16 = false := State.bit_setB_same _ _ _ (by decide)
    rw [hbit, hheld, State.fieldN, State.setB_eq, State.reg_setReg_same]
    exact ⟨rfl, regField_setField_ne _ _ _ _ _ _ (.inl (by decide)), fun _ hb => State.reg_setReg_ne _ _ hb, .of_eq rfl rfl rfl⟩
  | false =>
    rw [State.ctxJobWrite_stored hj htaken] at ht
    subst ht
    have hlt : jobWord job valid < 2 ^ 64 := by unfold jobWord; split <;> omega
    have hreg : ((s.setReg (A.ctxJob c) (BitVec.ofNat 64 (jobWord job valid))).reg (A.ctxJob c)).toNat = jobWord job valid := by
      rw [State.reg_setReg_same, BitVec.toNat_ofNat, Nat.mod_eq_of_lt hlt]
    rw [State.bit, State.fieldN, regField, hreg, jobWord_valid hj, jobWord_job hj]
    refine ⟨?_, by simp, fun _ hb => State.reg_setReg_ne _ _ hb, .of_eq rfl rfl rfl⟩
    revert htaken
    cases valid <;> simp

/-! ### CFG_MBOX_OUT_TAIL (R504) -/

theorem regAt_mboxTail : regAt A.mboxTail = some ⟨0xFFFFFFFF, 0, 0, false, .status, .mlm, .module⟩ := by decide

theorem State.writeAction_mboxTail (s : State) (p : Party) (w : Nat) (x : WriteEnv) :
    s.writeAction p A.mboxTail ⟨0xFFFFFFFF, 0, 0, false, .status, .mlm, .module⟩ w x = s.mboxTail (field w 0 32) := by
  rw [State.writeAction, if_neg (by decide), if_pos (by decide), State.writeCfg, if_neg (by decide), if_neg (by decide), if_neg (by decide),
    if_neg (by decide), if_neg (by decide), if_neg (by decide), if_pos rfl]

theorem exec_cfgMboxOutTail_eq (tail : Nat) (hp : p.ok = true) :
    exec (.cfgMboxOutTail p tail) s = .next (s.wrReg p A.mboxTail (tail % 2 ^ 32)) := by
  have hrow : exec (.cfgMboxOutTail p tail) s = execCfgMboxOutTail p tail s := rfl
  exact hrow.trans (if_pos hp)

theorem exec_cfgMboxOutTail {tail : Nat} (hp : p.ok = true) (hm : tail < 2 ^ 32) (h : Reaches s p A.mboxTail d tail) :
    exec (.cfgMboxOutTail p tail) s = .next (s.mboxTail tail) := by
  obtain rfl : d = _ := Option.some.inj (h.regAt_eq.symm.trans regAt_mboxTail)
  have hf : field tail 0 32 = tail := by simp [field]; omega
  have hact : s.csrWrite p A.mboxTail tail WriteEnv.none = s.mboxTail tail := by
    rw [h.csrWrite_acts _ (by simp) rfl (by decide), State.writeAction_mboxTail, hf]
  have hwrite : s.wrReg p A.mboxTail (tail % 2 ^ 32) = s.mboxTail tail := by
    rw [Nat.mod_eq_of_lt hm]
    exact hact
  exact (exec_cfgMboxOutTail_eq tail hp).trans (congrArg _ hwrite)

theorem State.mboxTail_ignored {tail : Nat} (h : s.mboxSlots < s.mboxUsed (tail % 2 ^ 32)) : s.mboxTail tail = s := if_pos h

theorem State.mboxTail_stored {tail : Nat} (h : s.mboxUsed (tail % 2 ^ 32) ≤ s.mboxSlots) (hn : s.heldMsgs = []) :
    s.mboxTail tail = s.setReg A.mboxTail (BitVec.ofNat 64 (tail % 2 ^ 32)) := by
  refine (if_neg (Nat.not_lt.mpr h)).trans ?_
  rw [State.setReg_heldMsgs, hn]
  rfl

/-! ### MEM_MLM_WIN (R497) -/

theorem regAt_mlmWin : regAt A.mlmWin = some ⟨3, 0, 0, false, .status, .mlm, .module⟩ := by decide

theorem exec_memMlmWin {mode : Nat} (hp : p.ok = true) (hm : mode < 4) (h : Reaches s p A.mlmWin d mode) :
    exec (.memMlmWin p mode) s = .next (s.mlmWinWrite mode) := by
  obtain rfl : d = _ := Option.some.inj (h.regAt_eq.symm.trans regAt_mlmWin)
  have hf : field mode 0 2 = mode := by simp [field]; omega
  have hact : s.csrWrite p A.mlmWin mode WriteEnv.none = s.mlmWinWrite (field mode 0 2) := h.csrWrite_acts _ (by simp) rfl (by decide)
  rw [hf] at hact
  rw [← hact]
  refine (if_pos hp).trans ?_
  rw [State.wrReg, Nat.mod_eq_of_lt hm]

theorem State.mlmWinWrite_reserved (s : State) : s.mlmWinWrite 3 = s := rfl

theorem State.mlmWinWrite_refused {mode : Nat} (h3 : mode ≠ 3) (h : s.anyOwned = true ∨ mode ≠ 0 ∧ s.bit A.shape 21 = false) :
    s.mlmWinWrite mode = s.bump A.cfgRefused 1 := by
  rw [State.mlmWinWrite, if_neg h3]
  exact if_pos (by simpa using h)

theorem State.mlmWinWrite_taken {mode : Nat} (h3 : mode ≠ 3) (ho : s.anyOwned = false) (h : mode = 0 ∨ s.bit A.shape 21 = true) :
    s.mlmWinWrite mode = s.setReg A.mlmWin (BitVec.ofNat 64 mode) := by
  rw [State.mlmWinWrite, if_neg h3]
  exact if_neg (by rcases h with h | h <;> simp [ho, h])

/-! ### EKB_JOIN (R316, R335) -/

theorem regAt_join : regAt A.join = some ⟨0, 0, 0, true, .status, .ekb, .module⟩ := by decide

theorem State.writeRest_join (s : State) (p : Party) (d : RegDef) (w : Nat) (x : WriteEnv) :
    s.writeRest p A.join d w x = if bitAt w 32 then s.ekbJoin (field w 0 12) (field w 16 16) else s := rfl

theorem exec_ekbJoin_eq (m e : Nat) (hp : p.ok = true) :
    exec (.ekbJoin p m e true) s = .next (s.wrReg p A.join (m % 4096 + e % 65536 * 65536 + 2 ^ 32)) := by
  have hrow : exec (.ekbJoin p m e true) s = execEkbJoin p m e true s := rfl
  exact hrow.trans (if_pos hp)

theorem exec_ekbJoin {m e : Nat} (hp : p.ok = true) (hm : m < 4096) (he : e < 65536) (h : Reaches s p A.join d (m + e * 65536 + 2 ^ 32)) :
    exec (.ekbJoin p m e true) s = .next (s.ekbJoin m e) := by
  obtain rfl : d = _ := Option.some.inj (h.regAt_eq.symm.trans regAt_join)
  have hnum : field (m + e * 65536 + 2 ^ 32) 0 12 = m := by simp [field]; omega
  have hepoch : field (m + e * 65536 + 2 ^ 32) 16 16 = e := by simp [field, Nat.shiftRight_eq_div_pow]; omega
  have hgo : bitAt (m + e * 65536 + 2 ^ 32) 32 = true := by simp [bitAt, Nat.testBit_eq_decide_div_mod_eq]; omega
  have hact : s.csrWrite p A.join (m + e * 65536 + 2 ^ 32) WriteEnv.none = s.ekbJoin m e := by
    rw [h.csrWrite_ekb _ (by decide) (by simp) rfl rfl (by simp), State.writeRest_join, if_pos hgo, hnum, hepoch]
  have hwrite : s.wrReg p A.join (m % 4096 + e % 65536 * 65536 + 2 ^ 32) = s.ekbJoin m e := by
    rw [Nat.mod_eq_of_lt hm, Nat.mod_eq_of_lt he]
    exact hact
  exact (exec_ekbJoin_eq m e hp).trans (congrArg _ hwrite)

/-- EKB_MEMBER once an epoch is adopted: NEWER_SEEN clears unless the epoch seen is newer still (R316, R335). -/
def adopted (w : Reg64) (epoch : Nat) : Reg64 :=
  let w1 := setField w 16 16 epoch
  if w.toNat.testBit 48 && !newerEpoch (regField w 32 16) epoch then setField w1 32 17 0 else w1

theorem regField_adopted_below (w : Reg64) (e : Nat) {lo len : Nat} (h : lo + len ≤ 16) : regField (adopted w e) lo len = regField w lo len := by
  have hepoch : regField (setField w 16 16 e) lo len = regField w lo len := regField_setField_ne _ _ _ _ _ _ (.inl h)
  unfold adopted
  extract_lets w1
  split
  · exact (regField_setField_ne _ _ _ _ _ _ (.inl (by omega))).trans hepoch
  · exact hepoch

theorem regField_adopted_epoch (w : Reg64) {e : Nat} (he : e < 65536) : regField (adopted w e) 16 16 = e := by
  have hepoch : regField (setField w 16 16 e) 16 16 = e := (regField_setField _ _ _ _ (by decide)).trans (Nat.mod_eq_of_lt he)
  unfold adopted
  extract_lets w1
  split
  · exact (regField_setField_ne _ _ _ _ _ _ (.inl (by decide))).trans hepoch
  · exact hepoch

theorem adopted_newerSeen (w : Reg64) (e : Nat) :
    (adopted w e).toNat.testBit 48 = (w.toNat.testBit 48 && newerEpoch (regField w 32 16) e) := by
  have hepoch : (setField w 16 16 e).toNat.testBit 48 = w.toNat.testBit 48 := (setField_testBit ..).trans (if_neg (by decide))
  unfold adopted
  extract_lets w1
  split
  · next h =>
    obtain ⟨-, hn⟩ : w.toNat.testBit 48 = true ∧ newerEpoch (regField w 32 16) e = false := by simpa using h
    rw [setField_testBit, if_pos (by decide), hn]
    simp
  · next h =>
    rw [hepoch]
    revert h
    cases w.toNat.testBit 48 <;> simp

/-- A change of one context after another changes nothing else. -/
theorem State.foldl_modCx_rest (f : Ctx → Ctx) (l : List Nat) (s : State) :
    ∃ cs, l.foldl (fun s c => s.modCx c f) s = { s with ctxs := cs } := by
  refine List.foldlRecOn (motive := fun t : State => ∃ cs, t = { s with ctxs := cs }) l _ ⟨s.ctxs, rfl⟩ ?_
  rintro _ ⟨cs, rfl⟩ c -
  exact ⟨_, rfl⟩

/-- What the end of the old epoch's sessions leaves. -/
theorem State.newEpochEffects_spec (s : State) :
    s.newEpochEffects.reg A.member = s.reg A.member ∧ s.newEpochEffects.sessions = s.sessions.filter (fun x => 65536 ≤ x.peer)
    ∧ s.newEpochEffects.kexs = [] ∧ SameMemory s s.newEpochEffects := by
  have hrest : ∃ cs, s.newEpochEffects
      = { s.dropHeld A.epochOld with sessions := s.sessions.filter (fun x => 65536 ≤ x.peer), kexs := [], ctxs := cs } :=
    State.foldl_modCx_rest _ _ _
  obtain ⟨cs, hcs⟩ := hrest
  rw [hcs]
  exact ⟨State.reg_bump_ne _ _ (by decide), rfl, rfl, (SameMemory.refl s).bump.trans (.of_eq rfl rfl rfl)⟩

/-- R318: the default routes write the route table only. -/
theorem State.defaultRoutes_spec (s : State) : s.defaultRoutes.reg A.member = s.reg A.member ∧ SameMemory s s.defaultRoutes := by
  have hrest : ∃ u, RegsOnly (fun a => ∃ w, a = A.route w) { s with freeCtr := s.freeCtr + 1 } u ∧ s.defaultRoutes = { u with routeDue := false } :=
    ⟨_, RegsOnly.foldl (List.range 512) (fun _ w _ => .setReg _ _ ⟨w, rfl⟩) _, rfl⟩
  obtain ⟨u, hu, he⟩ := hrest
  rw [he]
  refine ⟨hu.reg A.member ?_, SameMemory.trans (.of_eq rfl rfl rfl) (hu.sameMemory.trans (.of_eq rfl rfl rfl))⟩
  rintro ⟨w, hw⟩
  simp only [A.member, A.route, A.ekb] at hw
  omega

/-- An epoch is adopted in EKB_MEMBER first; then the old one's sessions end. -/
theorem State.adoptEpoch_eq (s : State) (e : Nat) :
    ∃ u, RegsOnly (· = A.member) s u ∧ u.reg A.member = adopted (s.reg A.member) e ∧ s.adoptEpoch e = u.newEpochEffects := by
  unfold State.adoptEpoch adopted
  extract_lets w1 seen s1 s2
  have h1 : RegsOnly (· = A.member) s s1 := .setReg _ _ rfl
  have hw1 : s1.reg A.member = w1 := State.reg_setReg_same ..
  refine ⟨s2, .ite (h1.trans (.setReg _ _ rfl)) h1, ?_, rfl⟩
  show (if (s.bit A.member 48 && !newerEpoch seen e) = true then s1.setFld A.member 32 17 0 else s1).reg A.member
    = if (s.bit A.member 48 && !newerEpoch seen e) = true then setField w1 32 17 0 else w1
  split
  · rw [State.setFld_eq, State.reg_setReg_same, hw1]
  · exact hw1

theorem State.adoptEpoch_spec (s : State) (e : Nat) {t : State} (ht : s.adoptEpoch e = t) :
    t.reg A.member = adopted (s.reg A.member) e ∧ t.sessions = s.sessions.filter (fun x => 65536 ≤ x.peer) ∧ t.kexs = [] ∧ SameMemory s t := by
  obtain ⟨u, hu, hword, he⟩ := s.adoptEpoch_eq e
  obtain ⟨hreg, hsessions, hkexs, hmem⟩ := u.newEpochEffects_spec
  rw [← he, ht] at hreg hsessions hkexs hmem
  have hs : u.sessions = s.sessions := by rw [hu.rest]
  exact ⟨hreg.trans hword, hs ▸ hsessions, hkexs, hu.sameMemory.trans hmem⟩

theorem State.becomeMember_spec (s : State) (m e : Nat) {t : State} (ht : s.becomeMember m e = t) :
    t.reg A.member = adopted (setField (setField (s.reg A.member) 0 12 m) 12 2 1) e ∧ SameMemory s t := by
  unfold State.becomeMember at ht
  extract_lets s1 s2 at ht
  obtain ⟨hreg, -, -, hmem⟩ := s1.adoptEpoch_spec e rfl
  obtain ⟨hroutes, hrmem⟩ := s2.defaultRoutes_spec
  have hword : s1.reg A.member = setField (setField (s.reg A.member) 0 12 m) 12 2 1 := by simp [s1]
  have hs : SameMemory s s1 := .of_eq rfl rfl rfl
  rw [← hword, ← ht]
  split
  · exact ⟨hreg, hs.trans hmem⟩
  · exact ⟨hroutes.trans hreg, hs.trans (hmem.trans hrmem)⟩

/-- A write with GO makes the module a member: it is not one, or it is quarantined and owns no region (R316, R335). -/
theorem State.ekbJoin_enters {m e : Nat} (h : s.fieldN A.member 12 2 = 0 ∨ s.fieldN A.member 12 2 = 2 ∧ s.anyOwned = false) :
    s.ekbJoin m e = s.becomeMember m e := by
  obtain h | ⟨h, ho⟩ := h
  · simp only [State.ekbJoin, h]
  · simp [State.ekbJoin, h, ho]

section
variable {m e : Nat} (h : s.isMember = true)
include h

theorem State.ekbJoin_member : s.ekbJoin m e = if m = s.modNum ∧ newerEpoch e s.fabEpoch then s.adoptEpoch e else s.bump A.joinRefused 1 := by
  have h : s.fieldN A.member 12 2 = 1 := by simpa [State.isMember] using h
  simp only [State.ekbJoin, h]

theorem State.ekbJoin_adopts (hm : m = s.modNum) (he : newerEpoch e s.fabEpoch = true) : s.ekbJoin m e = s.adoptEpoch e :=
  (State.ekbJoin_member h).trans (if_pos ⟨hm, he⟩)

theorem State.ekbJoin_refused (hn : m ≠ s.modNum ∨ newerEpoch e s.fabEpoch = false) : s.ekbJoin m e = s.bump A.joinRefused 1 :=
  (State.ekbJoin_member h).trans (if_neg fun ⟨hm, he⟩ => by simp [hm, he] at hn)

end

/-- What EKB_MEMBER tells: a member of number `m` in epoch `e`. -/
def State.Joined (s : State) (m e : Nat) : Prop := s.isMember = true ∧ s.modNum = m ∧ s.fabEpoch = e

theorem State.joined_of_word {w : Reg64} {m e : Nat} (he : e < 65536) (ht : t.reg A.member = adopted w e) (h1 : regField w 12 2 = 1)
    (hm : regField w 0 12 = m) : t.Joined m e := by
  unfold State.Joined State.isMember State.modNum State.fabEpoch State.fieldN
  rw [ht, regField_adopted_below w e (by decide), regField_adopted_below w e (by decide), regField_adopted_epoch w he, h1, hm]
  exact ⟨rfl, rfl, rfl⟩

theorem State.becomeMember_joined {m e : Nat} (hm : m < 4096) (he : e < 65536) (ht : s.becomeMember m e = t) :
    t.Joined m e ∧ t.bit A.member 48 = (s.bit A.member 48 && newerEpoch (s.fieldN A.member 32 16) e) ∧ SameMemory s t := by
  obtain ⟨hword, hmem⟩ := s.becomeMember_spec m e ht
  refine ⟨State.joined_of_word he hword ?_ ?_, ?_, hmem⟩
  · exact regField_setField _ _ _ _ (by decide)
  · exact (regField_setField_ne _ _ _ _ _ _ (.inl (by decide))).trans ((regField_setField _ _ _ _ (by decide)).trans (Nat.mod_eq_of_lt hm))
  · rw [State.bit, hword, adopted_newerSeen, setField_testBit, if_neg (by decide), setField_testBit, if_neg (by decide),
      regField_setField_ne _ _ _ _ _ _ (.inr (by decide)), regField_setField_ne _ _ _ _ _ _ (.inr (by decide))]
    rfl

theorem State.adoptEpoch_joined {e : Nat} (h : s.isMember = true) (he : e < 65536) (ht : s.adoptEpoch e = t) : t.Joined s.modNum e :=
  State.joined_of_word he (s.adoptEpoch_spec e ht).1 (by simpa [State.isMember, State.fieldN] using h) rfl

/-- What a write of EKB_JOIN with GO comes to. -/
theorem State.ekbJoin_spec {m e : Nat} (hm : m < 4096) (he : e < 65536) (ht : s.ekbJoin m e = t) :
    ((s.fieldN A.member 12 2 = 0 ∨ s.fieldN A.member 12 2 = 2 ∧ s.anyOwned = false) →
      t.Joined m e ∧ t.bit A.member 48 = (s.bit A.member 48 && newerEpoch (s.fieldN A.member 32 16) e))
    ∧ (s.isMember = true → m = s.modNum → newerEpoch e s.fabEpoch = true →
      t.Joined m e ∧ t.sessions = s.sessions.filter (fun x => 65536 ≤ x.peer) ∧ t.kexs = [])
    ∧ (s.isMember = true → (m ≠ s.modNum ∨ newerEpoch e s.fabEpoch = false) → t = s.bump A.joinRefused 1)
    ∧ SameMemory s t := by
  refine ⟨fun h => ?_, fun h hn hnew => ?_, fun h hn => ht.symm.trans (State.ekbJoin_refused h hn), ?_⟩
  · obtain ⟨hjoined, hseen, -⟩ := State.becomeMember_joined hm he ((State.ekbJoin_enters h).symm.trans ht)
    exact ⟨hjoined, hseen⟩
  · have hadopt : s.adoptEpoch e = t := (State.ekbJoin_adopts h hn hnew).symm.trans ht
    obtain ⟨-, hsessions, hkexs, -⟩ := s.adoptEpoch_spec e hadopt
    exact ⟨hn ▸ State.adoptEpoch_joined h he hadopt, hsessions, hkexs⟩
  · subst ht
    have hcount : SameMemory s (s.bump A.joinRefused 1) := (SameMemory.refl s).bump
    obtain ⟨-, hbecome⟩ := s.becomeMember_spec m e rfl
    obtain ⟨-, -, -, hadopt⟩ := s.adoptEpoch_spec e rfl
    unfold State.ekbJoin
    split
    · exact hbecome
    · exact .ite hadopt hcount
    · exact .ite hcount hbecome

/-- Settles O24, register by register: each write reaches its register and takes the register's own action. -/
theorem plinthWritesAct : Obligations.PlinthWritesAct := by
  refine ⟨fun s p d hp => ⟨fun ms hm h => ?_, fun c job valid hc hj h => ?_, fun tail hm h => ?_, fun mode hm h => ?_⟩, fun s p m e d hp hm he h => ?_⟩
  · refine ⟨_, exec_ekbGraceWrite hp hm h, ?_, fun b hb => State.reg_setReg_ne _ _ hb⟩
    rw [State.regN_setReg_same]
    omega
  · obtain ⟨hbit, hjob, hother, hmem⟩ := State.ctxJobWrite_spec (s := s) (c := c) (valid := valid) hj rfl
    refine ⟨_, exec_ekbCtxJobWrite hp hc hj h, ?_, hjob, hother, hmem⟩
    rw [hbit, Bool.and_eq_true, Bool.not_eq_true', State.jobTaken_false_iff]
  · have hmod : tail % 2 ^ 32 = tail := Nat.mod_eq_of_lt hm
    have hused : s.mboxUsed (tail % 2 ^ 32) = (s.mboxHead + 2 ^ 32 - tail) % 2 ^ 32 := by rw [State.mboxUsed, hmod, hmod]
    refine ⟨_, exec_cfgMboxOutTail hp hm h, fun hover => State.mboxTail_ignored (hused ▸ hover), fun hfit hn => ?_⟩
    rw [State.mboxTail_stored (hused ▸ hfit) hn, State.regN_setReg_same, hmod]
    exact ⟨by omega, fun b hb => State.reg_setReg_ne _ _ hb⟩
  · refine ⟨_, exec_memMlmWin hp hm h, ?_, State.mlmWinWrite_refused, fun h3 ho hmode => ?_⟩
    · rintro rfl
      exact s.mlmWinWrite_reserved
    · rw [State.mlmWinWrite_taken h3 ho hmode, State.regN_setReg_same]
      exact ⟨by omega, fun b hb => State.reg_setReg_ne _ _ hb⟩
  · obtain ⟨henters, hadopts, hrefused, hmem⟩ := State.ekbJoin_spec (s := s) hm he rfl
    refine ⟨_, exec_ekbJoin hp hm he h, fun hj => ?_, fun h1 h2 h3 => ?_, hrefused, hmem⟩
    · obtain ⟨⟨hmember, hnum, hepoch⟩, hseen⟩ := henters hj
      exact ⟨hmember, hnum, hepoch, hseen⟩
    · obtain ⟨⟨hmember, hnum, hepoch⟩, hsessions, hkexs⟩ := hadopts h1 h2 h3
      exact ⟨hmember, hnum, hepoch, hsessions, hkexs⟩

end Sys2Proof.Machine
end

section
/-!
SUPPORT. A RECV decides (R350, R351, R353, R357, R367): the decision itself, and what its accesses leave alone (R49).
-/
namespace Sys2Proof.Machine

variable {r k c id : Nat} {b s t u : State}

/-! ### The registers of the context's reductions -/

theorem redExcluded_ne_rtr (hc : c < 16) (r o : Nat) : A.redExcluded c ≠ A.rtr r o := by
  simp only [A.redExcluded, A.red, A.rtr]
  omega

theorem redExcluded_not_data (hc : c < 16) : ¬ DataReg (A.redExcluded c) := fun h => by
  have hplace := h.place
  simp only [A.redExcluded, A.red] at hplace
  omega

/-! ### Places that stay where they are -/

theorem Sparse.mem_after {α : Type} {a : Nat} {p : Nat × α} {m : Sparse α} (h : p ∈ Sparse.after a m) : p ∈ m := by
  induction m with
  | nil => exact h
  | cons e m ih =>
    unfold Sparse.after at h
    split at h
    · exact List.mem_cons_of_mem _ (ih h)
    · exact h

/-- A write brings no entry but its own into a sparse list. -/
theorem Sparse.mem_set {α : Type} [DecidableEq α] {d v : α} {a : Nat} {p : Nat × α} {m : Sparse α} (h : p ∈ Sparse.set d m a v) :
    p = (a, v) ∨ p ∈ m := by
  induction m with
  | nil =>
    unfold Sparse.set at h
    split at h
    · exact .inr h
    · exact List.mem_cons.mp h
  | cons e m ih =>
    unfold Sparse.set at h
    split at h
    · split at h
      · exact .inr h
      · exact List.mem_cons.mp h
    · split at h
      · split at h
        · exact .inr (List.mem_cons_of_mem _ (Sparse.mem_after h))
        · exact (List.mem_cons.mp h).imp id (List.mem_cons_of_mem _)
      · rcases List.mem_cons.mp h with h | h
        · exact .inr (h ▸ List.mem_cons_self)
        · exact (ih h).imp id (List.mem_cons_of_mem _)

/-- R49: a cluster whose accesses stand lets none more wait. -/
theorem State.untimedLeft_setCl {x : Cluster} {home : Nat} (hx : x.uaccs = (s.cl r k).uaccs) (h : s.untimedLeft home id = false) :
    (s.setCl r k x).untimedLeft home id = false := by
  rw [← Bool.not_eq_true] at h ⊢
  refine fun hleft => h ?_
  rcases Bool.or_eq_true _ _ ▸ hleft with hcl | hrg
  · obtain ⟨p, hp, hany⟩ := List.any_eq_true.mp hcl
    rcases Sparse.mem_set hp with rfl | hp
    · exact State.Waits.untimedLeft (.inl ⟨r, k, hx ▸ hany⟩)
    · exact (Bool.or_eq_true _ _).mpr (.inl (List.any_eq_true.mpr ⟨p, hp, hany⟩))
  · exact (Bool.or_eq_true _ _).mpr (.inr hrg)

/-- From `s` to `t` nothing has changed by which a place is found or held: exclusions of context `c`, commands in flight, and what contexts
have received apart, the state stands. -/
structure SamePlaces (c : Nat) (s t : State) : Prop where
  rest    : t = { s with regs := t.regs, hidden := t.hidden, counted := t.counted, clusters := t.clusters, ctxs := t.ctxs }
  reg     : ∀ a, a ≠ A.redExcluded c → t.reg a = s.reg a
  buckets : ∀ c', (t.cx c').buckets = (s.cx c').buckets
  snap    : ∀ c', (t.cx c').snap = (s.cx c').snap
  slices  : ∀ r k, (t.cl r k).slices = (s.cl r k).slices
  idle    : ∀ home id, s.untimedLeft home id = false → t.untimedLeft home id = false

namespace SamePlaces

theorem trans (h : SamePlaces c s t) (h' : SamePlaces c t u) : SamePlaces c s u where
  rest := h'.rest.trans (congrArg (fun v : State => { v with
    regs := u.regs, hidden := u.hidden, counted := u.counted, clusters := u.clusters, ctxs := u.ctxs }) h.rest)
  reg a ha := (h'.reg a ha).trans (h.reg a ha)
  buckets c' := (h'.buckets c').trans (h.buckets c')
  snap c' := (h'.snap c').trans (h.snap c')
  slices r k := (h'.slices r k).trans (h.slices r k)
  idle home id hi := h'.idle home id (h.idle home id hi)

theorem bump (s : State) (n : Nat) : SamePlaces c s (s.bump (A.redExcluded c) n) where
  rest := by
    unfold State.bump
    split
    · rfl
    · rfl
  reg _ ha := s.reg_bump_ne n ha
  buckets c' := by rw [State.cx_bump]
  snap c' := by rw [State.cx_bump]
  slices r k := by rw [State.cl_bump]
  idle home id hi := by
    unfold State.untimedLeft
    rw [State.bump_clusters, State.bump_regions]
    exact hi

theorem setCx {c' : Nat} {x : Ctx} (hb : x.buckets = (s.cx c').buckets) (hs : x.snap = (s.cx c').snap) : SamePlaces c s (s.setCx c' x) where
  rest := rfl
  reg _ _ := rfl
  buckets d := by
    rw [State.cx_setCx]
    split
    · next e => rw [hb, e]
    · rfl
  snap d := by
    rw [State.cx_setCx]
    split
    · next e => rw [hs, e]
    · rfl
  slices _ _ := rfl
  idle _ _ hi := hi

theorem setCl {x : Cluster} (hs : x.slices = (s.cl r k).slices) (hx : x.uaccs = (s.cl r k).uaccs) : SamePlaces c s (s.setCl r k x) where
  rest := rfl
  reg _ _ := rfl
  buckets _ := rfl
  snap _ := rfl
  slices r' k' := by
    rw [State.cl_setCl]
    split
    · next e => rw [hs, State.cl, State.cl, e]
    · rfl
  idle _ _ hi := State.untimedLeft_setCl hx hi

section
variable (h : SamePlaces c s t) (hc : c < 16)
include h

theorem active : t.active = s.active := (congrArg State.active h.rest).trans rfl
theorem rg (r : Nat) : t.rg r = s.rg r := (congrArg (fun v => State.rg v r) h.rest).trans rfl
theorem regionsOf (c' : Nat) : t.regionsOf c' = s.regionsOf c' := (congrArg (fun v => State.regionsOf v c') h.rest).trans rfl
theorem entry (a : Nat) : t.entry a = s.entry a := (congrArg (fun v => State.entry v a) h.rest).trans rfl
theorem dieReset : t.dieReset = s.dieReset := (congrArg State.dieReset h.rest).trans rfl

include hc

/-- Offsets below the reductions' block and at or above the fabric's (R510) name other registers. -/
theorem reg_outside {a : Nat} (ha : a < 0x19000 ∨ 0x20000 ≤ a) : t.reg a = s.reg a :=
  h.reg a (by simp only [A.redExcluded, A.red]; omega)

theorem outOk (a : Nat) : t.outOk a = s.outOk a := by
  have hstatus (p : Nat) : t.reg (A.cxlStatus p) = s.reg (A.cxlStatus p) := h.reg_outside hc (.inr (by simp only [A.cxlStatus, A.cxl]; omega))
  have hcap (p : Nat) : t.reg (A.cxlCap p) = s.reg (A.cxlCap p) := h.reg_outside hc (.inr (by simp only [A.cxlCap, A.cxl]; omega))
  have hwin : t.reg A.mlmWin = s.reg A.mlmWin := h.reg_outside hc (.inl (by decide))
  have hport : t.mlmUp (s.mlmPort a) = s.mlmUp (s.mlmPort a) := by
    have hm := s.mlmPort_lt a
    have hreg : t.reg (A.mlmStatus (s.mlmPort a)) = s.reg (A.mlmStatus (s.mlmPort a)) :=
      h.reg_outside hc (.inl (by simp only [A.mlmStatus, A.mem]; omega))
    unfold State.mlmUp State.dataProt State.bit State.fieldN
    rw [hreg, h.active]
  have hmlm : t.mlmPort a = s.mlmPort a := by
    unfold State.mlmPort State.fieldN
    rw [hwin]
  unfold State.outOk State.bit State.fieldN
  simp only [hstatus, hcap, hmlm, hport]

/-- R253: a walk reads its context's root, the tables in memory, and what answers. -/
theorem walk {c' : Nat} (hroot : t.reg (A.ctxRoot c') = s.reg (A.ctxRoot c')) (va : Nat) : t.walk c' va = s.walk c' va := by
  unfold State.walk State.leafPage State.regN
  simp only [hroot, h.entry, h.outOk hc]

theorem windowAt (hr : r < 48) (off swz : Nat) : t.windowAt r off swz = s.windowAt r off swz := by
  have hshape : t.reg (A.regionShape r) = s.reg (A.regionShape r) := h.reg_outside hc (.inl (by have := A.regionShape_lt hr; omega))
  unfold State.windowAt
  simp only [State.nClusters_congr hshape, State.physOf_congr hshape]

theorem window (hr : r < 48) (c' swz va : Nat) : t.window c' (some r) swz va = s.window c' (some r) swz va := by
  have hlog (n : Nat) : t.logRegion c' n = s.logRegion c' n := congrArg (·[n]?) (h.regionsOf c')
  unfold State.window
  simp only [hlog, h.windowAt hc hr]
  cases hg : s.logRegion c' ((va - winBase) / 0x4000000) with
  | none => rfl
  | some g =>
    have hlt : g < 48 := List.mem_range.mp (List.mem_of_mem_filter (List.mem_of_getElem? hg))
    simp only [h.windowAt hc hlt]

theorem locNow {c' : Nat} (hr : r < 48) (hc' : c' < 16) (swz va : Nat) : t.locNow r c' swz va = s.locNow r c' swz va := by
  have hwalk := h.walk hc (h.reg_outside hc (a := A.ctxRoot c') (.inl (by simp only [A.ctxRoot, A.mem]; omega))) va
  unfold State.locNow
  simp only [h.rg, h.outOk hc, hwalk, h.window hc hr]

theorem recPlaces {c' : Nat} (hr : r < 48) (hc' : c' < 16) (a n : Nat) : t.recPlaces r c' a n = s.recPlaces r c' a n :=
  List.map_congr_left fun va _ => h.locNow hc hr hc' 0 va

/-- A RECV or RDOWN of context `c` reaches what it reached. -/
theorem decPlaces (hr : r < 48) (ho : (s.rg r).owner = some c) (l : Lri) : t.decPlaces r l = s.decPlaces r l := by
  have hbucket (i : Nat) : (t.cx c).bucket i = (s.cx c).bucket i := by rw [Ctx.bucket, h.buckets, Ctx.bucket]
  unfold State.decPlaces State.recvPlaces State.rdownPlaces
  simp only [h.rg, ho, Option.getD_some, hbucket, h.recPlaces hc hr hc]

theorem stack (a : Nat) : t.stack a = s.stack a := by
  unfold State.stack State.fieldN
  rw [h.reg_outside hc (.inl (by decide))]

theorem hbmBit (a i : Nat) : t.bit (A.hbmStatus (s.stack a)) i = s.bit (A.hbmStatus (s.stack a)) i :=
  congrArg (fun w : Reg64 => w.toNat.testBit i) (h.reg_outside hc (.inr (by simp only [A.hbmStatus, A.hbm]; omega)))

theorem recalHeld (l : Loc) : t.recalHeld l = s.recalHeld l := by
  cases l with
  | page p a => simp only [State.recalHeld, h.stack hc, h.hbmBit hc]
  | chip a => rfl
  | bad f => rfl

theorem placeHeld (l : Loc) : t.placeHeld l = s.placeHeld l := by
  cases l with
  | page p a => simp only [State.placeHeld, State.stackUp, h.stack hc, h.hbmBit hc]
  | chip a => simp only [State.placeHeld, State.sliceHeld, h.dieReset, h.slices]
  | bad f => rfl

omit hc in
theorem snapWaits (ls : List Loc) : t.snapWaits ls = s.snapWaits ls := by
  have hpart : t.pendingPart = s.pendingPart := funext fun l => by
    cases l with
    | page p a => simp only [State.pendingPart, State.snapPending, h.snap]
    | chip a => rfl
    | bad f => rfl
  unfold State.snapWaits
  rw [hpart]

end

end SamePlaces

/-! ### What follows a decision -/

/-- From `b` to `s` a decision of context `c` on command `id` stands: what the context has received and its exclusions are as they were, and the
command, where it is in flight, has decided. -/
structure DecisionStands (r k c id : Nat) (b s : State) : Prop where
  ctx      : c < 16
  prx      : (s.cx c).prx = (b.cx c).prx
  rx       : (s.cx c).rx = (b.cx c).rx
  excluded : s.reg (A.redExcluded c) = b.reg (A.redExcluded c)
  decided  : ∀ l ∈ (s.cl r k).lris, l.id = id → l.mv.dec.isSome = true

namespace DecisionStands

section
variable (h : DecisionStands r k c id b s)
include h

theorem of_eq (hx : t.cx c = s.cx c) (he : t.reg (A.redExcluded c) = s.reg (A.redExcluded c)) (hl : (t.cl r k).lris = (s.cl r k).lris) :
    DecisionStands r k c id b t :=
  ⟨h.ctx, by rw [hx, h.prx], by rw [hx, h.rx], he.trans h.excluded, hl ▸ h.decided⟩

theorem data (hd : DataStep s t) : DecisionStands r k c id b t :=
  h.of_eq (hd.cx c) (hd.reg _ (redExcluded_not_data h.ctx)) (congrArg Cluster.lris (hd.cl r k))

theorem bump {a n : Nat} (ha : A.redExcluded c ≠ a) : DecisionStands r k c id b (s.bump a n) :=
  h.of_eq (s.cx_bump a n c) (s.reg_bump_ne n ha) (congrArg Cluster.lris (s.cl_bump a n r k))

theorem bumpRtr {r' o n : Nat} : DecisionStands r k c id b (s.bump (A.rtr r' o) n) := h.bump (redExcluded_ne_rtr h.ctx r' o)

theorem bumpLow {a n : Nat} (ha : a < 0x19000) : DecisionStands r k c id b (s.bump a n) :=
  h.bump (by simp only [A.redExcluded, A.red]; omega)

theorem setRtr {r' o : Nat} {w : Reg64} : DecisionStands r k c id b (s.setReg (A.rtr r' o) w) :=
  h.of_eq rfl (s.reg_setReg_ne w (redExcluded_ne_rtr h.ctx r' o)) rfl

theorem setRg {r' : Nat} {g : Region} : DecisionStands r k c id b (s.setRg r' g) := h.of_eq rfl rfl rfl

theorem setCl {r' k' : Nat} {x : Cluster} (hx : ∀ l ∈ x.lris, l ∈ (s.cl r' k').lris ∨ l.mv.dec.isSome = true) :
    DecisionStands r k c id b (s.setCl r' k' x) := by
  refine ⟨h.ctx, h.prx, h.rx, h.excluded, ?_⟩
  rw [State.cl_setCl]
  split
  · next e =>
    have hcl : s.cl r' k' = s.cl r k := by rw [State.cl, State.cl, e]
    exact fun l hl hid => (hx l hl).elim (fun hl => h.decided l (hcl ▸ hl) hid) fun hdec => hdec
  · exact h.decided

theorem setCl_same {r' k' : Nat} {x : Cluster} (hx : x.lris = (s.cl r' k').lris := by rfl) : DecisionStands r k c id b (s.setCl r' k' x) :=
  h.setCl fun _ hl => .inl (hx ▸ hl)

theorem setCx {c' : Nat} {x : Ctx} (hp : x.prx = (s.cx c').prx := by rfl) (hr : x.rx = (s.cx c').rx := by rfl) :
    DecisionStands r k c id b (s.setCx c' x) := by
  refine ⟨h.ctx, ?_, ?_, h.excluded, h.decided⟩
  · rw [← h.prx, State.cx_setCx]
    split
    · next e => rw [hp, e]
    · rfl
  · rw [← h.rx, State.cx_setCx]
    split
    · next e => rw [hr, e]
    · rfl

end

theorem ite {p : Prop} [Decidable p] (hs : DecisionStands r k c id b s) (ht : DecisionStands r k c id b t) :
    DecisionStands r k c id b (if p then s else t) := by
  split
  · exact hs
  · exact ht

theorem foldl {α : Type} {f : State → α → State} (l : List α) (hf : ∀ s x, DecisionStands r k c id b s → DecisionStands r k c id b (f s x))
    (h : DecisionStands r k c id b s) : DecisionStands r k c id b (l.foldl f s) := List.foldlRecOn l f h fun s h x _ => hf s x h

section
variable {r' k' : Nat} (h : DecisionStands r k c id b s)
include h

theorem incFlag {v n : Nat} : DecisionStands r k c id b (s.incFlag r' k' v n) := by
  unfold State.incFlag
  split
  case h_1 => exact h
  case h_2 => exact h.bumpRtr
  case h_3 => exact h.setCl_same.setRg.bumpRtr
  case h_4 => exact h.setRg.bumpRtr
  case h_5 =>
    split
    · exact h.setRg
    · exact h.bumpRtr
  case h_6 => exact h.setRg
  case h_7 => exact h.setRg

theorem doneFlag {x : Cmd512} : DecisionStands r k c id b (s.doneFlag r' k' x) := .ite h.incFlag h

theorem laterFlag {n : Nat} {x : Cmd512} : DecisionStands r k c id b (s.laterFlag r' k' n x) := .ite h.setCl_same h

theorem finishMover {l : Lri} {dropped : Bool} : DecisionStands r k c id b (s.finishMover r' k' l dropped) := by
  have h1 : DecisionStands r k c id b (s.modCl r' k' fun x => { x with lris := x.lris.filter fun y => y.id != l.id }) :=
    h.setCl fun _ hl => .inl (List.mem_of_mem_filter hl)
  unfold State.finishMover
  extract_lets s1 x n s2
  have h2 : DecisionStands r k c id b s2 := .ite (.ite h1.doneFlag h1.laterFlag) h1.laterFlag
  exact h2.bumpRtr

theorem recordFault {kind va lk source mover tag : Nat} : DecisionStands r k c id b (s.recordFault r' kind va lk source mover tag) :=
  .ite h.bumpRtr h.bumpRtr.setRtr.setRtr

theorem queueUntimed {home i : Nat} {ls : List Loc} : DecisionStands r k c id b (s.queueUntimed home i ls) :=
  foldl _ (fun _ _ h => .ite h.setRg h.setCl_same) h

theorem slip {x : EUnit} {i tag n : Nat} {wr : Bool} : DecisionStands r k c id b (s.slip r' k' x i tag wr n) := by
  unfold State.slip
  extract_lets y hs has s1
  have h1 : DecisionStands r k c id b s1 := h.bumpRtr.bumpRtr.bumpRtr
  split
  · exact h1
  · exact .ite h1 h1.setCl_same

theorem mvSlips {l : Lri} {src dst : List Loc} : DecisionStands r k c id b (s.mvSlips r' k' l src dst) :=
  foldl _ (fun _ _ h => h.slip) (foldl _ (fun _ _ h => h.slip) h)

theorem promote {ls : List Loc} : DecisionStands r k c id b (s.promote ls) := by
  refine foldl _ (fun s l h => ?_) h
  split
  · exact .ite h.setCx h
  · exact h

theorem waitSnap {counted : Bool} {ls : List Loc} : DecisionStands r k c id b (s.waitSnap counted ls) := (h.bumpLow (by decide)).promote

theorem endWait {waited : Bool} {ls : List Loc} : DecisionStands r k c id b (s.endWait waited ls) := by
  unfold State.endWait
  split
  · exact bumpLow (a := A.snapWaitNs) (h.of_eq (t := (s.free _).2) rfl rfl rfl) (by decide)
  · exact h

theorem noteTorn {ls : List Loc} : DecisionStands r k c id b (s.noteTorn ls) := by
  refine foldl _ (fun s p h => ?_) (h.bumpLow (by decide))
  split
  · exact h.setCx (by dsimp only; split <;> rfl) (by dsimp only; split <;> rfl)
  · exact h

theorem writeOr {l : Lri} {c' a : Nat} {bs : List Byte} : DecisionStands r k c id b (s.writeOr r' k' l c' a bs) := by
  unfold State.writeOr
  split
  · exact h.data (State.writeCtx_data ‹_›)
  · exact h.recordFault

theorem actDec {l : Lri} {x : Bucket} {incl : Bool} {e : Env} : DecisionStands r k c id b (s.actDec r' k' l x incl e) := by
  unfold State.actDec
  dsimp only
  split
  · exact h
  · exact .ite h.writeOr.finishMover h.writeOr.finishMover

theorem setDec {i : Nat} {x : Bool × Env × Bool} :
    DecisionStands r k c id b (s.modCl r' k' fun y => y.modLri i fun z => { z with mv := { z.mv with dec := some x } }) := by
  refine h.setCl fun l hl => ?_
  obtain ⟨m, hm, rfl⟩ := List.mem_map.mp hl
  split
  · exact .inr rfl
  · exact .inl hm

theorem tryDec {i : Nat} : DecisionStands r k c id b (s.tryDec r' k' i) := by
  unfold State.tryDec
  split
  · exact h
  · split
    · exact .ite h (.ite h.setDec.waitSnap (((((h.endWait.noteTorn.data (State.noteReads_data ..)).data (State.noteChip_data ..)).data
        (State.noteTargets_data ..)).mvSlips).actDec))
    · exact h

end

end DecisionStands

/-! ### The decision itself (R351, R353, R367) -/

/-- R351, R353, R367: the parity flips, what was received counts no more, and an exclusion is counted. -/
def State.noteDecision (s : State) (c bidx level : Nat) (incl : Bool) : State :=
  ((s.flipParity c false bidx 0 level).modCx c fun y => y.setGot bidx level 0 level []).bump (A.redExcluded c) (if incl then 0 else 1)

/-- A command keeps what it has decided while its accesses wait (R49). -/
def State.keepDecision (s : State) (r k id : Nat) (incl : Bool) (e : Env) : State :=
  s.modCl r k fun c => c.modLri id fun x => { x with mv := { x.mv with dec := some (incl, e, false) } }

section
variable {bidx phase level left out : Nat} {l : Lri} {x : Bucket} {incl : Bool} {e : Env} {rd wr : List Loc}

theorem Ctx.gotAt_setGot_nil (y : Ctx) (bidx level dir edge dir' edge' : Nat) : (y.setGot bidx level dir edge []).gotAt bidx level dir' edge' = [] := by
  have hnone : ∀ z ∈ (y.setGot bidx level dir edge []).rx, (z.bidx == bidx && z.level == level) = false := by
    intro z hz
    simp only [Ctx.setGot, List.isEmpty_nil, if_true, List.append_nil] at hz
    simpa only [Bool.not_eq_true'] using (List.mem_filter.mp hz).2
  unfold Ctx.gotAt
  rw [List.find?_eq_none.mpr fun z hz => by simp [hnone z hz]]

theorem Ctx.gotAt_congr {y z : Ctx} (hp : y.prx = z.prx) (hr : y.rx = z.rx) (bidx level dir edge : Nat) :
    y.gotAt bidx level dir edge = z.gotAt bidx level dir edge := by
  unfold Ctx.gotAt
  rw [hp, hr]

/-- What a decision leaves of its context and its counter. -/
theorem State.noteDecision_spec (s : State) (c bidx level : Nat) (incl : Bool) (ht : s.noteDecision c bidx level incl = t) :
    Sparse.get 0 (t.cx c).prx (parityKey bidx 0 level) = 1 - Sparse.get 0 (s.cx c).prx (parityKey bidx 0 level)
    ∧ (t.cx c).gotAt bidx level 0 level = []
    ∧ t.reg (A.redExcluded c) = (if incl then s.reg (A.redExcluded c) else BitVec.ofNat 64 (satAdd 48 (s.regN (A.redExcluded c)) 1))
    ∧ ∀ r k, t.cl r k = s.cl r k := by
  subst ht
  refine ⟨?_, ?_, ?_, fun r k => State.cl_bump ..⟩
  · simp [State.noteDecision, State.flipParity, Ctx.setGot, Sparse.get_set_same]
  · rw [State.noteDecision, State.cx_bump, State.modCx_eq, State.cx_setCx_same, Ctx.gotAt_setGot_nil]
  · cases incl with
    | true => rfl
    | false => exact State.reg_bump_one _ _

theorem State.noteDecision_places (s : State) (c bidx level : Nat) (incl : Bool) : SamePlaces c s (s.noteDecision c bidx level incl) :=
  ((SamePlaces.setCx (by rfl) (by rfl)).trans (.setCx (by rfl) (by rfl))).trans (.bump _ _)

theorem State.keepDecision_places (s : State) (r k id : Nat) (incl : Bool) (e : Env) : SamePlaces c s (s.keepDecision r k id incl e) :=
  .setCl rfl rfl

theorem State.decide_eq (ho : (s.rg r).owner = some c) (hl : l.coll = some (bidx, phase, level, left, out)) (incl : Bool) (e : Env) :
    s.decide r k l incl e = (s.noteDecision c bidx level incl).startDec r k l incl e := by
  unfold State.decide
  rw [ho, hl]
  rfl

/-- From the moment of the decision on it stands, whether or not its accesses wait. -/
theorem State.startDec_stands (hc : c < 16) (s : State) (r k : Nat) (l : Lri) (incl : Bool) (e : Env) :
    DecisionStands r k c l.id s (s.startDec r k l incl e) := by
  have h : DecisionStands r k c l.id s (s.keepDecision r k l.id incl e) := by
    refine ⟨hc, rfl, rfl, rfl, fun y hy hid => ?_⟩
    rw [State.keepDecision, State.modCl_eq, State.cl_setCl_same] at hy
    obtain ⟨m, -, rfl⟩ := List.mem_map.mp hy
    by_cases hm : m.id = l.id
    · simp [hm]
    · simp [hm] at hid
  exact h.queueUntimed.tryDec

/-! ### A command whose accesses are none ends at once -/

theorem State.lris_laterFlag (s : State) (r k n : Nat) (x : Cmd512) : ((s.laterFlag r k n x).cl r k).lris = (s.cl r k).lris := by
  unfold State.laterFlag
  split
  · rw [State.modCl_eq, State.cl_setCl_same]
  · rfl

/-- R110: a mover command that ends is in flight no more. -/
theorem State.lris_finishMover (s : State) (r k : Nat) (l : Lri) (dropped : Bool) :
    ((s.finishMover r k l dropped).cl r k).lris = (s.cl r k).lris.filter fun y => y.id != l.id := by
  unfold State.finishMover
  extract_lets s1 y n s2
  have h1 : (s1.cl r k).lris = (s.cl r k).lris.filter fun y => y.id != l.id := congrArg Cluster.lris (s.cl_setCl_same r k _)
  have h2 : (s2.cl r k).lris = (s1.cl r k).lris := by
    simp only [s2]
    split
    · split
      · exact (s1.doneFlag_frame r k l.cmd).lris
      · exact s1.lris_laterFlag ..
    · exact s1.lris_laterFlag ..
  rw [State.retire, State.cl_bump, h2, h1]

theorem State.actDec_ends (hl : l.coll.isSome = true) (s : State) (r k : Nat) (x : Bucket) (incl : Bool) (e : Env) :
    ∀ y ∈ ((s.actDec r k l x incl e).cl r k).lris, y.id ≠ l.id := by
  have ends : ∀ u : State, ∀ y ∈ ((u.finishMover r k l false).cl r k).lris, y.id ≠ l.id := fun u y hy => by
    rw [State.lris_finishMover] at hy
    simpa using (List.mem_filter.mp hy).2
  obtain ⟨f, hf⟩ := Option.isSome_iff_exists.mp hl
  unfold State.actDec
  rw [hf]
  dsimp only
  split
  · exact ends _
  · exact ends _

/-- R49: a decided command with no access at a bank and no hold on its places acts. -/
theorem State.tryDec_acts {waited : Bool} (hl : (s.cl r k).lri id = some l) (hd : l.mv.dec = some (incl, e, waited))
    (hp : s.decPlaces r l = some (x, rd, wr)) (hu : s.untimedLeft (decHome r k) id = false)
    (hh : ∀ y ∈ rd ++ wr, s.placeHeld y = false ∧ s.recalHeld y = false) (hs : s.snapWaits wr = false) :
    ∃ u : State, s.tryDec r k id = u.actDec r k l x incl e := by
  have hheld : ((rd ++ wr).any fun y => s.placeHeld y || s.recalHeld y) = false := List.any_eq_false.mpr fun y hy => by
    obtain ⟨h1, h2⟩ := hh y hy
    simp [h1, h2]
  unfold State.tryDec
  rw [hl]
  dsimp only
  rw [hd, hp]
  dsimp only
  rw [hu, hheld, hs]
  exact ⟨_, rfl⟩

theorem Cluster.lri_modLri {y : Cluster} {f : Lri → Lri} (hf : ∀ l, (f l).id = l.id) (hl : y.lri id = some l) :
    (y.modLri id f).lri id = some (f l) := by
  have hid : l.id = id := by simpa using List.find?_some hl
  have hsame : (fun l : Lri => l.id == id) ∘ (fun l : Lri => if l.id == id then f l else l) = fun l => l.id == id := funext fun l => by
    simp only [Function.comp_apply]
    split
    · rw [hf]
    · rfl
  unfold Cluster.lri at hl ⊢
  rw [Cluster.modLri, List.find?_map, hsame, hl, Option.map_some, if_pos (by simp [hid])]

theorem State.startDec_ends (hc : c < 16) (hr : r < 48) (ho : (s.rg r).owner = some c) (hl : (s.cl r k).lri l.id = some l)
    (hp : s.decPlaces r l = some (x, rd, wr)) (hnone : chipLines (rd ++ wr) = []) (hu : s.untimedLeft (decHome r k) l.id = false)
    (hh : ∀ y ∈ rd ++ wr, s.placeHeld y = false ∧ s.recalHeld y = false) (hs : s.snapWaits wr = false) :
    ∀ y ∈ ((s.startDec r k l incl e).cl r k).lris, y.id ≠ l.id := by
  have h : SamePlaces c s (s.keepDecision r k l.id incl e) := s.keepDecision_places ..
  have hstart : s.startDec r k l incl e = (s.keepDecision r k l.id incl e).tryDec r k l.id := by
    unfold State.startDec State.queueUntimed
    rw [hp]
    dsimp only
    rw [hnone]
    rfl
  have hlri : ((s.keepDecision r k l.id incl e).cl r k).lri l.id = some { l with mv := { l.mv with dec := some (incl, e, false) } } := by
    rw [State.keepDecision, State.modCl_eq, State.cl_setCl_same]
    exact Cluster.lri_modLri (fun _ => rfl) hl
  have hcoll : l.coll.isSome = true := by
    by_contra hcoll
    rw [State.decPlaces, Option.not_isSome_iff_eq_none.mp hcoll] at hp
    exact absurd hp nofun
  obtain ⟨u, hact⟩ := State.tryDec_acts hlri rfl ((h.decPlaces hc hr ho _).trans hp) (h.idle _ _ hu)
    (fun y hy => by rw [h.placeHeld hc, h.recalHeld hc]; exact hh y hy) ((h.snapWaits wr).trans hs)
  rw [hstart, hact]
  exact State.actDec_ends (l := { l with mv := { l.mv with dec := some (incl, e, false) } }) hcoll u r k x incl e

/-! ### The two ways to decide (R350) -/

theorem State.recvOf_lri (h : s.recvOf r k id = some (l, bidx, x, level)) : (s.cl r k).lri l.id = some l ∧ l.id = id := by
  unfold State.recvOf at h
  dsimp only at h
  split at h
  · exact absurd h nofun
  · next m hm =>
    split at h
    · split at h
      · obtain ⟨y, -, hy⟩ := Option.map_eq_some_iff.mp h
        obtain ⟨rfl, -⟩ := Prod.mk.inj hy
        have hid : m.id = id := by simpa using List.find?_some hm
        exact ⟨hid ▸ hm, hid⟩
      · exact absurd h nofun
    · exact absurd h nofun

theorem State.recvRight_decides {ns : Nat} (h : s.recvOf r k id = some (l, bidx, x, level)) (hright : s.rightComplete r bidx level x = true)
    (hns : ∀ d, x.deadlineAt level = some d → ns ≤ d) (e : Env) : s.recvRight r k id ns e = s.decide r k l true e := by
  unfold State.recvRight
  simp only [h, hright, Bool.true_and]
  cases hd : x.deadlineAt level with
  | none => rfl
  | some d => exact if_pos (decide_eq_true (hns d hd))

theorem State.recvDeadline_decides {ns d : Nat} (h : s.recvOf r k id = some (l, bidx, x, level)) (hd : x.deadlineAt level = some d) (hns : d ≤ ns)
    (hlate : s.rightComplete r bidx level x = false ∨ d < ns) (e : Env) : s.recvDeadline r k id ns e = s.decide r k l false e := by
  unfold State.recvDeadline
  simp only [h, hd]
  refine if_pos ?_
  rcases hlate with hlate | hlate
  · simp [hns, hlate]
  · simp [hns, hlate]

end

theorem exec_recvRightComplete (hr : r < 48) (hk : k < 9) (hu : s.up = true) (id ns : Nat) (e : Env) :
    exec (.recvRightComplete r k id ns e) s = .next (s.recvRight r k id ns e) :=
  (if_pos (by simp [Instr.wf, hr, hk])).trans (congrArg Host.Outcome.next (if_pos hu))

theorem exec_recvDeadline (hr : r < 48) (hk : k < 9) (hu : s.up = true) (id ns : Nat) (e : Env) :
    exec (.recvDeadline r k id ns e) s = .next (s.recvDeadline r k id ns e) :=
  (if_pos (by simp [Instr.wf, hr, hk])).trans (congrArg Host.Outcome.next (if_pos hu))

/-- Settles O45: either event is one decision, which stands while its accesses are served and ends at once where there are none. -/
theorem recvDecides : Obligations.RecvDecides := by
  intro s r k id ns e l bidx level left out c cls b hr hk hu hof hop ho hc _ i incl hcase
  have hdec : exec i s = .next (s.decide r k l incl e) := by
    rcases hcase with ⟨rfl, rfl, hright, hns⟩ | ⟨rfl, rfl, d, hd, hns, hlate⟩
    · rw [exec_recvRightComplete hr hk hu, State.recvRight_decides hof hright hns]
    · rw [exec_recvDeadline hr hk hu, State.recvDeadline_decides hof hd hns hlate]
  have hcoll : l.coll = some (bidx, 1, level, left, out) := by rw [Lri.coll, hop]
  obtain ⟨hlri, rfl⟩ := State.recvOf_lri hof
  obtain ⟨hprx, hgot, hcount, hcl⟩ := State.noteDecision_spec s c bidx level incl rfl
  have hstands := State.startDec_stands hc (s.noteDecision c bidx level incl) r k l incl e
  refine .of_exec (hdec.trans (congrArg _ (State.decide_eq ho hcoll incl e)))
    ⟨hstands.prx ▸ hprx, (Ctx.gotAt_congr hstands.prx hstands.rx ..).trans hgot, hstands.decided, hstands.excluded.trans hcount,
      fun rd wr hp hnone hidle hheld hsnap => ?_⟩
  have h := s.noteDecision_places c bidx level incl
  exact State.startDec_ends hc hr (by rw [h.rg, ho]) (by rw [hcl, hlri]) ((h.decPlaces hc hr ho l).trans hp) hnone (h.idle _ _ hidle)
    (fun y hy => by rw [h.placeHeld hc, h.recalHeld hc]; exact hheld y hy) ((h.snapWaits wr).trans hsnap)

end Sys2Proof.Machine
end

section
/-!
SUPPORT. Arming a snapshot: what reading its list leaves, and what is armed or refused (R266, R386, R387).
-/
namespace Sys2Proof.Machine

variable {s t u : State} {c : Nat} {e : Env}

/-! ### Reads write no bytes (R266) -/

theorem State.noteUe_mem (s : State) (g : Nat) : (s.noteUe g).mem = s.mem := by
  unfold State.noteUe
  split
  · rfl
  · dsimp only
    split
    · simp [State.tallyUe, State.setGran]
    · rfl

theorem State.noteGran_mem (s : State) (e : Env) (g : Nat) : (s.noteGran e g).mem = s.mem := by
  have hbad : (if e.bad.contains g then s.noteUe g else s).mem = s.mem := by
    split
    · exact s.noteUe_mem g
    · rfl
  unfold State.noteGran
  dsimp only
  split
  · exact (State.bump_mem ..).trans hbad
  · exact hbad

theorem State.noteCxl_mem (s : State) (g : Nat) : (s.noteCxl g).mem = s.mem := by
  unfold State.noteCxl
  split
  · exact State.bump_mem ..
  · rfl

/-- Reads mark granules and count; they leave every byte. -/
theorem State.noteReads_mem (s : State) (e : Env) (ls : List Loc) : (s.noteReads none e ls).mem = s.mem := by
  unfold State.noteReads
  refine List.foldlRecOn (motive := fun t : State => t.mem = s.mem) _ _ rfl fun t ht p _ => ?_
  dsimp only
  split
  · rwa [ite_self]
  · have hgran (a n : Nat) : ((t.noteGran e p.2).bump a n).mem = s.mem := (State.bump_mem ..).trans ((t.noteGran_mem e p.2).trans ht)
    split
    · exact (State.noteCxl_mem ..).trans (hgran ..)
    · exact hgran ..

/-! ### What an arming leaves -/

/-- The registers that arming a snapshot may write: those that reading its list counts in, SNAP_REFUSED and SNAP_STATUS. -/
inductive ArmReg : Nat → Prop
  | data {a : Nat} (h : DataReg a) : ArmReg a
  | refused : ArmReg A.snapRefused
  | status (c : Nat) : ArmReg (A.snapStatus c)

/-- None of them lies in the health block (R396). -/
theorem not_armReg_health {a : Nat} (h : 0x12000 ≤ a) (h' : a < 0x16000) : ¬ ArmReg a := by
  rintro (hd | _ | c)
  · have := hd.place
    omega
  · simp [A.snapRefused, A.mem] at h'
  · simp only [A.snapStatus, A.mem] at h'
    omega

/-- From `s` to `t` snapshots have been armed or refused, `e` being what the reads of their lists met. -/
structure ArmStep (e : Env) (s t : State) : Prop where
  reg  : ∀ a, ¬ ArmReg a → t.reg a = s.reg a
  cl   : ∀ r k, t.cl r k = s.cl r k
  mem  : t.mem = s.mem
  kept : NoErrors e → SameMemory s t

namespace ArmStep

theorem refl (s : State) : ArmStep e s s := ⟨fun _ _ => rfl, fun _ _ => rfl, rfl, fun _ => .refl s⟩

theorem trans (h : ArmStep e s t) (h' : ArmStep e t u) : ArmStep e s u where
  reg a ha := (h'.reg a ha).trans (h.reg a ha)
  cl r k := (h'.cl r k).trans (h.cl r k)
  mem := h'.mem.trans h.mem
  kept he := (h.kept he).trans (h'.kept he)

theorem regsOnly (h : RegsOnly ArmReg s t) : ArmStep e s t := ⟨h.reg, h.cl, h.mem, fun _ => h.sameMemory⟩

theorem noteList (s : State) (e : Env) (c : Nat) : ArmStep e s (s.noteList e c) where
  reg a ha := (s.noteReads_data none e _).reg a fun h => ha (.data h)
  cl := (s.noteReads_data none e _).cl
  mem := s.noteReads_mem e _
  kept he := (SameMemory.refl s).noteReads he

end ArmStep

/-! ### The three answers to a request (R387) -/

/-- Armed or running: SNAP_STATUS.STATE is 1 or 2. -/
def State.snapRuns (s : State) (c : Nat) : Prop := s.fieldN (A.snapStatus c) 0 3 = 1 ∨ s.fieldN (A.snapStatus c) 0 3 = 2

theorem State.snapArm_running (h : s.snapRuns c) (e : Env) : s.snapArm c e = s.bump A.snapRefused 1 := if_pos h

theorem State.snapArm_refused (h : ¬ s.snapRuns c) (hp : s.snapParts e c = none) :
    s.snapArm c e = ((s.noteList e c).bump A.snapRefused 1).setReg (A.snapStatus c) 4 := by
  refine (if_neg h).trans ?_
  rw [hp]

/-- The state in which a list of parts is armed: no packet of the copier is awaited any more. -/
def State.armed (s : State) (c : Nat) (ps : List Nat) : State :=
  ({ s with sent := s.sent.filter fun x => x.region != snapHome c }.modCx c fun x => { x with snap := ⟨ps, [], [], [], 0, 0, 0⟩ }).setReg
    (A.snapStatus c) (BitVec.ofNat 64 (1 + ps.length * 2 ^ 23))

theorem State.snapArm_armed {ps : List Nat} (h : ¬ s.snapRuns c) (hp : s.snapParts e c = some ps) : s.snapArm c e = (s.noteList e c).armed c ps := by
  refine (if_neg h).trans ?_
  rw [hp]
  rfl

theorem State.armed_step (s : State) (c : Nat) (ps : List Nat) : ArmStep e s (s.armed c ps) where
  reg _ ha := State.reg_setReg_ne _ _ fun h => ha (h ▸ .status c)
  cl _ _ := rfl
  mem := rfl
  kept _ := .of_eq rfl rfl rfl

/-- Whatever the answer, an arming writes its own registers and its context. -/
theorem State.snapArm_step (s : State) (c : Nat) (e : Env) : ArmStep e s (s.snapArm c e) := by
  by_cases hrun : s.snapRuns c
  · rw [State.snapArm_running hrun]
    exact .regsOnly (.bump s 1 .refused)
  · cases hp : s.snapParts e c with
    | none =>
      rw [State.snapArm_refused hrun hp]
      exact (ArmStep.noteList s e c).trans (.regsOnly (.trans (.bump _ 1 .refused) (.setReg _ _ (.status c))))
    | some ps =>
      rw [State.snapArm_armed hrun hp]
      exact (ArmStep.noteList s e c).trans (State.armed_step _ c ps)

end Sys2Proof.Machine
end

section
/-!
SUPPORT. The health monitor: the risk it shows, its trigger and its rearming (R383, R384).
-/
namespace Sys2Proof.Machine

variable {s : State}

/-! ### The risk shown (R383) -/

/-- The risk of the state's five scores. -/
def State.riskNow (s : State) : Nat := min 255 (sumNat s.scores)

/-- HLT_RISK: the risk in its lowest byte, the scores above it. -/
def State.riskWord (s : State) : Nat := s.riskNow + sumNat (numberFrom (fun i x => x * 2 ^ (8 * (i + 1))) 0 s.scores)

/-- The state once a tick has taken its tallies and shown its risk. -/
def State.riskShown (s : State) : State :=
  { s with health := { s.health with hist := (s.health.tally :: s.health.hist).take 6001, since := s.health.since.map fun n => n + 1 } }.setReg A.risk
    (BitVec.ofNat 64 s.riskWord)

/-- A sum is divisible by what divides each number of it. -/
theorem dvd_sumNat {n : Nat} : ∀ {l : List Nat}, (∀ x ∈ l, n ∣ x) → n ∣ sumNat l
  | [], _ => Nat.dvd_zero n
  | x :: l, h => Nat.dvd_add (h x (by simp)) (dvd_sumNat fun y hy => h y (by simp [hy]))

/-- The scores leave the lowest byte to the risk. -/
theorem State.riskWord_low (s : State) : s.riskWord % 256 = s.riskNow := by
  have hscores : 256 ∣ sumNat (numberFrom (fun i x => x * 2 ^ (8 * (i + 1))) 0 s.scores) := dvd_sumNat fun y hy => by
    obtain ⟨i, x, -, rfl⟩ := mem_numberFrom hy
    exact Dvd.dvd.mul_left (pow_dvd_pow 2 (show 8 ≤ 8 * (i + 1) by omega)) x
  have hrisk : s.riskNow ≤ 255 := Nat.min_le_left ..
  unfold State.riskWord
  omega

theorem State.fieldN_risk {t : State} (h : t.reg A.risk = BitVec.ofNat 64 s.riskWord) : t.fieldN A.risk 0 8 = s.riskNow := by
  have hlow := s.riskWord_low
  rw [State.fieldN, h]
  simp only [regField, field, BitVec.toNat_ofNat, Nat.shiftRight_zero]
  omega

theorem State.reg_riskShown (s : State) {a : Nat} (ha : a ≠ A.risk) : s.riskShown.reg a = s.reg a := State.reg_setReg_ne _ _ ha

theorem State.reg_risk_riskShown (s : State) : s.riskShown.reg A.risk = BitVec.ofNat 64 s.riskWord := State.reg_setReg_same ..

theorem State.fieldN_snapCtrl_riskShown (s : State) (lo len : Nat) : s.riskShown.fieldN A.snapCtrl lo len = s.fieldN A.snapCtrl lo len :=
  congrArg (regField · lo len) (s.reg_riskShown (by decide))

/-! ### Trigger and rearming (R384) -/

/-- The monitor has never triggered, or HOLDOFF passes with the present tick. -/
def State.holdoffOver (s : State) : Bool :=
  match s.health.since with
  | some n => 100 * s.fieldN A.snapCtrl 8 16 ≤ n + 1
  | none => true

theorem State.holdoffOver_iff : s.holdoffOver = true ↔ ∀ n, s.health.since = some n → 100 * s.fieldN A.snapCtrl 8 16 ≤ n + 1 := by
  unfold State.holdoffOver
  cases s.health.since <;> simp

/-- THRESH is reached with EN, armed and held off long enough. -/
abbrev State.triggers (s : State) : Prop :=
  s.fieldN A.snapCtrl 0 8 ≤ s.riskNow ∧ s.bit A.snapCtrl 24 = true ∧ s.health.armed = true ∧ s.holdoffOver = true

/-- A monitor that is not armed sees the risk below THRESH − 16. -/
abbrev State.rearms (s : State) : Prop := s.health.armed = false ∧ s.riskNow + 16 < s.fieldN A.snapCtrl 0 8

/-- The monitor armed anew. -/
def State.rearmed (s : State) : State := { s with health := { s.health with armed := true } }

/-- A tick of a module at work shows the risk; then it triggers, rearms, or does neither. -/
theorem State.healthTick_eq (hu : s.up = true) (ha : s.activating = false) (e : Env) :
    s.healthTick e = if s.triggers then s.riskShown.trigger e else if s.rearms then s.riskShown.rearmed else s.riskShown := by
  have hbit : s.riskShown.bit A.snapCtrl 24 = s.bit A.snapCtrl 24 := congrArg (fun w : Reg64 => w.toNat.testBit 24) (s.reg_riskShown (by decide))
  have hready : (match s.riskShown.health.since with | some n => Decidable.decide (100 * s.fieldN A.snapCtrl 8 16 ≤ n) | none => true) = s.holdoffOver := by
    unfold State.holdoffOver
    show (match s.health.since.map fun n => n + 1 with | some n => Decidable.decide (100 * s.fieldN A.snapCtrl 8 16 ≤ n) | none => true) = _
    cases s.health.since <;> rfl
  have hrearms : (!s.health.armed && Decidable.decide (s.riskNow + 16 < s.fieldN A.snapCtrl 0 8)) = true ↔ s.rearms := by simp [State.rearms]
  unfold State.triggers
  rw [← hready, ← if_congr hrearms rfl rfl, ← s.fieldN_snapCtrl_riskShown, ← s.fieldN_snapCtrl_riskShown, ← hbit]
  exact if_neg (by simp [hu, ha])

/-- R384: a trigger arms snapshots; then it is counted and reported, and disarms the monitor. -/
theorem State.trigger_eq (s : State) (e : Env) :
    ∃ u, ArmStep e s u ∧ s.trigger e = { (u.bump A.snapTriggers 1).send (.pldm 3 (s.fieldN A.risk 0 8)) with
      health := { u.health with armed := false, since := some 0 } } :=
  ⟨_, List.foldlRecOn (motive := fun u : State => ArmStep e s u) _ _ (.refl s) fun u hu c _ => hu.trans (u.snapArm_step c e), rfl⟩

/-- What a tick does besides: it shows the risk, and leaves clusters and bytes, and all memory where the lists read hold no error. -/
structure Ticked (e : Env) (s t : State) : Prop where
  risk : t.reg A.risk = BitVec.ofNat 64 s.riskWord
  cl   : ∀ r k, t.cl r k = s.cl r k
  mem  : t.mem = s.mem
  kept : NoErrors e → SameMemory s t

theorem State.riskShown_ticked (s : State) (e : Env) : Ticked e s s.riskShown :=
  ⟨s.reg_risk_riskShown, fun _ _ => rfl, rfl, fun _ => .of_eq rfl rfl rfl⟩

theorem State.rearmed_ticked (s : State) (e : Env) : Ticked e s s.riskShown.rearmed :=
  ⟨s.reg_risk_riskShown, fun _ _ => rfl, rfl, fun _ => .of_eq rfl rfl rfl⟩

/-- What a trigger shows, counts and reports. -/
theorem State.trigger_spec (s : State) (e : Env) {t : State} (ht : s.riskShown.trigger e = t) :
    Ticked e s t ∧ t.health.armed = false ∧ t.health.since = some 0
    ∧ t.reg A.snapTriggers = BitVec.ofNat 64 (satAdd 48 (s.regN A.snapTriggers) 1) ∧ OutMsg.pldm 3 s.riskNow ∈ t.outbox := by
  obtain ⟨u, hu, he⟩ := s.riskShown.trigger_eq e
  subst ht
  rw [he]
  have hcount : u.regN A.snapTriggers = s.regN A.snapTriggers :=
    congrArg BitVec.toNat ((hu.reg _ (not_armReg_health (by decide) (by decide))).trans (s.reg_riskShown (by decide)))
  have hrisk : (u.bump A.snapTriggers 1).reg A.risk = BitVec.ofNat 64 s.riskWord :=
    (u.reg_bump_ne 1 (by decide)).trans ((hu.reg _ (not_armReg_health (by decide) (by decide))).trans s.reg_risk_riskShown)
  have hkept : SameMemory u (u.bump A.snapTriggers 1) := (SameMemory.refl u).bump
  refine ⟨⟨hrisk, fun r k => (u.cl_bump ..).trans (hu.cl r k), (u.bump_mem ..).trans hu.mem, fun hne => ?_⟩, rfl, rfl, ?_, ?_⟩
  · exact ((SameMemory.of_eq rfl rfl rfl : SameMemory s s.riskShown).trans (hu.kept hne)).trans (hkept.trans (.of_eq rfl rfl rfl))
  · exact (u.reg_bump_one A.snapTriggers).trans (by rw [hcount])
  · rw [State.fieldN_risk s.reg_risk_riskShown]
    exact List.mem_cons_self

/-- Whatever a tick comes to, it has ticked. -/
theorem State.healthTick_ticked (hu : s.up = true) (ha : s.activating = false) (e : Env) : Ticked e s (s.healthTick e) := by
  rw [State.healthTick_eq hu ha]
  split
  · exact (s.trigger_spec e rfl).1
  · split
    · exact s.rearmed_ticked e
    · exact s.riskShown_ticked e

/-- Below THRESH nothing triggers, and the monitor is armed afterwards where it was or where it rearms. -/
theorem State.healthTick_below (hu : s.up = true) (ha : s.activating = false) (e : Env) (h : s.riskNow < s.fieldN A.snapCtrl 0 8) :
    (s.healthTick e).reg A.snapTriggers = s.reg A.snapTriggers
    ∧ ((s.healthTick e).health.armed = true ↔ s.health.armed = true ∨ s.riskNow + 16 < s.fieldN A.snapCtrl 0 8) := by
  have hshown : s.riskShown.reg A.snapTriggers = s.reg A.snapTriggers := s.reg_riskShown (by decide)
  rw [State.healthTick_eq hu ha, if_neg fun ht => Nat.not_le.mpr h ht.1]
  split
  · next hr => exact ⟨hshown, fun _ => .inr hr.2, fun _ => rfl⟩
  · next hr =>
    refine ⟨hshown, .inl, fun h => h.elim id fun hlow => ?_⟩
    by_contra hdis
    exact hr ⟨Bool.eq_false_iff.mpr hdis, hlow⟩

theorem exec_healthMonitorTick (e : Env) (s : State) : exec (.healthMonitorTick e) s = .next (s.healthTick e) := rfl

/-- Settles O33: a tick shows the risk and then triggers, rearms, or does neither. -/
theorem healthMonitorTriggers : Obligations.HealthMonitorTriggers := by
  intro s e hu ha
  have htick := State.healthTick_ticked hu ha e
  refine .of_exec (exec_healthMonitorTick e s) ⟨State.fieldN_risk htick.risk, fun hthresh hen harmed hheld => ?_, State.healthTick_below hu ha e, htick.cl,
    fun a => by rw [htick.mem], htick.kept⟩
  have htriggers : s.healthTick e = s.riskShown.trigger e :=
    (State.healthTick_eq hu ha e).trans (if_pos ⟨hthresh, hen, harmed, State.holdoffOver_iff.mpr hheld⟩)
  obtain ⟨-, hspec⟩ := s.trigger_spec e htriggers.symm
  exact hspec

end Sys2Proof.Machine
end

section
/-!
SUPPORT. Self-test requests and retirements: the words that ask for them, and what they leave pending (R464, R466, R468).
-/
namespace Sys2Proof.Machine

variable {s : State} {p : Party} {d : RegDef} {r : Nat}

/-! ### Changes of a region's clusters, one after another -/

/-- Each of the region's clusters `ks` takes the change `f`. -/
def State.modCls (s : State) (r : Nat) (ks : List Nat) (f : Cluster → Cluster) : State := ks.foldl (fun s k => s.modCl r k f) s

theorem State.modCls_rest (r : Nat) (f : Cluster → Cluster) (ks : List Nat) (s : State) : ∃ cs, s.modCls r ks f = { s with clusters := cs } := by
  refine List.foldlRecOn (motive := fun t : State => ∃ cs, t = { s with clusters := cs }) ks _ ⟨s.clusters, rfl⟩ ?_
  rintro _ ⟨cs, rfl⟩ k -
  exact ⟨_, rfl⟩

theorem State.reg_modCls (s : State) (r : Nat) (ks : List Nat) (f : Cluster → Cluster) (a : Nat) : (s.modCls r ks f).reg a = s.reg a := by
  obtain ⟨cs, h⟩ := s.modCls_rest r f ks
  rw [h]
  rfl

theorem State.modCls_memory (s : State) (r : Nat) (ks : List Nat) (f : Cluster → Cluster) : SameMemory s (s.modCls r ks f) := by
  obtain ⟨cs, h⟩ := s.modCls_rest r f ks
  rw [h]
  exact .of_eq rfl rfl rfl

/-- Each cluster named once takes the change once; the others stay. -/
theorem State.cl_modCls (f : Cluster → Cluster) {k : Nat} : ∀ {ks : List Nat}, ks.Nodup → ∀ s : State,
    (s.modCls r ks f).cl r k = if k ∈ ks then f (s.cl r k) else s.cl r k
  | [], _, s => rfl
  | k' :: ks, hn, s => by
    obtain ⟨hk', hn⟩ := List.nodup_cons.mp hn
    have hrest : (s.modCls r (k' :: ks) f).cl r k = if k ∈ ks then f ((s.modCl r k' f).cl r k) else (s.modCl r k' f).cl r k :=
      State.cl_modCls f hn (s.modCl r k' f)
    rw [hrest, State.modCl_eq]
    by_cases h : k = k'
    · subst h
      simp [hk']
    · simp [h, State.cl_setCl_ne s (f (s.cl r k')) (show 9 * r + k ≠ 9 * r + k' by omega)]

/-! ### Slices asked for (R466) -/

theorem nodup_setBits (n w : Nat) : (setBits n w).Nodup := List.nodup_range.filter _

/-- One slice of each kind of a mask, to be saved at `save`, pends; older ones of these kinds pend no more. -/
def Slices.ask (kinds save : Nat) (x : Slices) : Slices :=
  { x with pend := (x.pend.filter fun p => !bitAt kinds p.1) ++ (setBits 8 kinds).map fun k => (k, save) }

/-- Of a kind asked for, the one slice asked for pends. -/
theorem Slices.pend_ask {kinds k : Nat} (save : Nat) (x : Slices) (hk : k < 8) (hbit : kinds.testBit k = true) :
    ((x.ask kinds save).pend.filter fun y => y.1 == k) = [(k, save)] := by
  have hold : ((x.pend.filter fun p => !bitAt kinds p.1).filter fun y => y.1 == k) = [] := by
    simp only [List.filter_filter, List.filter_eq_nil_iff, Bool.and_eq_true, beq_iff_eq, Bool.not_eq_true', not_and, Bool.not_eq_false]
    rintro y - rfl
    exact hbit
  have hnew : (setBits 8 kinds).filter (fun y => y == k) = [k] := by
    rw [List.filter_beq, List.count_eq_one_of_mem (nodup_setBits 8 kinds) (mem_setBits.mpr ⟨hk, hbit⟩)]
    rfl
  have hmap : (((setBits 8 kinds).map fun x => (x, save)).filter fun y => y.1 == k) = [(k, save)] := by
    rw [List.filter_map]
    exact congrArg (List.map fun x => (x, save)) hnew
  rw [Slices.ask, List.filter_append, hold, hmap]
  rfl

/-- The request of R466: kinds, clusters and save area in a word with GO. -/
def bistWord (r clusters kinds save : Nat) : Nat := r + clusters * 64 + kinds * 32768 + save * 8388608 + 67108864

theorem regAt_bistReq : regAt A.bistReq = some ⟨0, 0, 0, true, .status, .bist, .module⟩ := by decide

theorem State.writeAction_bistReq (s : State) (p : Party) (w : Nat) (x : WriteEnv) :
    s.writeAction p A.bistReq ⟨0, 0, 0, true, .status, .bist, .module⟩ w x
      = (let s1 := if bitAt w 27 then s.bistCancel (field w 0 6) else s
        if bitAt w 26 then s1.bistReq (field w 0 6) (field w 6 9) (field w 15 8) (field w 23 3) else s1) := rfl

/-- A write that reaches HLT_BIST_REQ cancels, asks, or does neither, as its bits CANCEL and GO say. -/
theorem Reaches.csrWrite_bistReq {w : Nat} (h : Reaches s p A.bistReq d w) :
    s.wrReg p A.bistReq w
      = (let s1 := if bitAt w 27 then s.bistCancel (field w 0 6) else s
        if bitAt w 26 then s1.bistReq (field w 0 6) (field w 6 9) (field w 15 8) (field w 23 3) else s1) := by
  obtain rfl : d = _ := Option.some.inj (h.regAt_eq.symm.trans regAt_bistReq)
  exact (h.csrWrite_acts _ (by simp) rfl (by decide)).trans (s.writeAction_bistReq p w _)

section
variable {clusters kinds save : Nat} (hr : r < 48) (hc : clusters < 512) (hk : kinds < 256) (hs : save < 8)
include hr hc hk hs

theorem bistWord_fields : field (bistWord r clusters kinds save) 0 6 = r ∧ field (bistWord r clusters kinds save) 6 9 = clusters
    ∧ field (bistWord r clusters kinds save) 15 8 = kinds ∧ field (bistWord r clusters kinds save) 23 3 = save
    ∧ bitAt (bistWord r clusters kinds save) 26 = true ∧ bitAt (bistWord r clusters kinds save) 27 = false := by
  simp only [bistWord, field, bitAt, Nat.shiftRight_eq_div_pow, Nat.testBit_eq_decide_div_mod_eq, decide_eq_true_eq, decide_eq_false_iff_not]
  omega

theorem exec_bistReqGo (hp : p.ok = true) (h : Reaches s p A.bistReq d (bistWord r clusters kinds save)) :
    exec (.bistReqGo p r clusters kinds save) s = .next (s.bistReq r clusters kinds save) := by
  obtain ⟨hregion, hclusters, hkinds, hsave, hgo, hcancel⟩ := bistWord_fields hr hc hk hs
  have hact : s.wrReg p A.bistReq (bistWord r clusters kinds save) = s.bistReq r clusters kinds save := by
    rw [h.csrWrite_bistReq, hregion, hclusters, hkinds, hsave, hgo, hcancel]
    rfl
  refine (if_pos hp).trans (congrArg Host.Outcome.next ?_)
  rw [Nat.mod_eq_of_lt (show r < 64 by omega), Nat.mod_eq_of_lt hc, Nat.mod_eq_of_lt hk, Nat.mod_eq_of_lt hs]
  exact hact

end

/-- Why R466 refuses a request: the region is out of service, no kind is named, or a cluster named is retired. -/
def State.bistRefused (s : State) (r clusters kinds : Nat) : Prop :=
  s.bit (A.regionShape r) 4 = false ∨ kinds = 0 ∨ ∃ k, k < 9 ∧ clusters.testBit k = true ∧ (s.cl r k).retired = true

section
variable {clusters kinds save : Nat} (hu : s.up = true) (ha : s.activating = false) (hr : r < 48) (hk : kinds < 256) (hs : save < 8)
include hu ha hr hk hs

theorem State.bistReq_eq : s.bistReq r clusters kinds save
    = if !s.bit (A.regionShape r) 4 || ((setBits 9 clusters).any fun k => (s.cl r k).retired) || kinds == 0 then s.setB A.bistStatus 1 true
      else s.modCls r (setBits 9 clusters) fun c => { c with slices := c.slices.ask kinds save } := by
  unfold State.bistReq
  dsimp only
  rw [if_neg (by simp [hu]), Nat.mod_eq_of_lt hk]
  refine if_congr ?_ rfl rfl
  simp [ha, show ¬ 48 ≤ r by omega, show ¬ 7 < save by omega, or_assoc]

omit hu ha hr hk hs in
theorem State.bistRefused_iff : s.bistRefused r clusters kinds
    ↔ (!s.bit (A.regionShape r) 4 || ((setBits 9 clusters).any fun k => (s.cl r k).retired) || kinds == 0) = true := by
  simp only [State.bistRefused, Bool.or_eq_true, Bool.not_eq_true', List.any_eq_true, mem_setBits, beq_iff_eq, and_assoc]
  rw [or_assoc]
  exact or_congr_right or_comm

theorem State.bistReq_refused (h : s.bistRefused r clusters kinds) : s.bistReq r clusters kinds save = s.setB A.bistStatus 1 true :=
  (State.bistReq_eq hu ha hr hk hs).trans (if_pos (State.bistRefused_iff.mp h))

theorem State.bistReq_taken (h : ¬ s.bistRefused r clusters kinds) :
    s.bistReq r clusters kinds save = s.modCls r (setBits 9 clusters) fun c => { c with slices := c.slices.ask kinds save } :=
  (State.bistReq_eq hu ha hr hk hs).trans (if_neg (mt State.bistRefused_iff.mpr h))

/-- What a request writes besides clusters: nothing but HLT_BIST_STATUS. -/
theorem State.bistReq_frame : (∀ a, a ≠ A.bistStatus → (s.bistReq r clusters kinds save).reg a = s.reg a)
    ∧ SameMemory s (s.bistReq r clusters kinds save) := by
  rw [State.bistReq_eq hu ha hr hk hs]
  split
  · exact ⟨fun a h => State.reg_setB_ne _ _ _ h, .of_eq rfl rfl rfl⟩
  · exact ⟨fun a _ => State.reg_modCls .., State.modCls_memory ..⟩

end

/-! ### Slices cancelled (R466) -/

theorem exec_bistReqCancel (hp : p.ok = true) (hr : r < 48) (h : Reaches s p A.bistReq d (r + 134217728)) :
    exec (.bistReqCancel p r) s = .next (s.bistCancel r) := by
  have hregion : field (r + 134217728) 0 6 = r := by simp [field]; omega
  have hcancel : bitAt (r + 134217728) 27 = true := by simp [bitAt, Nat.testBit_eq_decide_div_mod_eq]; omega
  have hgo : bitAt (r + 134217728) 26 = false := by simp [bitAt, Nat.testBit_eq_decide_div_mod_eq]; omega
  have hact : s.wrReg p A.bistReq (r + 134217728) = s.bistCancel r := by
    rw [h.csrWrite_bistReq, hregion, hcancel, hgo]
    rfl
  refine (if_pos hp).trans (congrArg Host.Outcome.next ?_)
  rw [Nat.mod_eq_of_lt (show r < 64 by omega)]
  exact hact

theorem State.bistCancel_eq (hu : s.up = true) (hr : r < 48) :
    s.bistCancel r = s.modCls r (List.range 9) fun c => { c with slices := { c.slices with pend := [] } } :=
  if_pos (by simp [hu, hr])

theorem State.bistCancel_spec (hu : s.up = true) (hr : r < 48) :
    (∀ k, k < 9 → ((s.bistCancel r).cl r k).slices.pend = [] ∧ ((s.bistCancel r).cl r k).slices.running = (s.cl r k).slices.running)
    ∧ (∀ a, (s.bistCancel r).reg a = s.reg a) ∧ SameMemory s (s.bistCancel r) := by
  rw [State.bistCancel_eq hu hr]
  refine ⟨fun k hk => ?_, fun _ => State.reg_modCls .., State.modCls_memory ..⟩
  rw [State.cl_modCls _ List.nodup_range, if_pos (List.mem_range.mpr hk)]
  exact ⟨rfl, rfl⟩

/-! ### Retirement of a flagged cluster (R25, R179, R468) -/

/-- Ralrad has taken up a flag of a cluster: a retirement of it pends, or a change of its width. -/
def State.FlagTaken (s : State) (r k : Nat) : Prop :=
  k ∈ (s.rg r).retirePend ∧ s.bit (A.regionShape r) 10 = true ∨ (∃ m, (k, m) ∈ (s.rg r).widthPend) ∧ s.bit (A.maShape r k) 15 = true

/-- A retirement of the cluster pends and is shown. -/
def State.retireLater (s : State) (r k : Nat) : State :=
  (s.modRg r fun g => { g with retirePend := if g.retirePend.contains k then g.retirePend else g.retirePend ++ [k] }).setB (A.regionShape r) 10 true

/-- A change of the cluster's width to that of `map` pends, with `left` columns shown. -/
def State.widenLater (s : State) (r k left map : Nat) : State :=
  ((s.setFld (A.maShape r k) 8 7 (min 64 left)).setB (A.maShape r k) 15 true).modRg r fun g =>
    { g with widthPend := (g.widthPend.filter fun p => p.1 != k) ++ [(k, map)] }

/-- No change of the cluster's width pends any more, as too few columns are left. -/
def State.widenNever (s : State) (r k : Nat) : State :=
  ((s.setFld (A.maShape r k) 8 7 0).setB (A.maShape r k) 15 true).modRg r fun g => { g with widthPend := g.widthPend.filter fun p => p.1 != k }

/-- R468: a width change where columns alone have failed and 60 remain, otherwise a retirement. -/
theorem State.actOnFlag_cases (s : State) (r k : Nat) :
    (∃ left map, s.actOnFlag r k = s.widenLater r k left map) ∨ s.actOnFlag r k = s.retireLater r k
      ∨ s.actOnFlag r k = (s.widenNever r k).retireLater r k := by
  generalize ht : s.actOnFlag r k = t
  unfold State.actOnFlag at ht
  extract_lets i pend bad left kinds columnsOnly widened kept s1 at ht
  subst ht
  by_cases hwide : (columnsOnly && Decidable.decide (60 ≤ left)) = true
  · exact .inl ⟨left, bad, if_pos hwide⟩
  · by_cases hcols : columnsOnly = true
    · exact .inr (.inr ((if_neg hwide).trans (congrArg (fun u : State => u.retireLater r k) (if_pos hcols))))
    · exact .inr (.inl ((if_neg hwide).trans (congrArg (fun u : State => u.retireLater r k) (if_neg hcols))))

theorem State.retireLater_taken (s : State) (r k : Nat) : (s.retireLater r k).FlagTaken r k := by
  refine .inl ⟨?_, State.bit_setB_same _ _ _ (by decide)⟩
  simp only [State.retireLater, State.modRg_eq, State.setB_eq, State.rg_setReg, State.rg_setRg_same]
  split
  · next h => simpa using h
  · simp

theorem State.widenLater_taken (s : State) (r k left map : Nat) : (s.widenLater r k left map).FlagTaken r k := by
  refine .inr ⟨⟨map, ?_⟩, State.bit_setB_same _ _ _ (by decide)⟩
  simp [State.widenLater]

theorem State.actOnFlag_taken (s : State) (r k : Nat) : (s.actOnFlag r k).FlagTaken r k := by
  rcases s.actOnFlag_cases r k with ⟨left, map, h⟩ | h | h <;> rw [h]
  · exact s.widenLater_taken r k left map
  · exact s.retireLater_taken r k
  · exact State.retireLater_taken _ r k

/-- Whichever is made to pend, clusters and memory stay. -/
theorem State.actOnFlag_frame (s : State) (r k : Nat) : (∀ r' k', (s.actOnFlag r k).cl r' k' = s.cl r' k') ∧ SameMemory s (s.actOnFlag r k) := by
  rcases s.actOnFlag_cases r k with ⟨left, map, h⟩ | h | h <;> rw [h]
  · exact ⟨fun _ _ => rfl, .of_eq rfl rfl rfl⟩
  · exact ⟨fun _ _ => rfl, .of_eq rfl rfl rfl⟩
  · exact ⟨fun _ _ => rfl, .of_eq rfl rfl rfl⟩

/-- A self-test or the patina monitor has flagged the cluster, or columns of it have failed. -/
def State.flagged (s : State) (r k : Nat) : Prop :=
  (s.fieldN (A.hltCluster (9 * r + k)) 0 8 ≠ 0 ∨ s.bit (A.hltCluster (9 * r + k)) 24 = true) ∨ s.regN (A.colFail (9 * r + k)) ≠ 0

section
variable {k : Nat} (hu : s.up = true) (hr : r < 48) (hk : k < 9) (hret : (s.cl r k).retired = false)
include hu hr hk hret

theorem State.retireReq_flagged (h : s.flagged r k) : s.retireReq r k = s.actOnFlag r k :=
  if_pos (by simpa [hu, hr, hk, hret, State.flagged] using h)

omit hu hr hk hret in
theorem State.retireReq_unflagged (h : ¬ s.flagged r k) : s.retireReq r k = s :=
  if_neg fun hc => h (by
    simp only [Bool.and_eq_true, Bool.or_eq_true, bne_iff_ne] at hc
    obtain ⟨⟨-, hflag⟩, -⟩ := hc
    exact hflag)

end

/-- Acted on or not, a request to retire leaves clusters and memory. -/
theorem State.retireReq_frame (s : State) (r k : Nat) : (∀ r' k', (s.retireReq r k).cl r' k' = s.cl r' k') ∧ SameMemory s (s.retireReq r k) := by
  unfold State.retireReq
  dsimp only
  split
  · exact s.actOnFlag_frame r k
  · exact ⟨fun _ _ => rfl, .refl s⟩

theorem regAt_hltRetire : regAt A.hltRetire = some ⟨0, 0, 0, true, .status, .reset, .module⟩ := by decide

theorem State.writeAction_hltRetire (s : State) (p : Party) (w : Nat) (x : WriteEnv) :
    s.writeAction p A.hltRetire ⟨0, 0, 0, true, .status, .reset, .module⟩ w x
      = if bitAt w 10 then s.retireReq (field w 0 6) (field w 6 4) else s := rfl

theorem exec_hltRetire {k : Nat} (hp : p.ok = true) (hr : r < 48) (hk : k < 9) (h : Reaches s p A.hltRetire d (r + k * 64 + 1024)) :
    exec (.hltRetire p r k) s = .next (s.retireReq r k) := by
  obtain rfl : d = _ := Option.some.inj (h.regAt_eq.symm.trans regAt_hltRetire)
  have hregion : field (r + k * 64 + 1024) 0 6 = r := by simp [field]; omega
  have hcluster : field (r + k * 64 + 1024) 6 4 = k := by simp [field, Nat.shiftRight_eq_div_pow]; omega
  have hgo : bitAt (r + k * 64 + 1024) 10 = true := by simp [bitAt, Nat.testBit_eq_decide_div_mod_eq]; omega
  have hact : s.wrReg p A.hltRetire (r + k * 64 + 1024) = s.retireReq r k := by
    refine (h.csrWrite_acts _ (by simp) rfl (by decide)).trans ((s.writeAction_hltRetire p _ _).trans ?_)
    rw [hregion, hcluster, hgo, if_pos rfl]
  refine (if_pos hp).trans (congrArg Host.Outcome.next ?_)
  rw [Nat.mod_eq_of_lt (show r < 64 by omega), Nat.mod_eq_of_lt (show k < 16 by omega)]
  exact hact

end Sys2Proof.Machine
end

section
/-!
SUPPORT. Loopbacks run again, and recovery asked for (R470, R479, R481).
-/
namespace Sys2Proof.Machine

variable {s : State} {p : Party} {d : RegDef} {a w : Nat}

/-- A write that reaches a register, which an activation does not close, takes its action and sets its W1S bits (R13, R15, R447). -/
theorem Reaches.csrWrite_sets (h : Reaches s p a d w) (x : WriteEnv) (ho : d.acc ≠ .ro) (hr : refusedActivating a = false) (hw : w &&& d.w1s ≠ 0) :
    s.csrWrite p a w x = (s.writeAction p a d w x).orReg a (w &&& d.w1s) := by
  obtain ⟨hopen, hv, hsfu, hd, hg, hm⟩ := h
  rw [State.csrWrite_reaches x hopen hv hsfu hd hg hm]
  simp [State.writeEffect, ho, hw, hr]

/-! ### Masks of bits -/

/-- The number whose bit `i` is `b i`, for `i` below `n`. -/
def bitMask (b : Nat → Bool) (n : Nat) : Nat := sumNat ((List.range n).map fun i => if b i then 2 ^ i else 0)

theorem sumNat_append (l l' : List Nat) : sumNat (l ++ l') = sumNat l + sumNat l' := by
  induction l with
  | nil => exact (Nat.zero_add _).symm
  | cons x l ih => rw [List.cons_append, sumNat, sumNat, ih, Nat.add_assoc]

theorem bitMask_succ (b : Nat → Bool) (n : Nat) : bitMask b (n + 1) = (if b n then 2 ^ n else 0) + bitMask b n := by
  simp [bitMask, List.range_succ, sumNat_append, sumNat, Nat.add_comm]

theorem bitMask_lt (b : Nat → Bool) (n : Nat) : bitMask b n < 2 ^ n := by
  induction n with
  | zero => exact Nat.one_pos
  | succ n ih =>
    rw [bitMask_succ, Nat.pow_succ]
    split <;> omega

theorem testBit_bitMask (b : Nat → Bool) {n i : Nat} (h : i < n) : (bitMask b n).testBit i = b i := by
  induction n with
  | zero => omega
  | succ n ih =>
    rw [bitMask_succ]
    rcases Nat.lt_succ_iff_lt_or_eq.mp h with h | rfl
    · split
      · rw [Nat.testBit_two_pow_add_gt h, ih h]
      · rw [Nat.zero_add, ih h]
    · have htop : (bitMask b i).testBit i = false := Nat.testBit_lt_two_pow (bitMask_lt b i)
      split
      · next hb => rw [Nat.testBit_two_pow_add_eq, htop, hb]; rfl
      · next hb => rw [Nat.zero_add, htop]; simp [hb]

theorem testBit_mod_256 (m : Nat) {i : Nat} (hi : i < 8) : (m % 256).testBit i = m.testBit i := by
  rw [show m % 256 = m % 2 ^ 8 from rfl, Nat.testBit_mod_two_pow]
  simp [hi]

/-- What lies above the lowest eight bits does not show in them. -/
theorem testBit_add_above {m x i : Nat} (hx : 256 ∣ x) (hi : i < 8) : (m + x).testBit i = m.testBit i := by
  rw [← testBit_mod_256 _ hi, ← testBit_mod_256 m hi, show (m + x) % 256 = m % 256 by omega]

/-! ### HLT_ABIST_STATUS.RERUN (R470) -/

/-- The Eokoby ports whose loopback fails again: those that are down and fail in the rerun. -/
def State.loopsFailed (s : State) (loopE : Nat) : Nat := bitMask (fun i => bitAt loopE i && !s.portUp i) 8

/-- A rerun sets failing loopbacks: of the Eokoby ports in the lowest eight bits, of the others above. -/
theorem State.abistRerun_eq (hu : s.up = true) (loopE loopM loopC : Nat) :
    ∃ above, 256 ∣ above ∧ s.abistRerun loopE loopM loopC = s.orReg A.abist (s.loopsFailed loopE + above) := by
  refine ⟨_, ?_, (if_neg (by simp [hu])).trans (congrArg (s.orReg A.abist) (Nat.add_assoc ..))⟩
  refine Nat.dvd_add (dvd_sumNat fun y hy => ?_) (dvd_sumNat fun y hy => ?_)
  · obtain ⟨i, -, rfl⟩ := List.mem_map.mp hy
    split
    · exact pow_dvd_pow 2 (show 8 ≤ 8 + i by omega)
    · exact Nat.dvd_zero _
  · obtain ⟨i, -, rfl⟩ := List.mem_map.mp hy
    split
    · exact pow_dvd_pow 2 (show 8 ≤ 10 + i by omega)
    · exact Nat.dvd_zero _

theorem State.bit_abistRerun (hu : s.up = true) (loopE loopM loopC : Nat) {i : Nat} (hi : i < 8) :
    (s.abistRerun loopE loopM loopC).bit A.abist i = (s.bit A.abist i || (loopE.testBit i && !s.portUp i)) := by
  obtain ⟨above, habove, he⟩ := State.abistRerun_eq hu loopE loopM loopC
  rw [he, State.bit_orReg _ _ _ (by omega), testBit_add_above habove hi, State.loopsFailed, testBit_bitMask _ hi]
  rfl

theorem State.abistRerun_only (s : State) (loopE loopM loopC : Nat) : RegsOnly (· = A.abist) s (s.abistRerun loopE loopM loopC) :=
  .ite (.refl s) (.setReg s _ rfl)

theorem regAt_abist : regAt A.abist = some ⟨0, 0x1FFFFFFFFFF, 0x20000000000, false, .status, .clear, .module⟩ := by decide

/-- The results of a rerun, as the row hands them to the write. -/
def loopWord (le lm lc : Nat) : Nat := le % 256 + lm % 4 * 256 + lc % 16 * 1024

theorem State.writeAction_abist (s : State) (p : Party) (n : Nat) (e : Env) :
    s.writeAction p A.abist ⟨0, 0x1FFFFFFFFFF, 0x20000000000, false, .status, .clear, .module⟩ (2 ^ 41) ⟨e, some n⟩
      = (s.storeFields A.abist ⟨0, 0x1FFFFFFFFFF, 0x20000000000, false, .status, .clear, .module⟩ (2 ^ 41)).abistRerun
          (field n 0 8) (field n 8 2) (field n 10 4) := rfl

/-- HLT_ABIST_STATUS with RERUN alone: nothing is cleared, the loopbacks run, and RERUN reads 1. -/
theorem exec_abistRerun (hp : p.ok = true) (le lm lc : Nat) (h : Reaches s p A.abist d (2 ^ 41)) :
    exec (.abistRerun p le lm lc) s = .next (((s.storeFields A.abist d (2 ^ 41)).abistRerun (le % 256) (lm % 4) (lc % 16)).orReg A.abist (2 ^ 41)) := by
  obtain rfl : d = _ := Option.some.inj (h.regAt_eq.symm.trans regAt_abist)
  have hE : field (loopWord le lm lc) 0 8 = le % 256 := by simp [field, loopWord]; omega
  have hM : field (loopWord le lm lc) 8 2 = lm % 4 := by simp [field, loopWord, Nat.shiftRight_eq_div_pow]; omega
  have hC : field (loopWord le lm lc) 10 4 = lc % 16 := by simp [field, loopWord, Nat.shiftRight_eq_div_pow]; omega
  refine (if_pos hp).trans (congrArg Host.Outcome.next ?_)
  refine (h.csrWrite_sets ⟨noEnv, some (loopWord le lm lc)⟩ (by simp) (by decide) (by decide)).trans ?_
  rw [State.writeAction_abist, hE, hM, hC]
  rfl

/-- What a rerun shows, of the Eokoby ports, and that it writes its own register only. -/
theorem State.rerun_spec (hu : s.up = true) (hd : regAt A.abist = some d) (le lm lc : Nat) {t : State}
    (ht : ((s.storeFields A.abist d (2 ^ 41)).abistRerun (le % 256) lm lc).orReg A.abist (2 ^ 41) = t) :
    (∀ i, i < 8 → t.bit A.abist i = (s.bit A.abist i || (le.testBit i && !s.portUp i)))
    ∧ (∀ b, b ≠ A.abist → t.reg b = s.reg b) ∧ SameMemory s t := by
  obtain rfl : d = _ := Option.some.inj (hd.symm.trans regAt_abist)
  subst ht
  generalize hs1 : s.storeFields A.abist ⟨0, 0x1FFFFFFFFFF, 0x20000000000, false, .status, .clear, .module⟩ (2 ^ 41) = s1
  have hstored : RegsOnly (· = A.abist) s s1 := hs1 ▸ .setReg s _ rfl
  have hall : RegsOnly (· = A.abist) s ((s1.abistRerun (le % 256) lm lc).orReg A.abist (2 ^ 41)) :=
    (hstored.trans (s1.abistRerun_only ..)).trans (.setReg _ _ rfl)
  have hup : s1.up = true := by rw [← hu, State.up, State.up, hstored.rest]
  refine ⟨fun i hi => ?_, fun b hb => hall.reg b hb, hall.sameMemory⟩
  have hport : s1.portUp i = s.portUp i := by
    unfold State.portUp
    rw [hstored.fieldN (by simp only [A.portStatus, A.ekb, A.abist, A.hlt]; omega)]
  have hkept : s1.bit A.abist i = s.bit A.abist i := by
    rw [← hs1, State.bit_storeFields _ _ _ _ (by omega), Nat.testBit_two_pow, Nat.zero_testBit]
    simp [show ¬ 41 = i by omega]
  rw [State.bit_orReg _ _ _ (by omega), State.bit_abistRerun hup _ _ _ hi, hport, hkept, Nat.testBit_two_pow, testBit_mod_256 le hi]
  simp [show ¬ 41 = i by omega]

/-! ### HLT_RECOVER (R479, R481) -/

theorem regAt_hltRecover : regAt A.hltRecover = some ⟨0, 0, 0, true, .status, .bist, .module⟩ := by decide

theorem State.writeAction_hltRecover (s : State) (p : Party) (w : Nat) (x : WriteEnv) :
    s.writeAction p A.hltRecover ⟨0, 0, 0, true, .status, .bist, .module⟩ w x = s.hltRecover (field w 0 16) (bitAt w 16) := rfl

theorem exec_hltRecover {key : Nat} {go : Bool} (hp : p.ok = true) (hk : key < 65536) (h : Reaches s p A.hltRecover d (key + if go then 65536 else 0)) :
    exec (.hltRecover p key go) s = .next (s.hltRecover key go) := by
  obtain rfl : d = _ := Option.some.inj (h.regAt_eq.symm.trans regAt_hltRecover)
  have hkey : field (key + if go then 65536 else 0) 0 16 = key := by cases go <;> simp [field] <;> omega
  have hgo : bitAt (key + if go then 65536 else 0) 16 = go := by cases go <;> simp [bitAt, Nat.testBit_eq_decide_div_mod_eq] <;> omega
  refine (if_pos hp).trans (congrArg Host.Outcome.next ?_)
  rw [Nat.mod_eq_of_lt hk, h.csrWrite_acts _ (by simp) rfl (by decide), State.writeAction_hltRecover, hkey, hgo]

theorem State.hltRecover_begins (hu : s.up = true) : s.hltRecover 0x5243 true = s.beginRecovery := by
  have hready : s.boot = .ready := by simpa [State.up] using hu
  exact if_pos (by simp [State.mayRecover, State.alive, hready])

theorem State.hltRecover_ignored {key : Nat} {go : Bool} (h : go = false ∨ key ≠ 0x5243) : s.hltRecover key go = s :=
  if_neg (by rcases h with h | h <;> simp [h])

theorem State.hltRecover_memory (s : State) (key : Nat) (go : Bool) : SameMemory s (s.hltRecover key go) :=
  .ite (.of_eq rfl rfl rfl) (.refl s)

end Sys2Proof.Machine
end

section
/-!
SUPPORT. Snapshot requests (R387, R397), and the commands of the health block together.
-/
namespace Sys2Proof.Machine

variable {s t : State} {p : Party} {d : RegDef} {c : Nat} {e : Env}

/-! ### MEM_SNAP_CTRL_c.REQ (R387) -/

theorem regAt_snapCtl : ∀ c, c < 16 → regAt (A.snapCtl c) = some ⟨0x7FFD, 0, 2, false, .status, .ctx c, .module⟩ := by decide

theorem State.writeAction_snapCtl (s : State) (p : Party) {c : Nat} (hc : c < 16) {w : Nat} (hw : w.testBit 1 = true) (x : WriteEnv)
    (hd : regAt (A.snapCtl c) = some d) : s.writeAction p (A.snapCtl c) d w x = (s.storeFields (A.snapCtl c) d w).snapArm c x.env := by
  obtain rfl : d = _ := Option.some.inj (hd.symm.trans (regAt_snapCtl c hc))
  have hlow : 0x16208 ≤ A.snapCtl c := by simp only [A.snapCtl, A.mem]; omega
  have hhigh : A.snapCtl c < 0x16400 := by simp only [A.snapCtl, A.mem]; omega
  have hjob : A.snapCtl c ≠ A.ctxJob c := by simp only [A.snapCtl, A.mem, A.ctxJob, A.ekb]; omega
  generalize ha : A.snapCtl c = a at *
  have hrest : s.writeAction p a ⟨0x7FFD, 0, 2, false, .status, .ctx c, .module⟩ w x
      = s.writeRest p a ⟨0x7FFD, 0, 2, false, .status, .ctx c, .module⟩ w x := by
    unfold State.writeAction A.pwr A.sec A.hlt A.mem
    rw [if_neg (by simp [RegDef.isCounter]), if_neg (by omega), if_neg (by omega), if_neg (by omega)]
  have hne {b : Nat} (hb : b < 0x16208 ∨ 0x16400 ≤ b) : a ≠ b := by omega
  rw [hrest]
  unfold State.writeRest
  rw [if_neg (hne (.inl (by decide))), if_neg (hne (.inr (by decide))), if_neg (hne (.inr (by decide))),
    if_neg (hne (.inl (by decide))), if_neg (hne (.inr (by decide)))]
  dsimp only
  rw [if_neg hjob, if_pos ha.symm]
  exact if_pos hw

theorem or_two_testBit (n : Nat) : (n ||| 2).testBit 1 = true := by
  rw [Nat.testBit_or, show Nat.testBit 2 1 = true from rfl, Bool.or_true]

theorem or_two_and_two (n : Nat) : (n ||| 2) &&& 2 = 2 := by
  rw [Nat.and_or_distrib_right]
  exact Nat.eq_of_testBit_eq fun i => by simp

/-- REQ set: the other fields are stored as they stand, a snapshot is asked for, and REQ reads 1. -/
theorem exec_snapReq (hp : p.ok = true) (hc : c < 16) (e : Env) (h : Reaches s p (A.snapCtl c) d (s.regN (A.snapCtl c) ||| 2)) :
    exec (.snapReq p c e) s
      = .next (((s.storeFields (A.snapCtl c) d (s.regN (A.snapCtl c) ||| 2)).snapArm c e).orReg (A.snapCtl c) 2) := by
  have hd := Option.some.inj (h.regAt_eq.symm.trans (regAt_snapCtl c hc))
  have hset : (s.regN (A.snapCtl c) ||| 2) &&& d.w1s = 2 := by rw [hd]; exact or_two_and_two _
  have hopen : refusedActivating (A.snapCtl c) = false := by
    simp only [refusedActivating, Bool.or_eq_false_iff, beq_eq_false_iff_ne, A.snapCtl, A.mem, A.regionAssign, A.secRotate, A.scrubCtrl, A.stageCtrl,
      A.maqCtrl, A.bootSel, A.sec, A.cfg]
    omega
  refine (if_pos (by simp [Instr.wf, hp, hc])).trans (congrArg Host.Outcome.next ?_)
  rw [h.csrWrite_sets _ (by rw [hd]; simp) hopen (by rw [hset]; decide), hset, State.writeAction_snapCtl s p hc (or_two_testBit _) _ h.regAt_eq]

theorem snapStatus_ne_refused (hc : c < 16) : A.snapStatus c ≠ A.snapRefused := by
  simp only [A.snapStatus, A.snapRefused, A.mem]
  omega

theorem snapRefused_not_data : ¬ DataReg A.snapRefused := fun h => by
  have := h.place
  simp only [A.snapRefused, A.mem] at this
  omega

/-- A list that R387 accepts is armed: its parts are the context's. -/
theorem State.snapArm_arms {ps : List Nat} (h : ¬ s.snapRuns c) (hp : s.snapParts e c = some ps) (ht : s.snapArm c e = t) :
    t.fieldN (A.snapStatus c) 0 3 = 1 ∧ (t.cx c).snap.parts = ps := by
  subst ht
  rw [State.snapArm_armed h hp]
  refine ⟨?_, ?_⟩
  · simp only [State.armed, State.fieldN, State.reg_setReg_same, regField, field, BitVec.toNat_ofNat, Nat.shiftRight_zero]
    omega
  · simp [State.armed]

/-- A list that R387 does not accept is refused and counted. -/
theorem State.snapArm_refuses (hc : c < 16) (h : ¬ s.snapRuns c) (hp : s.snapParts e c = none) (ht : s.snapArm c e = t) :
    t.regN (A.snapStatus c) = 4 ∧ t.reg A.snapRefused = BitVec.ofNat 64 (satAdd 48 (s.regN A.snapRefused) 1) := by
  subst ht
  have hcount : (s.noteList e c).regN A.snapRefused = s.regN A.snapRefused := (s.noteReads_data none e _).regN snapRefused_not_data
  rw [State.snapArm_refused h hp]
  refine ⟨congrArg BitVec.toNat (State.reg_setReg_same ..), ?_⟩
  rw [State.reg_setReg_ne _ _ (snapStatus_ne_refused hc).symm, State.reg_bump_one, hcount]

/-- While a snapshot runs, another is counted only. -/
theorem State.snapArm_ignores (hc : c < 16) (h : s.snapRuns c) (ht : s.snapArm c e = t) :
    t.reg (A.snapStatus c) = s.reg (A.snapStatus c) ∧ t.reg A.snapRefused = BitVec.ofNat 64 (satAdd 48 (s.regN A.snapRefused) 1) := by
  subst ht
  rw [State.snapArm_running h]
  exact ⟨s.reg_bump_ne 1 (snapStatus_ne_refused hc), s.reg_bump_one _⟩

/-- What asking for a snapshot comes to in a state that differs in SNAP_CTL at most, once REQ is set besides. -/
theorem State.snapReq_spec (hc : c < 16) {s1 : State} (h : RegsOnly (· = A.snapCtl c) s s1) (ht : (s1.snapArm c e).orReg (A.snapCtl c) 2 = t) :
    (∀ ps, ¬ s.snapRuns c → s1.snapParts e c = some ps → t.fieldN (A.snapStatus c) 0 3 = 1 ∧ (t.cx c).snap.parts = ps)
    ∧ (¬ s.snapRuns c → s1.snapParts e c = none →
      t.regN (A.snapStatus c) = 4 ∧ t.reg A.snapRefused = BitVec.ofNat 64 (satAdd 48 (s.regN A.snapRefused) 1))
    ∧ (s.snapRuns c →
      t.reg (A.snapStatus c) = s.reg (A.snapStatus c) ∧ t.reg A.snapRefused = BitVec.ofNat 64 (satAdd 48 (s.regN A.snapRefused) 1))
    ∧ t.bit (A.snapCtl c) 1 = true ∧ (∀ a, t.mem.read a = s.mem.read a) ∧ (NoErrors e → SameMemory s t) := by
  subst ht
  have hstatus : A.snapStatus c ≠ A.snapCtl c := by simp only [A.snapStatus, A.snapCtl, A.mem]; omega
  have hrefused : A.snapRefused ≠ A.snapCtl c := by simp only [A.snapRefused, A.snapCtl, A.mem]; omega
  have hstep := s1.snapArm_step c e
  have hruns : s1.snapRuns c ↔ s.snapRuns c := by rw [State.snapRuns, State.snapRuns, h.fieldN hstatus]
  have hlast {a : Nat} (ha : a ≠ A.snapCtl c) : ((s1.snapArm c e).orReg (A.snapCtl c) 2).reg a = (s1.snapArm c e).reg a := State.reg_setReg_ne _ _ ha
  rw [State.fieldN, State.regN, hlast hstatus, hlast hrefused, ← hruns, ← h.reg _ hstatus, ← h.regN hrefused]
  refine ⟨fun ps hn hp => State.snapArm_arms hn hp rfl, fun hn hp => State.snapArm_refuses hc hn hp rfl, fun hr => State.snapArm_ignores hc hr rfl, ?_,
    fun a => ?_, fun he => ?_⟩
  · rw [State.bit_orReg _ _ _ (by decide)]
    exact Bool.or_true _
  · exact congrArg (Memory.read · a) (hstep.mem.trans h.mem)
  · exact h.sameMemory.trans ((hstep.kept he).trans (.of_eq rfl rfl rfl))

/-! ### The commands together -/

/-- Settles O29, command by command: each is a write that reaches its register and comes to one operation of the health block or the copier. -/
theorem healthCommandsAct : Obligations.HealthCommandsAct := by
  refine fun s p d hp hu => ⟨fun r clusters kinds save hr hc hk hs ha h => ?_, fun r hr h => ?_, fun r k hr hk h hret => ?_, fun le lm lc h => ?_,
    fun key go hk h => ?_, fun c s1 e hc h hs1 => ?_⟩
  · obtain ⟨hreg, hmem⟩ := State.bistReq_frame (clusters := clusters) (save := save) hu ha hr hk hs
    refine .of_exec (exec_bistReqGo hr hc hk hs hp h) ⟨State.bistReq_refused hu ha hr hk hs, fun hin hkinds hwork => ?_, hreg, hmem⟩
    have htaken : ¬ s.bistRefused r clusters kinds := by
      rintro (hout | hnone | ⟨k, hk9, hbit, hgone⟩)
      · simp [hin] at hout
      · exact hkinds hnone
      · simp [hwork k hk9 hbit] at hgone
    rw [State.bistReq_taken hu ha hr hk hs htaken]
    refine ⟨fun k x hk9 hx hbit hkind => ?_, fun k _ hbit => ?_⟩
    · rw [State.cl_modCls _ (nodup_setBits ..), if_pos (mem_setBits.mpr ⟨hk9, hbit⟩)]
      exact Slices.pend_ask save _ hx hkind
    · exact (State.cl_modCls _ (nodup_setBits ..) s).trans (if_neg fun hmem => by simp [(mem_setBits.mp hmem).2] at hbit)
  · exact .of_exec (exec_bistReqCancel hp hr h) (State.bistCancel_spec hu hr)
  · obtain ⟨hcl, hmem⟩ := s.retireReq_frame r k
    refine .of_exec (exec_hltRetire hp hr hk h) ⟨fun hflag => ?_, fun hkinds hpatina hcols => ?_, hcl, hmem⟩
    · rw [State.retireReq_flagged hu hr hk hret (.inl hflag)]
      exact s.actOnFlag_taken r k
    · exact State.retireReq_unflagged (by simp [State.flagged, hkinds, hpatina, hcols])
  · refine .of_exec (exec_abistRerun hp le lm lc h) ?_
    exact State.rerun_spec hu h.regAt_eq le _ _ rfl
  · refine .of_exec (exec_hltRecover hp hk h) ⟨?_, State.hltRecover_ignored, s.hltRecover_memory key go⟩
    rintro rfl rfl
    rw [State.hltRecover_begins hu]
    exact ⟨rfl, rfl, rfl, s.stage_beginRecovery⟩
  · have hstored : RegsOnly (· = A.snapCtl c) s s1 := hs1 ▸ .setReg s _ rfl
    obtain ⟨harms, hrefuses, hignores, hkept⟩ := State.snapReq_spec (e := e) hc hstored rfl
    have hexec := exec_snapReq hp hc e h
    rw [← hs1] at hexec
    exact .of_exec hexec ⟨fun ps h1 h2 => harms ps (not_or.mpr ⟨h1, h2⟩), fun h1 h2 => hrefuses (not_or.mpr ⟨h1, h2⟩), hignores, hkept⟩

end Sys2Proof.Machine
end

section
/-!
SUPPORT. REGISTER_WRITE where it stores nothing, and the write of a counter (R426, R512, R513).
-/
namespace Sys2Proof.Machine

variable {s : State} {p : Party} {a w : Nat} {d : RegDef}

/-! ### Writes that are refused or reach no register (R426, R512) -/

theorem State.csrWrite_misaligned (ho : s.csrOpen p a true = true) (ha : a % 8 ≠ 0) (x : WriteEnv) : s.csrWrite p a w x = s.bump A.denied 1 := by
  unfold State.csrWrite
  rw [if_neg (by simp [ho]), if_pos (by simp [ha])]
  rfl

theorem State.csrWrite_nowhere (ho : s.csrOpen p a true = true) (ha : a % 8 = 0) (hs : isSfuWindow a = false) (hv : inView p a = true)
    (hd : regAt a = none) (x : WriteEnv) : s.csrWrite p a w x = s := by
  unfold State.csrWrite
  rw [if_neg (by simp [ho]), if_neg (by simp [ha, hs]), if_neg (by simp [hv]), hd]

/-- A permitted write of a register that nobody writes. -/
theorem Reaches.csrWrite_ro (h : Reaches s p a d w) (hro : d.acc = .ro) (x : WriteEnv) : s.csrWrite p a w x = s := by
  obtain ⟨ho, hv, hs, hd, hg, hm⟩ := h
  rw [State.csrWrite_reaches x ho hv hs hd hg hm, State.writeEffect, if_pos (by simp [hro])]

/-! ### Writes of counters (R513) -/

/-- Registers with an action of their own, those that an activation closes, and the peak of power are no counters. -/
theorem isCounterAt_commands : ∀ b ∈ [A.fwCtrl, A.stageCtrl, A.maqCtrl, A.mboxInCtrl, A.mboxOutCfg, A.mboxTail, A.scrubCtrl, A.abist, A.govCtrl, A.grace,
    A.mlmWin, A.regionAssign, A.secRotate, A.bootSel, A.pwrPeak], isCounterAt b = false := by decide +kernel

theorem isCounterAt_contexts : ∀ c, c < 16 → isCounterAt (A.ctxJob c) = false ∧ isCounterAt (A.snapCtl c) = false := by decide +kernel

/-- An action is no counter's. -/
theorem isCounterAt_of_actionReg (h : actionReg a = true) : isCounterAt a = false := by
  unfold actionReg at h
  rw [Bool.or_eq_true, List.contains_iff_mem, List.any_eq_true] at h
  rcases h with h | ⟨c, hc, h⟩
  · exact isCounterAt_commands a (List.mem_append_left [A.regionAssign, A.secRotate, A.bootSel, A.pwrPeak] h)
  · obtain ⟨hjob, hsnap⟩ := isCounterAt_contexts c (List.mem_range.mp hc)
    rw [Bool.or_eq_true, beq_iff_eq, beq_iff_eq] at h
    rcases h with rfl | rfl
    · exact hjob
    · exact hsnap

/-- A register at offset `a` that counts single events in 48 bits. -/
structure Counts48 (a : Nat) (d : RegDef) : Prop where
  at_  : regAt a = some d
  kind : d.kind = .ctr

namespace Counts48

theorem isCounterAt (h : Counts48 a d) : isCounterAt a = true := by simp [Machine.isCounterAt, h.at_, h.kind]

theorem ne (h : Counts48 a d) {b : Nat} (hb : Machine.isCounterAt b = false) : a ≠ b := by
  rintro rfl
  simp [h.isCounterAt] at hb

theorem not_refusedActivating (h : Counts48 a d) : refusedActivating a = false := by
  have hn {b : Nat} (hb : b ∈ _) := h.ne (isCounterAt_commands b hb)
  simp [refusedActivating, hn]

theorem w1s_eq (h : Counts48 a d) : d.w1s = 0 :=
  (regAt_fits h.at_).w1s.resolve_right fun ha => h.ne (isCounterAt_of_actionReg ha) rfl

/-- Its clearing looks at 48 bits: it is neither the peak of power nor a count of the patrol's passes. -/
theorem clearOnZero_eq (h : Counts48 a d) (hp : ∀ k, k < 20 → a ≠ A.hbmPasses k) :
    s.clearOnZero a d w = if w % 2 ^ 48 = 0 then s.setReg a (BitVec.ofNat 64 (min (s.thisBeat a) (2 ^ 48 - 1))) else s := by
  have hpeak : a ≠ A.pwrPeak := h.ne (isCounterAt_commands _ (by simp))
  have hpasses : ¬(A.hbm 0 0 ≤ a ∧ a < A.hbm 20 0 ∧ a % 0x1000 = 0x30) := fun ⟨hlow, hhigh, hlast⟩ => by
    simp only [A.hbm] at hlow hhigh
    refine hp ((a - 0x100000) / 0x1000) (by omega) ?_
    simp only [A.hbmPasses, A.hbm]
    omega
  unfold State.clearOnZero State.clearCounter
  simp [hpeak, hpasses, h.kind]

/-- A permitted write of such a counter clears it or leaves it. -/
theorem csrWrite_eq (h : Counts48 a d) (hr : Reaches s p a d w) (hro : d.acc ≠ .ro) (hp : ∀ k, k < 20 → a ≠ A.hbmPasses k) (x : WriteEnv) :
    s.csrWrite p a w x = if w % 2 ^ 48 = 0 then s.setReg a (BitVec.ofNat 64 (min (s.thisBeat a) (2 ^ 48 - 1))) else s := by
  obtain ⟨ho, hv, hs, hd, hg, hm⟩ := hr
  rw [State.csrWrite_reaches x ho hv hs hd hg hm, ← h.clearOnZero_eq hp]
  simp [State.writeEffect, State.writeAction, RegDef.isCounter, hro, h.not_refusedActivating, h.w1s_eq, h.kind]

end Counts48

/-- Settles O22, case by case of where the write arrives; a counter that is cleared holds the beat's own events. -/
theorem registerWriteRefused : Obligations.RegisterWriteRefused := by
  intro s p a w hw ho
  have hexec := exec_registerWrite s hw
  refine ⟨fun ha => ?_, fun ha hs hv hd => ?_, fun d hs hv hd hg hm => ?_, fun d h hro => ?_, fun d h hro hk hp => ?_⟩
  · rw [hexec, State.csrWrite_misaligned ho ha]
  · rw [hexec, State.csrWrite_nowhere ho ha hs hv hd]
  · rw [hexec, State.csrWrite_of_not_mayWrite ho hs hv hd hg hm]
    rfl
  · rw [hexec, h.csrWrite_ro hro]
  · rw [Counts48.csrWrite_eq ⟨h.regAt_eq, hk⟩ h hro hp] at hexec
    refine ⟨fun hz => ?_, fun hz => by rw [hexec, if_neg hz]⟩
    rw [if_pos hz] at hexec
    refine .of_exec hexec ⟨?_, fun b hb => s.reg_setReg_ne _ hb, .of_eq rfl rfl rfl⟩
    rw [State.regN_setReg_same]
    omega

end Sys2Proof.Machine
end

section
/-!
SUPPORT. The SPDM responder: what stands before every answer, and what an answer that leaves by MCTP over I3C changes (R422, R424).
-/
namespace Sys2Proof.Machine

variable {s t u : State} {fresh : Bool} {answer : State → State} {body : List Byte}

/-! ### What stands before every answer (R424) -/

theorem State.spdmAnswer_down (hu : s.up = false) : s.spdmAnswer fresh answer = s := if_pos (by simp [hu])

theorem State.spdmAnswer_busy (hu : s.up = true) (ha : s.activating = true) : s.spdmAnswer fresh answer = (s.bump A.spdmBusy 1).spdmError 3 0 := by
  rw [State.spdmAnswer, if_neg (by simp [hu]), if_pos ha]

theorem State.spdmAnswer_stale (hu : s.up = true) (ha : s.activating = false) (hs : s.spdm.stale = true) :
    s.spdmAnswer false answer = s.spdmError 0x43 0 := by
  rw [State.spdmAnswer, if_neg (by simp [hu]), if_neg (by simp [ha]), if_pos (by simp [hs])]

theorem State.spdmAnswer_open (hu : s.up = true) (ha : s.activating = false) (hs : s.spdm.stale = false ∨ fresh = true) :
    s.spdmAnswer fresh answer = answer s := by
  rw [State.spdmAnswer, if_neg (by simp [hu]), if_neg (by simp [ha]), if_neg (by rcases hs with h | h <;> simp [h])]

/-! ### Answers by MCTP over I3C -/

/-- `t` is `s` after this answer has left: the responder's own state and the DRBG apart, nothing else changed. -/
def Says (s t : State) (body : List Byte) : Prop :=
  t = { s with spdm := t.spdm, drbg := t.drbg, freeCtr := t.freeCtr, outbox := .spdm body :: s.outbox }

namespace Says

theorem outbox (h : Says s t body) : t.outbox = .spdm body :: s.outbox := (congrArg State.outbox h).trans rfl

theorem replied {version code p1 p2 : Nat} (h : Says s t body) (hb : spdmHead version code p1 p2 <+: body) : Replied s t version code p1 p2 := by
  obtain ⟨rest, rfl⟩ := hb
  exact ⟨rest, h.outbox⟩

theorem reg (h : Says s t body) (a : Nat) : t.reg a = s.reg a := (congrArg (fun v : State => v.reg a) h).trans rfl

theorem sameMemory (h : Says s t body) : SameMemory s t :=
  .of_eq ((congrArg State.mem h).trans rfl) ((congrArg State.gran h).trans rfl) ((congrArg State.flash h).trans rfl)

end Says

/-- A request that did not come through the mailbox is answered by MCTP. -/
theorem State.spdmSend_mctp (hm : s.spdm.mail = false) (body : List Byte) : s.spdmSend body = s.send (.spdm body) := by
  have hspdm : ({ s.spdm with mail := false } : Spdm) = s.spdm := by rw [← hm]
  unfold State.spdmSend
  rw [hspdm, hm]
  rfl

/-- `u` is `s` but for the responder's own state and what a nonce draws. -/
def Prepared (s u : State) : Prop := u = { s with spdm := u.spdm, drbg := u.drbg, freeCtr := u.freeCtr }

namespace Prepared

theorem refl (s : State) : Prepared s s := rfl

theorem setSpdm (h : Prepared s u) (x : Spdm) : Prepared s { u with spdm := x } := by
  unfold Prepared at h ⊢
  exact congrArg (fun v : State => { v with spdm := x, drbg := u.drbg, freeCtr := u.freeCtr }) h

theorem record (h : Prepared s u) (bs : List Byte) : Prepared s (u.record bs) := h.setSpdm _

theorem nonce (s : State) : Prepared s s.nonce.2 := rfl

end Prepared

/-- An answer that leaves in a state that the responder has prepared. -/
theorem State.spdmSend_says (ht : u.spdmSend body = t) (hu : Prepared s u) (hm : u.spdm.mail = false) :
    Says s t body ∧ t.spdm = u.spdm ∧ t.drbg = u.drbg := by
  rw [State.spdmSend_mctp hm] at ht
  subst ht
  exact ⟨congrArg (State.send · (.spdm body)) hu, rfl, rfl⟩

/-- ERROR with its code and data: the responder's state, every register and memory are as they were. -/
theorem State.errs (hm : s.spdm.mail = false) {err data : Nat} (ht : s.spdmError err data = t) :
    Replied s t 0x13 0x7F err data ∧ t.spdm = s.spdm ∧ (∀ a, t.reg a = s.reg a) ∧ SameMemory s t := by
  obtain ⟨hsays, hspdm, -⟩ := State.spdmSend_says (s := s) ht rfl hm
  exact ⟨hsays.replied (List.prefix_refl _), hspdm, hsays.reg, hsays.sameMemory⟩

/-! ### The rows -/

/-- What the responder does on a request. -/
def State.spdmTurn (s : State) : Instr → State
  | .getVersion => s.getVersion
  | .getCapabilities => s.getCapabilities
  | .negotiateAlgorithms asym hash => s.negotiate asym hash
  | .getDigests => s.getDigests
  | .getCertificate slot off len => s.getCertificate slot off len
  | .challenge slot kind nonce => s.challenge slot kind nonce
  | .getMeasurements index sgn nonce => s.getMeasurements index sgn nonce
  | .spdmUnsupportedRequest code => s.spdmUnsupported code
  | _ => s

/-- Every request's row is its turn, and every turn passes R424's gate first: GET_VERSION as a fresh one. -/
theorem exec_spdm {i : Instr} (hi : spdmRequest i = true) :
    exec i s = .next (s.spdmTurn i) ∧ ∃ fresh answer, s.spdmTurn i = s.spdmAnswer fresh answer ∧ (i ≠ .getVersion → fresh = false) := by
  cases i with
  | getVersion => exact ⟨rfl, _, _, State.getVersion.eq_def s, fun h => absurd rfl h⟩
  | getCapabilities => exact ⟨rfl, _, _, State.getCapabilities.eq_def s, fun _ => rfl⟩
  | negotiateAlgorithms asym hash => exact ⟨rfl, _, _, State.negotiate.eq_def s asym hash, fun _ => rfl⟩
  | getDigests => exact ⟨rfl, _, _, State.getDigests.eq_def s, fun _ => rfl⟩
  | getCertificate slot off len => exact ⟨rfl, _, _, State.getCertificate.eq_def s slot off len, fun _ => rfl⟩
  | challenge slot kind nonce => exact ⟨rfl, _, _, State.challenge.eq_def s slot kind nonce, fun _ => rfl⟩
  | getMeasurements index sgn nonce => exact ⟨rfl, _, _, State.getMeasurements.eq_def s index sgn nonce, fun _ => rfl⟩
  | spdmUnsupportedRequest code => exact ⟨rfl, _, _, if_neg (by simpa [spdmRequest] using hi), fun _ => rfl⟩
  | _ => cases hi

/-- Settles O56: every request passes the gate before anything of its own. -/
theorem spdmAroundResets : Obligations.SpdmAroundResets := by
  intro s i hi
  obtain ⟨hexec, fresh, answer, hturn, hfresh⟩ := exec_spdm (s := s) hi
  rw [hturn] at hexec
  refine ⟨fun hu => ?_, fun hu ha hm => ?_, fun hu ha hs hm hv => ?_⟩
  · rw [hexec, State.spdmAnswer_down hu]
  · rw [State.spdmAnswer_busy hu ha] at hexec
    have hb : RegsOnly (· = A.spdmBusy) s (s.bump A.spdmBusy 1) := .bump s 1 rfl
    obtain ⟨⟨rest, hout⟩, hspdm, hreg, hmem⟩ := State.errs (s := s.bump A.spdmBusy 1) (by rw [State.bump_spdm]; exact hm) (t := _) rfl
    refine .of_exec hexec ⟨⟨rest, ?_⟩, (hreg _).trans (State.reg_bump_one ..), fun a ha => (hreg a).trans (hb.reg a ha), ?_, hb.sameMemory.trans hmem⟩
    · rw [hout, State.bump_outbox]
    · rw [hspdm, State.bump_spdm]
  · rw [hfresh hv, State.spdmAnswer_stale hu ha hs] at hexec
    exact .of_exec hexec (State.errs hm rfl)

end Sys2Proof.Machine
end

section
/-!
SUPPORT. What the SPDM responder answers to each request, in its turn and out of it (R420, R422, R423).
-/
namespace Sys2Proof.Machine

variable {s t : State}

/-- Every register and memory are as they were. -/
def RegsAndMemory (s t : State) : Prop := (∀ a, t.reg a = s.reg a) ∧ SameMemory s t

theorem Says.kept {body : List Byte} (h : Says s t body) : RegsAndMemory s t := ⟨h.reg, h.sameMemory⟩

/-- Requests that come by MCTP are taken: the module is READY, no activation runs, and none has overtaken the transcript. -/
structure SpdmOpen (s : State) : Prop where
  up    : s.up = true
  idle  : s.activating = false
  mctp  : s.spdm.mail = false
  fresh : s.spdm.stale = false

theorem SpdmOpen.answer (h : SpdmOpen s) (answer : State → State) : s.spdmAnswer false answer = answer s :=
  State.spdmAnswer_open h.up h.idle (.inl h.fresh)

/-- A request in its turn has its answer; one out of turn is answered UnexpectedRequest. -/
theorem SpdmOpen.after (h : SpdmOpen s) {ok : Bool} {answer : State → State} (ht : s.spdmAfter ok answer = t) :
    (ok = true → answer s = t) ∧ (ok = false → Replied s t 0x13 0x7F 4 0 ∧ t.spdm = s.spdm ∧ RegsAndMemory s t) := by
  cases ok with
  | true => exact ⟨fun _ => ht, nofun⟩
  | false => exact ⟨nofun, fun _ => State.errs h.mctp ht⟩

/-- GET_VERSION begins a transcript anew, whatever overtook the last one. -/
theorem State.getVersion_spec (hu : s.up = true) (ha : s.activating = false) (hm : s.spdm.mail = false) (ht : s.getVersion = t) :
    Replied s t 0x10 4 0 0 ∧ t.spdm.version = true ∧ t.spdm.caps = false ∧ t.spdm.algs = false ∧ t.spdm.stale = false ∧ RegsAndMemory s t := by
  rw [State.getVersion, State.spdmAnswer_open hu ha (.inr rfl)] at ht
  dsimp only at ht
  obtain ⟨hsays, hspdm, -⟩ := State.spdmSend_says (s := s) ht rfl hm
  rw [hspdm]
  exact ⟨hsays.replied (by simp only [List.append_assoc, List.prefix_append]), rfl, rfl, rfl, rfl, hsays.kept⟩

namespace SpdmOpen

variable (h : SpdmOpen s)
include h

theorem getCapabilities (ht : s.getCapabilities = t) :
    (s.spdm.version = true → Replied s t 0x13 0x61 0 0 ∧ t.spdm.caps = true ∧ s.spdm.script.length < t.spdm.script.length)
    ∧ (s.spdm.version = false → Replied s t 0x13 0x7F 4 0 ∧ t.spdm = s.spdm) ∧ RegsAndMemory s t := by
  rw [State.getCapabilities, h.answer] at ht
  obtain ⟨hyes, hno⟩ := h.after ht
  cases hv : s.spdm.version with
  | true =>
    have ht := hyes hv
    dsimp only at ht
    obtain ⟨hsays, hspdm, -⟩ := State.spdmSend_says (s := s) ht rfl h.mctp
    rw [hspdm]
    refine ⟨fun _ => ⟨hsays.replied (by simp only [List.append_assoc, List.prefix_append]), rfl, ?_⟩, nofun, hsays.kept⟩
    simp [State.record, spdmHead, length_natToBytes]
  | false =>
    obtain ⟨hr, hspdm, hkept⟩ := hno hv
    exact ⟨nofun, fun _ => ⟨hr, hspdm⟩, hkept⟩

theorem negotiate {asym hash : Nat} (ht : s.negotiate asym hash = t) :
    (s.spdm.caps = true → Replied s t 0x13 0x63 0 0 ∧ t.spdm.algs = (asym.testBit 10 && hash.testBit 5))
    ∧ (s.spdm.caps = false → Replied s t 0x13 0x7F 4 0 ∧ t.spdm = s.spdm) ∧ RegsAndMemory s t := by
  rw [State.negotiate, h.answer] at ht
  obtain ⟨hyes, hno⟩ := h.after ht
  cases hv : s.spdm.caps with
  | true =>
    have ht := hyes hv
    dsimp only at ht
    obtain ⟨hsays, hspdm, -⟩ := State.spdmSend_says (s := s) ht rfl h.mctp
    rw [hspdm]
    exact ⟨fun _ => ⟨hsays.replied (by simp only [List.append_assoc, List.prefix_append]), rfl⟩, nofun, hsays.kept⟩
  | false =>
    obtain ⟨hr, hspdm, hkept⟩ := hno hv
    exact ⟨nofun, fun _ => ⟨hr, hspdm⟩, hkept⟩

theorem getDigests (ht : s.getDigests = t) :
    (s.spdm.algs = true → t.outbox = .spdm (spdmHead 0x13 1 0 1 ++ sha3 s.slotZero) :: s.outbox)
    ∧ (s.spdm.algs = false → Replied s t 0x13 0x7F 4 0) ∧ RegsAndMemory s t := by
  rw [State.getDigests, h.answer] at ht
  obtain ⟨hyes, hno⟩ := h.after ht
  cases hv : s.spdm.algs with
  | true =>
    have ht := hyes hv
    dsimp only at ht
    obtain ⟨hsays, hspdm, -⟩ := State.spdmSend_says (s := s) ht rfl h.mctp
    exact ⟨fun _ => hsays.outbox, nofun, hsays.kept⟩
  | false =>
    obtain ⟨hr, -, hkept⟩ := hno hv
    exact ⟨nofun, fun _ => hr, hkept⟩

theorem getCertificate {slot off len : Nat} (ht : s.getCertificate slot off len = t) :
    (s.spdm.algs = true → slot = 0 → off < s.slotZero.length →
      t.outbox = .spdm (spdmHead 0x13 2 0 0 ++ natToBytes 2 ((s.slotZero.drop off).take len).length
        ++ natToBytes 2 (s.slotZero.length - off - ((s.slotZero.drop off).take len).length) ++ (s.slotZero.drop off).take len) :: s.outbox)
    ∧ (s.spdm.algs = true → (slot ≠ 0 ∨ s.slotZero.length ≤ off) → Replied s t 0x13 0x7F 1 0) ∧ RegsAndMemory s t := by
  rw [State.getCertificate, h.answer] at ht
  obtain ⟨hyes, hno⟩ := h.after ht
  cases hv : s.spdm.algs with
  | true =>
    have ht := hyes hv
    dsimp only at ht
    by_cases hbad : slot ≠ 0 ∨ s.slotZero.length ≤ off
    · rw [if_pos hbad] at ht
      obtain ⟨hr, -, hkept⟩ := State.errs h.mctp ht
      exact ⟨fun _ h0 hoff => by omega, fun _ _ => hr, hkept⟩
    · rw [if_neg hbad] at ht
      obtain ⟨hsays, -, -⟩ := State.spdmSend_says (s := s) ht rfl h.mctp
      exact ⟨fun _ _ _ => hsays.outbox, fun _ hb => absurd hb hbad, hsays.kept⟩
  | false =>
    obtain ⟨-, -, hkept⟩ := hno hv
    exact ⟨nofun, nofun, hkept⟩

/-- A request that R422 does not list is answered UnsupportedRequest with its code. -/
theorem unsupported {code : Nat} (hi : spdmRequest (.spdmUnsupportedRequest code) = true) (ht : s.spdmUnsupported code = t) :
    Replied s t 0x13 0x7F 7 (code % 256) ∧ t.spdm = s.spdm ∧ RegsAndMemory s t := by
  rw [State.spdmUnsupported, if_neg (by simpa [spdmRequest] using hi), h.answer] at ht
  exact State.errs h.mctp ht

/-! ### Signatures and measurements (R420, R422, R423) -/

/-- CHALLENGE of slot 0, its requests before it done: signed with the identity key, the transcript ends. -/
theorem challenge {kind : Nat} {nonce : List Byte} (hg : s.spdm.algs = true) (ht : s.challenge 0 kind nonce = t) :
    (s.idOk = true → Replied s t 0x13 3 0 1 ∧ t.spdm.script = [] ∧ t.drbg = (s.drbg + 1) % 1048576)
    ∧ (s.idOk = false → Replied s t 0x13 0x7F 5 0 ∧ t.spdm = s.spdm) ∧ RegsAndMemory s t := by
  rw [State.challenge, h.answer] at ht
  have ht := (h.after ht).1 hg
  rw [if_neg (by decide)] at ht
  cases hid : s.idOk with
  | true =>
    rw [if_neg (by simp [hid])] at ht
    dsimp only at ht
    obtain ⟨hsays, hspdm, hdrbg⟩ := State.spdmSend_says ht (((Prepared.nonce s).record _).setSpdm _) h.mctp
    rw [hspdm, hdrbg]
    exact ⟨fun _ => ⟨hsays.replied (by simp only [List.append_assoc, List.prefix_append]), rfl, rfl⟩, nofun, hsays.kept⟩
  | false =>
    rw [if_pos (by simp [hid])] at ht
    obtain ⟨hr, hspdm, hkept⟩ := State.errs h.mctp ht
    exact ⟨nofun, fun _ => ⟨hr, hspdm⟩, hkept⟩

/-- Measurements of a record that has changed since the transcript's first ones. -/
theorem getMeasurements_overtaken {index : Nat} {sgn : Bool} {nonce : List Byte} (hg : s.spdm.algs = true)
    (ho : ∃ n, s.spdm.began = some n ∧ n ≠ s.spdm.record) (ht : s.getMeasurements index sgn nonce = t) :
    Replied s t 0x13 0x7F 0x43 0 ∧ t.spdm.began = none ∧ RegsAndMemory s t := by
  rw [State.getMeasurements, h.answer] at ht
  have ht := (h.after ht).1 hg
  obtain ⟨n, hn, hne⟩ := ho
  rw [hn] at ht
  dsimp only at ht
  rw [if_pos (by simpa using hne)] at ht
  obtain ⟨hsays, hspdm, -⟩ := State.spdmSend_says (s := s) ht rfl h.mctp
  rw [hspdm]
  exact ⟨hsays.replied (List.prefix_refl _), rfl, hsays.kept⟩

/-- Measurements of the record that the transcript began with: an index not listed, a signature without the key, or the blocks. -/
theorem getMeasurements_kept {index : Nat} {sgn : Bool} {nonce : List Byte} (hg : s.spdm.algs = true)
    (ho : ∀ n, s.spdm.began = some n → n = s.spdm.record) (ht : s.getMeasurements index sgn nonce = t) :
    (10 < index → index ≠ 0xFF → Replied s t 0x13 0x7F 1 0)
    ∧ ((index ≤ 10 ∨ index = 0xFF) →
      (sgn = true → s.idOk = false → Replied s t 0x13 0x7F 5 0)
      ∧ (sgn = true → s.idOk = true → Replied s t 0x13 0x60 (if index = 0 then 10 else 0) 0 ∧ t.spdm.began = none ∧ t.spdm.script = [])
      ∧ (sgn = false → Replied s t 0x13 0x60 (if index = 0 then 10 else 0) 0 ∧ t.spdm.began = some s.spdm.record))
    ∧ RegsAndMemory s t := by
  have hkeeps : (match s.spdm.began with | some n => n != s.spdm.record | none => false) = false := by
    cases hb : s.spdm.began with
    | none => rfl
    | some n => simp [ho n hb]
  rw [State.getMeasurements, h.answer] at ht
  have ht := (h.after ht).1 hg
  extract_lets overtaken at ht
  rw [if_neg (by rw [show overtaken = false from hkeeps]; decide)] at ht
  by_cases hindex : 10 < index ∧ index ≠ 0xFF
  · rw [if_pos hindex] at ht
    obtain ⟨hr, -, hkept⟩ := State.errs h.mctp ht
    exact ⟨fun _ _ => hr, fun hlisted => by omega, hkept⟩
  rw [if_neg hindex] at ht
  cases sgn with
  | false =>
    rw [if_neg (by simp)] at ht
    dsimp only at ht
    rw [if_neg (by decide)] at ht
    obtain ⟨hsays, hspdm, -⟩ := State.spdmSend_says ht (((Prepared.nonce s).record _).setSpdm _) h.mctp
    rw [hspdm]
    exact ⟨fun h10 hff => absurd ⟨h10, hff⟩ hindex,
      fun _ => ⟨nofun, nofun, fun _ => ⟨hsays.replied (by simp only [List.append_assoc, List.prefix_append]), rfl⟩⟩, hsays.kept⟩
  | true =>
    cases hid : s.idOk with
    | false =>
      rw [if_pos (by simp [hid])] at ht
      obtain ⟨hr, -, hkept⟩ := State.errs h.mctp ht
      exact ⟨fun h10 hff => absurd ⟨h10, hff⟩ hindex, fun _ => ⟨fun _ _ => hr, nofun, nofun⟩, hkept⟩
    | true =>
      rw [if_neg (by simp [hid])] at ht
      dsimp only at ht
      rw [if_pos rfl] at ht
      obtain ⟨hsays, hspdm, -⟩ := State.spdmSend_says ht (((Prepared.nonce s).record _).setSpdm _) h.mctp
      rw [hspdm]
      exact ⟨fun h10 hff => absurd ⟨h10, hff⟩ hindex,
        fun _ => ⟨nofun, fun _ _ => ⟨hsays.replied (by simp only [List.append_assoc, List.prefix_append]), rfl, rfl⟩, nofun⟩, hsays.kept⟩

end SpdmOpen

/-- Settles O54: each request passes the gate, and then answers in its turn. -/
theorem spdmAnswersInTurn : Obligations.SpdmAnswersInTurn := by
  intro s hu ha hm
  refine ⟨.of_exec (exec_spdm rfl).1 (State.getVersion_spec hu ha hm rfl), fun hs => ?_⟩
  have h : SpdmOpen s := ⟨hu, ha, hm, hs⟩
  exact ⟨.of_exec (exec_spdm rfl).1 (h.getCapabilities rfl), fun _ _ => .of_exec (exec_spdm rfl).1 (h.negotiate rfl),
    .of_exec (exec_spdm rfl).1 (h.getDigests rfl), fun _ _ _ => .of_exec (exec_spdm rfl).1 (h.getCertificate rfl),
    fun _ hi => .of_exec (exec_spdm hi).1 (h.unsupported hi rfl)⟩

/-- Settles O55: both signing requests pass the gate; whether the record still is the one shown decides first. -/
theorem spdmSigns : Obligations.SpdmSigns := by
  intro s hu ha hm hs hg
  have h : SpdmOpen s := ⟨hu, ha, hm, hs⟩
  refine ⟨fun _ _ => .of_exec (exec_spdm rfl).1 (h.challenge hg rfl), fun index sgn nonce => .of_exec (exec_spdm rfl).1 ?_⟩
  by_cases ho : ∃ n, s.spdm.began = some n ∧ n ≠ s.spdm.record
  · obtain ⟨hr, hbegan, hkept⟩ := h.getMeasurements_overtaken hg ho rfl
    obtain ⟨n, hn, hne⟩ := ho
    exact ⟨fun _ => ⟨hr, hbegan⟩, fun hall => absurd (hall n hn) hne, hkept⟩
  · have hall : ∀ n, s.spdm.began = some n → n = s.spdm.record := fun n hn => by_contra fun hne => ho ⟨n, hn, hne⟩
    obtain ⟨hwrong, hright, hkept⟩ := h.getMeasurements_kept hg hall rfl
    exact ⟨fun hover => absurd hover ho, fun _ => ⟨hwrong, hright⟩, hkept⟩

end Sys2Proof.Machine
end

section
/-!
SUPPORT. ASSIGN, RELEASE and reset requests: what each write comes to, and what its operation begins (R403, R404, R475).
-/
namespace Sys2Proof.Machine

variable {s t : State} {p : Party} {d : RegDef} {r c n : Nat}

/-! ### The writes (R403, R404, R475) -/

theorem regAt_regionAssign : regAt A.regionAssign = some ⟨0, 0, 0, true, .status, .sec false, .module⟩ := by decide

theorem regAt_resetReq : regAt A.resetReq = some ⟨0, 0, 0, true, .status, .reset, .module⟩ := by decide

/-- A write to a register that is only written has its action and no other effect. -/
theorem Reaches.csrWrite_command {a w : Nat} {acc : WAcc} (h : Reaches s p a d w) (hd : regAt a = some ⟨0, 0, 0, true, .status, acc, .module⟩)
    (hacc : acc ≠ .ro) (hs : s.activating = false) (x : WriteEnv) :
    s.csrWrite p a w x = s.writeAction p a ⟨0, 0, 0, true, .status, acc, .module⟩ w x := by
  obtain rfl : d = _ := Option.some.inj (h.regAt_eq.symm.trans hd)
  rw [h.csrWrite_eq x hacc hs, if_pos (Nat.and_zero w)]

/-- What the command in a word for SEC_REGION_ASSIGN asks for. -/
theorem State.writeSec_regionAssign (s : State) (w : Nat) :
    (field w 10 2 = 1 → s.writeSec A.regionAssign d w = s.assign (field w 0 6) (field w 6 4))
    ∧ (field w 10 2 = 2 → s.writeSec A.regionAssign d w = s.release (field w 0 6)) := by
  unfold State.writeSec
  rw [if_neg (by decide), if_pos rfl]
  exact ⟨fun h => by rw [h]; rfl, fun h => by rw [h]; rfl⟩

theorem State.writeAction_regionAssign (s : State) (p : Party) (w : Nat) :
    s.writeAction p A.regionAssign ⟨0, 0, 0, true, .status, .sec false, .module⟩ w WriteEnv.none
      = s.writeSec A.regionAssign ⟨0, 0, 0, true, .status, .sec false, .module⟩ w := rfl

theorem State.writeAction_resetReq (s : State) (p : Party) (w : Nat) :
    s.writeAction p A.resetReq ⟨0, 0, 0, true, .status, .reset, .module⟩ w WriteEnv.none
      = if !bitAt w 7 then s else if bitAt w 0 then s.requestDieReset (field w 1 6) else s.requestRegionReset (field w 1 6) := rfl

theorem exec_assign (hp : p.ok = true) (hr : r < 48) (hc : c < 16) (h : Reaches s p A.regionAssign d (r + c * 64 + 1024)) (hs : s.activating = false) :
    exec (.assign p r c) s = .next (s.assign r c) := by
  refine (if_pos hp).trans (congrArg Host.Outcome.next ?_)
  rw [State.wrReg, Nat.mod_eq_of_lt (by omega : r < 64), Nat.mod_eq_of_lt hc, h.csrWrite_command regAt_regionAssign (by decide) hs,
    State.writeAction_regionAssign, (s.writeSec_regionAssign _).1 (by simp [field, Nat.shiftRight_eq_div_pow]; omega)]
  congr 1 <;> simp [field, Nat.shiftRight_eq_div_pow] <;> omega

theorem exec_release (hp : p.ok = true) (hr : r < 48) (h : Reaches s p A.regionAssign d (r + 2048)) (hs : s.activating = false) :
    exec (.release p r) s = .next (s.release r) := by
  refine (if_pos hp).trans (congrArg Host.Outcome.next ?_)
  rw [State.wrReg, Nat.mod_eq_of_lt (by omega : r < 64), h.csrWrite_command regAt_regionAssign (by decide) hs,
    State.writeAction_regionAssign, (s.writeSec_regionAssign _).2 (by simp [field, Nat.shiftRight_eq_div_pow]; omega)]
  congr 1
  simp [field]
  omega

theorem exec_regionReset (hp : p.ok = true) (hr : r < 48) (h : Reaches s p A.resetReq d (r * 2 + 128)) (hs : s.activating = false) :
    exec (.regionReset p r) s = .next (s.requestRegionReset r) := by
  have hgo : bitAt (r * 2 + 128) 7 = true := by simp [bitAt, Nat.testBit, Nat.shiftRight_eq_div_pow]; omega
  have hregion : bitAt (r * 2 + 128) 0 = false := by simp [bitAt]
  have hnumber : field (r * 2 + 128) 1 6 = r := by simp [field, Nat.shiftRight_eq_div_pow]; omega
  refine (if_pos hp).trans (congrArg Host.Outcome.next ?_)
  rw [State.wrReg, Nat.mod_eq_of_lt (by omega : r < 64), h.csrWrite_command regAt_resetReq (by decide) hs, State.writeAction_resetReq, hgo, hregion, hnumber]
  rfl

theorem exec_dieReset (hp : p.ok = true) (hn : n < 4) (h : Reaches s p A.resetReq d (1 + n * 2 + 128)) (hs : s.activating = false) :
    exec (.dieReset p n) s = .next (s.requestDieReset n) := by
  have hgo : bitAt (1 + n * 2 + 128) 7 = true := by simp [bitAt, Nat.testBit, Nat.shiftRight_eq_div_pow]; omega
  have hdie : bitAt (1 + n * 2 + 128) 0 = true := by simp [bitAt]; omega
  have hnumber : field (1 + n * 2 + 128) 1 6 = n := by simp [field, Nat.shiftRight_eq_div_pow]; omega
  refine (if_pos hp).trans (congrArg Host.Outcome.next ?_)
  rw [State.wrReg, Nat.mod_eq_of_lt (by omega : n < 64), h.csrWrite_command regAt_resetReq (by decide) hs, State.writeAction_resetReq, hgo, hdie, hnumber]
  rfl

/-! ### A reset begins (R64) -/

/-- A region whose reset begins. -/
def Region.resets (g : Region) : Region := { g with inReset := true, closing := true, waiting := [], misses := [], loaded := false }

theorem State.rg_beginReset (s : State) (r r' : Nat) : (s.beginReset r).rg r' = if r' = r then (s.rg r).resets else s.rg r' := State.rg_setRg ..

theorem State.bit_beginReset_epoch (s : State) (r : Nat) : (s.beginReset r).bit (A.regionEpoch r) 31 = true :=
  State.bit_setB_same _ _ _ (by decide)

theorem State.reg_beginReset_ne (s : State) {a : Nat} (h : a ≠ A.regionEpoch r) : (s.beginReset r).reg a = s.reg a := State.reg_setB_ne _ _ _ h

/-- Once it has begun, a region's reset shows, whatever other resets begin. -/
theorem State.bit_beginReset_keeps (s : State) (q : Nat) (h : s.bit (A.regionEpoch r) 31 = true) : (s.beginReset q).bit (A.regionEpoch r) 31 = true := by
  by_cases hq : A.regionEpoch r = A.regionEpoch q
  · rw [hq]
    exact s.bit_beginReset_epoch q
  · exact (congrArg (fun w : Reg64 => w.toNat.testBit 31) (s.reg_beginReset_ne hq)).trans h

theorem State.beginReset_memory (s : State) (r : Nat) : SameMemory s (s.beginReset r) := .of_eq rfl rfl rfl

theorem assignStatus_ne_epoch (r : Nat) : A.assignStatus ≠ A.regionEpoch r := by
  simp only [A.assignStatus, A.regionEpoch, A.sec]
  omega

theorem resetStatus_ne_epoch (hr : r < 48) : A.resetStatus ≠ A.regionEpoch r := by
  simp only [A.resetStatus, A.hlt, A.regionEpoch, A.sec]
  omega

/-! ### ASSIGN and RELEASE (R403, R404) -/

/-- BUSY is set, and the region has its job. -/
def State.granted (s : State) (r : Nat) (j : Job) : State := (s.setB A.assignStatus 0 true).modRg r fun g => { g with job := j }

theorem State.rg_granted (s : State) (r : Nat) (j : Job) : (s.granted r j).rg r = { s.rg r with job := j } := State.rg_setRg_same ..

theorem State.bit_granted (s : State) (r : Nat) (j : Job) : (s.granted r j).bit A.assignStatus 0 = true := State.bit_setB_same s _ _ (by decide)

theorem State.granted_memory (s : State) (r : Nat) (j : Job) : SameMemory s (s.granted r j) := .of_eq rfl rfl rfl

theorem State.fillKey_spec (s : State) (c : Nat) :
    (∀ a, a ≠ A.keyStatus c → (s.fillKey c).reg a = s.reg a) ∧ (s.fillKey c).regions = s.regions ∧ SameMemory s (s.fillKey c) := by
  unfold State.fillKey
  split
  · exact ⟨fun a ha => State.reg_setReg_ne _ _ ha, rfl, .of_eq rfl rfl rfl⟩
  · exact ⟨fun _ _ => rfl, rfl, .refl s⟩

/-- The counters of the region's blocks are cleared; every other register but the context's key status stays. -/
theorem State.assignPrepare_spec (s : State) (r c : Nat) :
    (∀ a, a ≠ A.keyStatus c → (s.assignPrepare r c).reg a = if counterOfRegion r a then 0 else s.reg a)
    ∧ (∀ q, (s.assignPrepare r c).rg q = s.rg q) ∧ SameMemory s (s.assignPrepare r c) := by
  obtain ⟨hreg, hrg, hmem⟩ := (s.dropRegs (counterOfRegion r)).fillKey_spec c
  exact ⟨fun a ha => (hreg a ha).trans (Sparse.get_erase ..), fun q => congrArg (Sparse.get Region.init · q) hrg,
    SameMemory.trans (.of_eq rfl rfl rfl) hmem⟩

theorem counterOfRegion_above {a : Nat} (h : counterOfRegion r a = true) : 0x1000000 ≤ a := by
  obtain ⟨⟨hlow, -⟩, -⟩ : ((A.rtr r 0 ≤ a ∧ a < A.rtr r 0 + 0x100000) ∧ isCounterAt a = true) := by simpa [counterOfRegion] using h
  simp only [A.rtr] at hlow
  omega

theorem counterOfRegion_assignStatus : counterOfRegion r A.assignStatus = false :=
  Bool.eq_false_iff.mpr fun h => absurd (counterOfRegion_above h) (by decide)

theorem State.assign_refused (h : s.assignOk r = false) : s.assign r c = s.setB A.assignStatus 1 true := if_pos (by simp [h])

/-- An accepted ASSIGN goes on at once where the region has been reset or is being reset, and else resets it first. -/
theorem State.assign_granted (h : s.assignOk r = true) :
    s.assign r c = if (s.rg r).resetSince || s.resetting r then (s.granted r (.assign c)).assignPrepare r c
      else (s.granted r (.assign c)).beginReset r := by
  have hrg := s.rg_granted r (.assign c)
  have hset : (s.granted r (.assign c)).resetting r = s.resetting r := by
    show (((s.granted r (.assign c)).rg r).inReset || _) = _
    rw [hrg]
    rfl
  rw [State.assign, if_neg (by simp [h])]
  show (if (((s.granted r (.assign c)).rg r).resetSince || (s.granted r (.assign c)).resetting r) = true then _ else _) = _
  rw [hset, hrg]
  rfl

theorem State.assign_spec (hc : c < 16) (h : s.assignOk r = true) (ht : s.assign r c = t) :
    t.bit A.assignStatus 0 = true ∧ (t.rg r).job = .assign c ∧ (t.rg r).owner = none
    ∧ ((s.rg r).resetSince = false → s.resetting r = false → (t.rg r).inReset = true ∧ (t.rg r).waiting = [] ∧ t.bit (A.regionEpoch r) 31 = true)
    ∧ ((s.rg r).resetSince = true → ∀ a, counterOfRegion r a = true → t.reg a = 0) ∧ SameMemory s t := by
  have hrg := s.rg_granted r (.assign c)
  have hbusy := s.bit_granted r (.assign c)
  have hmem := s.granted_memory r (.assign c)
  have howner : (s.rg r).owner = none := by
    simp only [State.assignOk, Bool.and_eq_true, Option.isNone_iff_eq_none] at h
    obtain ⟨⟨⟨⟨-, howner⟩, -⟩, -⟩, -⟩ := h
    exact howner
  rw [State.assign_granted h] at ht
  generalize s.granted r (.assign c) = u at hrg hbusy hmem ht
  by_cases hready : ((s.rg r).resetSince || s.resetting r) = true
  · rw [if_pos hready] at ht
    obtain ⟨hreg, hsame, hm⟩ := u.assignPrepare_spec r c
    subst ht
    have hkey {a : Nat} (ha : a = A.assignStatus ∨ 0x1000000 ≤ a) : a ≠ A.keyStatus c := by
      simp only [A.assignStatus, A.keyStatus, A.sec] at ha ⊢
      omega
    have hstatus : (u.assignPrepare r c).reg A.assignStatus = u.reg A.assignStatus := by
      rw [hreg _ (hkey (.inl rfl)), counterOfRegion_assignStatus]
      rfl
    rw [hsame, hrg]
    refine ⟨(congrArg (fun w : Reg64 => w.toNat.testBit 0) hstatus).trans hbusy, rfl, howner, fun h1 h2 => by simp [h1, h2] at hready, fun _ a ha => ?_,
      hmem.trans hm⟩
    rw [hreg a (hkey (.inr (counterOfRegion_above ha))), ha]
    rfl
  · rw [if_neg hready] at ht
    subst ht
    have hstatus := u.reg_beginReset_ne (assignStatus_ne_epoch r)
    rw [State.rg_beginReset, if_pos rfl, hrg]
    exact ⟨(congrArg (fun w : Reg64 => w.toNat.testBit 0) hstatus).trans hbusy, rfl, howner, fun _ _ => ⟨rfl, rfl, u.bit_beginReset_epoch r⟩,
      fun h1 => by simp [h1] at hready, hmem.trans (u.beginReset_memory r)⟩

theorem State.release_refused (h : (s.rg r).owner = none ∨ s.bit A.assignStatus 0 = true) : s.release r = s.setB A.assignStatus 1 true :=
  if_pos (by rcases h with h | h <;> simp [h])

theorem State.release_spec (hu : s.up = true) (hr : r < 48) (ho : (s.rg r).owner = some c) (hb : s.bit A.assignStatus 0 = false) (ht : s.release r = t) :
    (t.bit A.assignStatus 0 = true ∧ (t.rg r).job = .release ∧ (t.rg r).owner = some c ∧ (t.rg r).inReset = true
      ∧ (t.rg r).loaded = false ∧ (t.rg r).waiting = [] ∧ t.bit (A.regionEpoch r) 31 = true) ∧ SameMemory s t := by
  have hrg := s.rg_granted r .release
  have hbusy := s.bit_granted r .release
  have hmem := s.granted_memory r .release
  have hready : (s.boot == .ready) = true := hu
  have heq : s.release r = (s.granted r .release).beginReset r := if_neg (by simp [bne, hready, hr, ho, hb])
  rw [heq] at ht
  generalize s.granted r .release = u at hrg hbusy hmem ht
  subst ht
  have hstatus := u.reg_beginReset_ne (assignStatus_ne_epoch r)
  rw [State.rg_beginReset, if_pos rfl, hrg]
  exact ⟨⟨(congrArg (fun w : Reg64 => w.toNat.testBit 0) hstatus).trans hbusy, rfl, ho, rfl, rfl, rfl, u.bit_beginReset_epoch r⟩,
    hmem.trans (u.beginReset_memory r)⟩

/-! ### Reset requests (R475, R477) -/

theorem State.reg_beginOne_ne (s : State) {a : Nat} (h : a ≠ A.regionEpoch r) : (s.beginOne r).reg a = s.reg a := s.reg_beginReset_ne h

theorem State.requestRegionReset_refused (h : s.resetting r = true) : s.requestRegionReset r = s.setB A.resetStatus 1 true := if_pos (by simp [h])

theorem State.requestRegionReset_begins (hu : s.up = true) (ha : s.activating = false) (hr : r < 48) (h : s.resetting r = false) :
    s.requestRegionReset r = (s.setB A.resetStatus 0 true).beginOne r := by
  have hready : (s.boot == .ready) = true := hu
  exact if_neg (by simp [bne, hready, ha, hr, h])

theorem State.requestRegionReset_spec (hu : s.up = true) (ha : s.activating = false) (hr : r < 48) (h : s.resetting r = false)
    (ht : s.requestRegionReset r = t) :
    (t.bit A.resetStatus 0 = true ∧ (t.rg r).inReset = true ∧ (t.rg r).owner = (s.rg r).owner ∧ (t.rg r).waiting = []
      ∧ t.bit (A.regionEpoch r) 31 = true ∧ ∀ r', r' ≠ r → t.rg r' = s.rg r') ∧ SameMemory s t := by
  rw [State.requestRegionReset_begins hu ha hr h] at ht
  have hbusy : (s.setB A.resetStatus 0 true).bit A.resetStatus 0 = true := State.bit_setB_same s _ _ (by decide)
  have hrg : ∀ q, (s.setB A.resetStatus 0 true).rg q = s.rg q := fun _ => rfl
  have hmem : SameMemory s (s.setB A.resetStatus 0 true) := .of_eq rfl rfl rfl
  generalize s.setB A.resetStatus 0 true = u at ht hbusy hrg hmem
  subst ht
  have hstatus := u.reg_beginOne_ne (resetStatus_ne_epoch hr)
  rw [State.rg_beginOne, if_pos rfl, hrg]
  refine ⟨⟨(congrArg (fun w : Reg64 => w.toNat.testBit 0) hstatus).trans hbusy, rfl, rfl, rfl, u.bit_beginReset_epoch r, fun q hq => ?_⟩,
    hmem.trans (u.beginOne_memory r)⟩
  rw [State.rg_beginOne, if_neg hq, hrg]

theorem State.requestDieReset_refused (h : n ∈ s.dieReset) : s.requestDieReset n = s.setB A.resetStatus 1 true := if_pos (by simp [h])

theorem State.requestDieReset_begins (hu : s.up = true) (ha : s.activating = false) (hn : n < 4) (h : n ∉ s.dieReset) :
    s.requestDieReset n = (s.setB A.resetStatus 0 true).beginDieReset n := by
  have hready : (s.boot == .ready) = true := hu
  exact if_neg (by simp [bne, hready, ha, hn, h])

theorem State.bit_beginOne_epoch (s : State) (r : Nat) : (s.beginOne r).bit (A.regionEpoch r) 31 = true := s.bit_beginReset_epoch r

theorem State.bit_beginOne_keeps (s : State) (q : Nat) (h : s.bit (A.regionEpoch r) 31 = true) : (s.beginOne q).bit (A.regionEpoch r) 31 = true :=
  s.bit_beginReset_keeps q h

/-- The resets of several regions begin: owners stay, every one shows its reset, and no register but the epochs changes. -/
theorem State.beginOnes_spec (l : List Nat) (s : State) :
    (∀ r, ((l.foldl State.beginOne s).rg r).owner = (s.rg r).owner) ∧ (∀ r ∈ l, (l.foldl State.beginOne s).bit (A.regionEpoch r) 31 = true)
    ∧ ∀ a, (∀ r ∈ l, a ≠ A.regionEpoch r) → (l.foldl State.beginOne s).reg a = s.reg a := by
  refine ⟨fun r => ?_, fun r hr => ?_, fun a ha => ?_⟩
  · refine List.foldlRecOn (motive := fun t : State => (t.rg r).owner = (s.rg r).owner) l _ rfl fun t h q _ => ?_
    rw [State.rg_beginOne]
    split
    · next e => exact (congrArg (fun q => (t.rg q).owner) e.symm).trans h
    · exact h
  · exact foldl_establishes (Q := fun r s => s.bit (A.regionEpoch r) 31 = true) State.bit_beginOne_epoch
      (fun s q _ h => s.bit_beginOne_keeps q h) l s hr
  · exact List.foldlRecOn (motive := fun t : State => t.reg a = s.reg a) l _ rfl fun t h q hq => (t.reg_beginOne_ne (ha q hq)).trans h

/-- R477: a stack of a die in reset serves nothing. -/
def State.stackDown (d : Nat) (s : State) (i : Nat) : State := s.setFld (A.hbmStatus (5 * d + i)) 0 2 0

theorem State.bit_stackDown (d : Nat) (s : State) (i : Nat) : (s.stackDown d i).bit (A.hbmStatus (5 * d + i)) 0 = false := by
  rw [State.stackDown, State.setFld_eq, State.bit, State.reg_setReg_same, setField_testBit, if_pos (by decide), Nat.zero_testBit]

theorem State.bit_stackDown_keeps (d : Nat) (s : State) (i : Nat) {a : Nat} (h : s.bit a 0 = false) : (s.stackDown d i).bit a 0 = false := by
  by_cases ha : a = A.hbmStatus (5 * d + i)
  · exact ha ▸ s.bit_stackDown d i
  · exact (congrArg (fun w : Reg64 => w.toNat.testBit 0) (State.reg_setReg_ne s _ ha)).trans h

theorem State.stacksDown_spec (d : Nat) (s : State) :
    (∀ i, i < 5 → ((List.range 5).foldl (State.stackDown d) s).bit (A.hbmStatus (5 * d + i)) 0 = false)
    ∧ RegsOnly (0x100000 ≤ ·) s ((List.range 5).foldl (State.stackDown d) s) := by
  refine ⟨fun i hi => ?_, .foldl _ (fun s i _ => .setReg s _ ?_) s⟩
  · exact foldl_establishes (Q := fun i s => s.bit (A.hbmStatus (5 * d + i)) 0 = false) (State.bit_stackDown d)
      (fun s i _ h => s.bit_stackDown_keeps d i h) (List.range 5) s (List.mem_range.mpr hi)
  · simp only [A.hbmStatus, A.hbm]
    omega

/-- What a die's reset leaves of owners, epochs, stacks and the status of resets, beside `beginDieReset_spec`. -/
theorem State.beginDieReset_shows (hn : n < 4) (hb : s.bit A.resetStatus 0 = true) (ht : s.beginDieReset n = t) :
    t.bit A.resetStatus 0 = true ∧ (∀ r, dieOf r = n → (t.rg r).owner = (s.rg r).owner ∧ t.bit (A.regionEpoch r) 31 = true)
    ∧ ∀ i, i < 5 → t.bit (A.hbmStatus (5 * n + i)) 0 = false := by
  unfold State.beginDieReset at ht
  extract_lets rs s1 s2 at ht
  have hlt : ∀ r, dieOf r = n → r < 48 := fun r hr => by unfold dieOf at hr; omega
  have hs1 : s1 = rs.foldl State.beginOne s := rfl
  obtain ⟨howner, hepoch, hreg⟩ := State.beginOnes_spec rs s
  rw [← hs1] at howner hepoch hreg
  clear_value s1
  have hbusy : s2.bit A.resetStatus 0 = true := (congrArg (fun w : Reg64 => w.toNat.testBit 0)
    (hreg A.resetStatus fun r hr => resetStatus_ne_epoch (hlt r (mem_dieRegions.mp hr)))).trans hb
  have hshown : ∀ r, dieOf r = n → s2.bit (A.regionEpoch r) 31 = true := fun r hr => hepoch r (mem_dieRegions.mpr hr)
  have howner2 : ∀ r, (s2.rg r).owner = (s.rg r).owner := howner
  clear_value s2
  have ht' : (List.range 5).foldl (State.stackDown n) s2 = t := ht
  obtain ⟨hdown, hrest⟩ := State.stacksDown_spec n s2
  rw [ht'] at hdown hrest
  have hlow {a : Nat} (ha : a < 0x100000) : ¬ 0x100000 ≤ a := by omega
  refine ⟨(hrest.bit (hlow (by decide))).trans hbusy, fun r hr => ⟨?_, ?_⟩, hdown⟩
  · rw [hrest.rg, howner2]
  · have hr48 := hlt r hr
    exact (hrest.bit (hlow (by simp only [A.regionEpoch, A.sec]; omega))).trans (hshown r hr)

theorem State.requestDieReset_spec (hu : s.up = true) (ha : s.activating = false) (hn : n < 4) (h : n ∉ s.dieReset) (ht : s.requestDieReset n = t) :
    (t.bit A.resetStatus 0 = true ∧ n ∈ t.dieReset
      ∧ (∀ r, dieOf r = n → (t.rg r).inReset = true ∧ (t.rg r).owner = (s.rg r).owner ∧ t.bit (A.regionEpoch r) 31 = true)
      ∧ (∀ r, dieOf r ≠ n → t.rg r = s.rg r) ∧ (∀ i, i < 5 → t.bit (A.hbmStatus (5 * n + i)) 0 = false)) ∧ SameMemory s t := by
  rw [State.requestDieReset_begins hu ha hn h] at ht
  obtain ⟨hdie, hin, hother, hmem⟩ := State.beginDieReset_spec n ht
  obtain ⟨hbusy, hregions, hdown⟩ := State.beginDieReset_shows hn (State.bit_setB_same s _ _ (by decide)) ht
  exact ⟨⟨hbusy, hdie, fun r hr => ⟨hin r hr, hregions r hr⟩, hother, hdown⟩, SameMemory.trans (.of_eq rfl rfl rfl) hmem⟩

/-- Settles O25, command by command: each is a write that reaches its register and comes to one operation, granted or refused. -/
theorem ownershipAndResetsBegin : Obligations.OwnershipAndResetsBegin := by
  refine fun s p d hp ha => ⟨fun r c hr hc h => ?_, fun r hr hu h => ?_, fun r hr hu h => ?_, fun n hn hu h => ?_⟩
  · refine .of_exec (exec_assign hp hr hc h ha) ?_
    cases hok : s.assignOk r with
    | false => exact ⟨fun _ => State.assign_refused hok, nofun, State.assign_refused hok ▸ .of_eq rfl rfl rfl⟩
    | true =>
      obtain ⟨hbusy, hjob, howner, hreset, hcleared, hmem⟩ := State.assign_spec hc hok rfl
      exact ⟨nofun, fun _ => ⟨hbusy, hjob, howner, hreset, hcleared⟩, hmem⟩
  · refine .of_exec (exec_release hp hr h ha) ?_
    by_cases hno : (s.rg r).owner = none ∨ s.bit A.assignStatus 0 = true
    · have heq := State.release_refused hno
      exact ⟨fun _ => heq, fun c ho hb => by simp [ho, hb] at hno, heq ▸ .of_eq rfl rfl rfl⟩
    · obtain ⟨howned, hfree⟩ := not_or.mp hno
      obtain ⟨c, ho⟩ := Option.ne_none_iff_exists'.mp howned
      have hfree := Bool.eq_false_iff.mpr hfree
      obtain ⟨-, hmem⟩ := State.release_spec hu hr ho hfree rfl
      exact ⟨fun h => absurd h hno, fun c ho hb => (State.release_spec hu hr ho hb rfl).1, hmem⟩
  · refine .of_exec (exec_regionReset hp hr h ha) ?_
    cases hin : s.resetting r with
    | true => exact ⟨fun _ => State.requestRegionReset_refused hin, nofun, State.requestRegionReset_refused hin ▸ .of_eq rfl rfl rfl⟩
    | false =>
      obtain ⟨hbegins, hmem⟩ := State.requestRegionReset_spec hu ha hr hin rfl
      exact ⟨nofun, fun _ => hbegins, hmem⟩
  · refine .of_exec (exec_dieReset hp hn h ha) ?_
    by_cases hin : n ∈ s.dieReset
    · exact ⟨fun _ => State.requestDieReset_refused hin, fun hnot => absurd hin hnot, State.requestDieReset_refused hin ▸ .of_eq rfl rfl rfl⟩
    · obtain ⟨hbegins, hmem⟩ := State.requestDieReset_spec hu ha hn hin rfl
      exact ⟨fun hh => absurd hh hin, fun _ => hbegins, hmem⟩

end Sys2Proof.Machine
end

section
/-!
SUPPORT. The work Ralrad finishes: maquette loads, activations, stagings, messages of the inbox (R424, R444, R447 to R449, R503).
-/
namespace Sys2Proof.Machine

variable {s t u : State}

/-! ### What the flash's writes leave alone (R440, R451) -/

/-- `t` is `s` but for the flash, the count of its erases and the header's status. -/
structure FlashStep (s t : State) : Prop where
  rest : t = { s with flash := t.flash, regs := t.regs, hidden := t.hidden, counted := t.counted }
  reg  : ∀ a, a ≠ A.flashErases → a ≠ A.hdrStatus → t.reg a = s.reg a

namespace FlashStep

theorem refl (s : State) : FlashStep s s := ⟨rfl, fun _ _ _ => rfl⟩

theorem trans (h : FlashStep s t) (h' : FlashStep t u) : FlashStep s u where
  rest := h'.rest.trans (congrArg (fun v : State => { v with flash := u.flash, regs := u.regs, hidden := u.hidden, counted := u.counted }) h.rest)
  reg a he hs := (h'.reg a he hs).trans (h.reg a he hs)

theorem regsOnly (h : RegsOnly (fun a => a = A.flashErases ∨ a = A.hdrStatus) s t) : FlashStep s t where
  rest := by
    obtain ⟨hr, -⟩ := h
    rw [hr]
  reg a he hs := h.reg a (not_or.mpr ⟨he, hs⟩)

theorem program (h : FlashStep s t) (o : Nat) (bs : List Byte) : FlashStep s (t.program o bs) := h.trans ⟨rfl, fun _ _ _ => rfl⟩

theorem blank (h : FlashStep s t) (sector : Nat) : FlashStep s (t.blank sector) := h.trans ⟨rfl, fun _ _ _ => rfl⟩

theorem bumpErases (h : FlashStep s t) : FlashStep s (t.bump A.flashErases 1) := h.trans (.regsOnly (.bump t 1 (.inl rfl)))

theorem setStatus (h : FlashStep s t) (w : Reg64) : FlashStep s (t.setReg A.hdrStatus w) := h.trans (.regsOnly (.setReg t w (.inr rfl)))

theorem ite {c : Prop} [Decidable c] (ht : FlashStep s t) (hu : FlashStep s u) : FlashStep s (if c then t else u) := by
  split
  · exact ht
  · exact hu

theorem logAppend (h : FlashStep s t) (sector count : Nat) : FlashStep s (t.logAppend sector count) := by
  unfold State.logAppend
  extract_lets i j s1 n sec counts s2
  have h1 : FlashStep s s1 := h.program _ _
  clear_value s1 j counts
  split
  · exact h1
  · exact (h1.blank sec).bumpErases.program _ _

theorem eraseSector (h : FlashStep s t) (sector : Nat) : FlashStep s (t.eraseSector sector) := by
  unfold State.eraseSector
  exact (h.blank sector).bumpErases.logAppend ..

theorem writeArea (h : FlashStep s t) (o : Nat) (bs : List Byte) : FlashStep s (t.writeArea o bs) :=
  program (List.foldlRecOn (motive := FlashStep s) (sectorsOf o bs.length) State.eraseSector h fun _ h sector _ => h.eraseSector sector) o bs

theorem writeHeader (h : FlashStep s t) (slot set : Nat) : FlashStep s (t.writeHeader slot set) := by
  unfold State.writeHeader
  split
  · exact h.setStatus _
  · exact .ite (h.setStatus _) (((h.writeArea _ _).setStatus _).setStatus _)

theorem mem (h : FlashStep s t) : t.mem = s.mem := (congrArg State.mem h.rest).trans rfl
theorem spdm (h : FlashStep s t) : t.spdm = s.spdm := (congrArg State.spdm h.rest).trans rfl

theorem bit (h : FlashStep s t) {a i : Nat} (he : a ≠ A.flashErases) (hs : a ≠ A.hdrStatus) : t.bit a i = s.bit a i :=
  congrArg (fun w : Reg64 => w.toNat.testBit i) (h.reg a he hs)

theorem fieldN (h : FlashStep s t) {a lo len : Nat} (he : a ≠ A.flashErases) (hs : a ≠ A.hdrStatus) : t.fieldN a lo len = s.fieldN a lo len :=
  congrArg (regField · lo len) (h.reg a he hs)

end FlashStep

/-- Bytes programmed from an offset on stand there in order. -/
theorem Sparse.get_programmed (o : Nat) (bs : List Byte) (k : Nat) (m : Sparse Byte) {i : Nat} (hi : i < bs.length) :
    Sparse.get 0xFF#8 ((numberFrom (fun i b => (o + i, b)) k bs).foldl (fun m p => Sparse.set 0xFF#8 m p.1 p.2) m) (o + (k + i)) = nth 0#8 bs i := by
  induction bs generalizing k m i with
  | nil => simp at hi
  | cons b bs ih =>
    rw [numberFrom, List.foldl_cons]
    cases i with
    | zero =>
      rw [Sparse.get_foldl_set_ne _ fun p hp => ?_]
      · exact Sparse.get_set_same ..
      · obtain ⟨j, x, hj, -, rfl⟩ := numberFrom_index hp
        dsimp only
        omega
    | succ i =>
      rw [show o + (k + (i + 1)) = o + (k + 1 + i) by omega, ih (k + 1) _ (by simpa using hi)]
      rfl

theorem State.get_writeArea (s : State) (o : Nat) (bs : List Byte) {i : Nat} (hi : i < bs.length) :
    Sparse.get 0xFF#8 (s.writeArea o bs).flash (o + i) = nth 0#8 bs i := by
  have h := Sparse.get_programmed o bs 0 ((sectorsOf o bs.length).foldl State.eraseSector s).flash hi
  rwa [Nat.zero_add] at h

/-! ### Maquette loads (R444) -/

theorem State.maqLoadDone_loads {x : CfgSet} (hl : s.maqState = 1) (hx : s.setAt (1 - s.activeSet) = .ok x) :
    s.maqLoadDone = { s.setReg A.maqStatus 2 with maq := some x } := by
  rw [State.maqLoadDone, if_neg (by simp [hl]), hx]

theorem State.maqLoadDone_rejects {e : Nat} (hl : s.maqState = 1) (hx : s.setAt (1 - s.activeSet) = .error e) :
    s.maqLoadDone = s.setReg A.maqStatus (BitVec.ofNat 64 (3 + 16 * e)) := by
  rw [State.maqLoadDone, if_neg (by simp [hl]), hx]

/-- CFG_MAQ_STATUS as it is written with a state and an error. -/
theorem State.maqStatus_written (s : State) {state e : Nat} (hs : state < 8) (he : e < 16) :
    (s.setReg A.maqStatus (BitVec.ofNat 64 (state + 16 * e))).maqState = state
    ∧ (s.setReg A.maqStatus (BitVec.ofNat 64 (state + 16 * e))).fieldN A.maqStatus 4 4 = e := by
  simp only [State.maqState, State.fieldN, State.reg_setReg_same, regField, field, BitVec.toNat_ofNat, Nat.shiftRight_eq_div_pow]
  omega

theorem State.maqLoadDone_spec (hl : s.maqState = 1) (ht : s.maqLoadDone = t) :
    (∀ x, s.setAt (1 - s.activeSet) = .ok x → t.maqState = 2 ∧ t.maq = some x ∧ t.active = s.active)
    ∧ (∀ e, s.setAt (1 - s.activeSet) = .error e → e < 16 → t.maqState = 3 ∧ t.fieldN A.maqStatus 4 4 = e ∧ t.maq = s.maq)
    ∧ (∀ a, a ≠ A.maqStatus → t.reg a = s.reg a) ∧ SameMemory s t := by
  subst ht
  cases hx : s.setAt (1 - s.activeSet) with
  | ok x =>
    rw [State.maqLoadDone_loads hl hx]
    refine ⟨fun y hy => ⟨(s.maqStatus_written (state := 2) (e := 0) (by decide) (by decide)).1, ?_, rfl⟩, nofun, fun a ha => s.reg_setReg_ne _ ha,
      .of_eq rfl rfl rfl⟩
    rw [Except.ok.inj hy]
  | error e =>
    rw [State.maqLoadDone_rejects hl hx]
    refine ⟨nofun, fun e' he' hlt => ?_, fun a ha => s.reg_setReg_ne _ ha, .of_eq rfl rfl rfl⟩
    obtain rfl := Except.error.inj he'
    obtain ⟨hstate, herror⟩ := s.maqStatus_written (state := 3) (by decide) hlt
    exact ⟨hstate, herror, rfl⟩

/-! ### Activations (R424, R447, R448) -/

theorem State.dropHistories_rest (s : State) : s.dropHistories = { s with ctxs := s.dropHistories.ctxs } :=
  List.foldlRecOn (motive := fun t : State => t = { s with ctxs := t.ctxs }) (List.range 16) _ rfl fun t h c _ =>
    congrArg (fun v : State => { v with ctxs := (t.modCx c fun x => { x with hist := [] }).ctxs }) h

/-- The image that runs has committed its record. -/
def State.committed (s : State) : State :=
  (({ s with spdm := { s.spdm with stale := s.spdm.version } } : State).setActivating false).commitRecord.dropHistories

/-- ACTIVATING falls, a record is committed, and transcripts begun before are stale; no other register changes. -/
structure Committed (s t : State) : Prop where
  active : t.activating = false
  status : t.bit A.fwStatus 0 = false
  spdm   : t.spdm = { s.spdm with stale := s.spdm.version, record := s.spdm.record + 1 }
  reg    : ∀ a, a ≠ A.secStatus → a ≠ A.fwStatus → t.reg a = s.reg a
  mem    : t.mem = s.mem
  flash  : t.flash = s.flash

theorem State.committed_spec (s : State) : Committed s s.committed := by
  unfold State.committed
  generalize hu : ({ s with spdm := { s.spdm with stale := s.spdm.version } } : State) = u
  have hspdm : u.spdm = { s.spdm with stale := s.spdm.version } := hu ▸ rfl
  have hreg (a : Nat) : u.reg a = s.reg a := hu ▸ rfl
  have hmem : u.mem = s.mem := hu ▸ rfl
  have hflash : u.flash = s.flash := hu ▸ rfl
  rw [State.dropHistories_rest]
  generalize State.ctxs _ = xs
  refine ⟨?_, State.bit_setB_same _ A.fwStatus _ (by decide), ?_, fun a hsec hfw => ?_, hmem, hflash⟩
  · refine (congrArg (fun w : Reg64 => w.toNat.testBit 3) (State.reg_setB_ne (u.setB A.secStatus 3 false) 0 false ?_)).trans ?_
    · decide
    · exact State.bit_setB_same _ _ _ (by decide)
  · show ({ u.spdm with record := u.spdm.record + 1 } : Spdm) = _
    rw [hspdm]
  · exact ((State.reg_setB_ne _ _ _ hfw).trans (State.reg_setB_ne _ _ _ hsec)).trans (hreg a)

theorem State.fwCommit_prior (ha : s.activating = true) (hp : s.firm.prior = true) : s.fwCommit = s.committed := by
  rw [State.fwCommit, if_neg (by simp [ha])]
  exact if_pos hp

/-- RUNNING_SLOT is written to the header where that is asked for. -/
def State.keepSlot (s : State) (persist : Bool) (slot : Nat) : State :=
  if persist then s.writeHeader slot (s.fieldN A.hdrStatus 1 1) else s

theorem State.keepSlot_no (s : State) (slot : Nat) : s.keepSlot false slot = s := rfl

theorem FlashStep.keepSlot (s : State) (persist : Bool) (slot : Nat) : FlashStep s (s.keepSlot persist slot) :=
  .ite ((FlashStep.refl s).writeHeader _ _) (.refl s)

/-- The staged image becomes RUNNING_SLOT, in the header too where that is asked for. -/
theorem State.fwCommit_staged (ha : s.activating = true) (hp : s.firm.prior = false) :
    s.fwCommit = (s.committed.setFld A.bootStatus 12 1 (1 - s.runningSlot)).keepSlot s.firm.persist (1 - s.runningSlot) := by
  rw [State.fwCommit, if_neg (by simp [ha]), State.keepSlot]
  exact if_neg (by simp [hp])

/-- What a commit leaves: ACTIVATING 0, a record more, transcripts stale, and RUNNING_SLOT as given. -/
def Activated (s : State) (slot : Nat) (t : State) : Prop :=
  t.activating = false ∧ t.bit A.fwStatus 0 = false ∧ t.spdm.record = s.spdm.record + 1 ∧ t.spdm.stale = s.spdm.version
    ∧ t.runningSlot = slot ∧ t.mem = s.mem

theorem Committed.activated (h : Committed s t) : Activated s s.runningSlot t :=
  ⟨h.active, h.status, by rw [h.spdm], by rw [h.spdm], congrArg (regField · 12 1) (h.reg A.bootStatus (by decide) (by decide)), h.mem⟩

theorem Activated.setSlot {old slot : Nat} (h : Activated s old t) (hs : slot < 2) : Activated s slot (t.setFld A.bootStatus 12 1 slot) := by
  obtain ⟨hactive, hstatus, hrecord, hstale, -, hmem⟩ := h
  have hother {a : Nat} (i : Nat) (ha : a ≠ A.bootStatus) : (t.setFld A.bootStatus 12 1 slot).bit a i = t.bit a i :=
    congrArg (fun w : Reg64 => w.toNat.testBit i) (State.reg_setReg_ne _ _ ha)
  refine ⟨(hother (a := A.secStatus) 3 (by decide)).trans hactive, (hother (a := A.fwStatus) 0 (by decide)).trans hstatus, hrecord, hstale, ?_, hmem⟩
  rw [State.runningSlot, State.setFld_eq, State.fieldN, State.reg_setReg_same, regField_setField _ _ _ _ (by decide)]
  exact Nat.mod_eq_of_lt hs

theorem Activated.flashStep {slot : Nat} (h : Activated s slot t) (hu : FlashStep t u) : Activated s slot u := by
  obtain ⟨hactive, hstatus, hrecord, hstale, hslot, hmem⟩ := h
  have hbit {a : Nat} (i : Nat) (he : a ≠ A.flashErases) (hs : a ≠ A.hdrStatus) : u.bit a i = t.bit a i := hu.bit he hs
  refine ⟨(hbit (a := A.secStatus) 3 (by decide) (by decide)).trans hactive, (hbit (a := A.fwStatus) 0 (by decide) (by decide)).trans hstatus, ?_, ?_,
    (hu.fieldN (a := A.bootStatus) (lo := 12) (len := 1) (by decide) (by decide)).trans hslot, hu.mem.trans hmem⟩
  · rw [hu.spdm, hrecord]
  · rw [hu.spdm, hstale]

theorem State.runningSlot_lt (s : State) : s.runningSlot < 2 := Nat.mod_lt _ (by decide)

theorem State.fwCommit_spec (ha : s.activating = true) :
    Activated s (if s.firm.prior then s.runningSlot else 1 - s.runningSlot) s.fwCommit ∧ (s.firm.persist = false → s.fwCommit.flash = s.flash) := by
  have h := s.committed_spec
  cases hp : s.firm.prior with
  | true =>
    rw [State.fwCommit_prior ha hp]
    exact ⟨h.activated, fun _ => h.flash⟩
  | false =>
    rw [State.fwCommit_staged ha hp]
    have hslot : Activated s (1 - s.runningSlot) (s.committed.setFld A.bootStatus 12 1 (1 - s.runningSlot)) := h.activated.setSlot (by omega)
    have hflash : (s.committed.setFld A.bootStatus 12 1 (1 - s.runningSlot)).flash = s.flash := h.flash
    generalize s.committed.setFld A.bootStatus 12 1 (1 - s.runningSlot) = u at hslot hflash
    refine ⟨hslot.flashStep (.keepSlot ..), fun hno => ?_⟩
    rw [hno, State.keepSlot_no, hflash]

theorem State.fwTimeout_spec (ha : s.activating = true) (hp : s.firm.prior = false) (ht : s.fwTimeout = t) :
    t.bit A.fwStatus 1 = true ∧ t.firm.prior = true ∧ t.activating = true ∧ t.runningSlot = s.runningSlot
    ∧ (∀ a, a ≠ A.fwStatus → t.reg a = s.reg a) ∧ SameMemory s t := by
  have hreg (a : Nat) (h : a ≠ A.fwStatus) : (s.setB A.fwStatus 1 true).reg a = s.reg a := State.reg_setB_ne s 1 true h
  rw [State.fwTimeout, if_pos (by simp [ha, hp])] at ht
  subst ht
  exact ⟨State.bit_setB_same s _ _ (by decide), rfl, (congrArg (fun w : Reg64 => w.toNat.testBit 3) (hreg A.secStatus (by decide))).trans ha,
    congrArg (regField · 12 1) (hreg A.bootStatus (by decide)), hreg, .of_eq rfl rfl rfl⟩

/-! ### Stagings and the inbox (R449, R503) -/

theorem State.stageDone_spec {w : Nat} {bs : List Byte} (hs : s.firm.stage = some (w, bs)) (ht : s.stageDone = t) :
    t.staging = false ∧ t.bit A.stageStatus 1 = true ∧ t.firm.stage = none ∧ t.mem = s.mem
    ∧ (w < 2 → ∀ i, i < bs.length → Sparse.get 0xFF#8 t.flash (flashSlot w + i) = nth 0#8 bs i) := by
  unfold State.stageDone at ht
  rw [hs] at ht
  dsimp only at ht
  have hslot : w < 2 → (stageWrites w bs).foldl (fun s x => s.writeArea x.1 x.2) s = s.writeArea (flashSlot w) bs := fun hw => by
    rw [stageWrites, if_pos hw]
    rfl
  have hstep : FlashStep s ((stageWrites w bs).foldl (fun s x => s.writeArea x.1 x.2) s) :=
    List.foldlRecOn (motive := FlashStep s) _ _ (.refl s) fun _ h x _ => h.writeArea x.1 x.2
  generalize (stageWrites w bs).foldl (fun s x => s.writeArea x.1 x.2) s = u at ht hslot hstep
  subst ht
  refine ⟨(State.bit_setB_ne (u.setB A.stageStatus 0 false) A.stageStatus true (by decide)).trans (State.bit_setB_same u _ _ (by decide)),
    State.bit_setB_same _ _ _ (by decide), rfl, hstep.mem, fun hw i hi => ?_⟩
  rw [← s.get_writeArea (flashSlot w) bs hi, ← hslot hw]
  rfl

theorem State.mboxInTaken_spec {bs : List Byte} (hs : s.taking = some bs) (ht : s.mboxInTaken = t) :
    t.taking = none ∧ t.bit A.mboxInStatus 0 = false ∧ t.bit A.mboxInStatus 1 = true ∧ (∀ a, a ≠ A.mboxInStatus → t.reg a = s.reg a)
    ∧ SameMemory s t := by
  unfold State.mboxInTaken at ht
  rw [hs] at ht
  subst ht
  exact ⟨rfl, (State.bit_setB_ne (s.setB A.mboxInStatus 0 false) A.mboxInStatus true (by decide)).trans (State.bit_setB_same s _ _ (by decide)),
    State.bit_setB_same _ _ _ (by decide), fun a ha => (State.reg_setB_ne _ _ _ ha).trans (State.reg_setB_ne _ _ _ ha), .of_eq rfl rfl rfl⟩

theorem State.halfUp_of_up (hu : s.up = true) : s.halfUp = true := by
  have hb : (s.boot == .ready) = true := hu
  simp [State.halfUp, hb]

/-- Settles O41, row by row: with the module up, each is what Ralrad does at the end of its work. -/
theorem ralradsWorkEnds : Obligations.RalradsWorkEnds := by
  refine fun s hu => ⟨fun hl => ?_, fun ha hidle => ?_, fun ha hp => ?_, fun w bs hs => ?_, fun bs hs => ?_⟩
  · exact .of_exec (congrArg Host.Outcome.next (if_pos hu)) (State.maqLoadDone_spec hl rfl)
  · refine .of_exec (congrArg Host.Outcome.next ((State.thenRetry_of_idle hidle _).trans (if_pos hu))) ?_
    obtain ⟨⟨hactive, hstatus, hrecord, hstale, hslot, hmem⟩, hflash⟩ := State.fwCommit_spec ha
    exact ⟨hactive, hstatus, hrecord, hstale, hslot, hmem, hflash⟩
  · exact .of_exec (congrArg Host.Outcome.next (if_pos hu)) (State.fwTimeout_spec ha hp rfl)
  · exact .of_exec (congrArg Host.Outcome.next (if_pos (State.halfUp_of_up hu))) (State.stageDone_spec hs rfl)
  · exact .of_exec (congrArg Host.Outcome.next (if_pos hu)) (State.mboxInTaken_spec hs rfl)

end Sys2Proof.Machine
end

section
/-!
SUPPORT. What Muolmorn asks of memory (R500): reads of clean granules, and writes of whole bytes, whatever the granules they reach hold.
-/
namespace Sys2Proof.Machine

variable {s t u : State}

/-! ### Reads of clean granules -/

theorem nth_eq_getD {α : Type} (d : α) (l : List α) (i : Nat) : nth d l i = l[i]?.getD d := by
  induction l generalizing i with
  | nil => rfl
  | cons x l ih =>
    cases i with
    | zero => rfl
    | succ i => exact ih i

/-- A byte of blocks of 32 laid end to end. -/
theorem nth_blocks {f : Nat → List Byte} (hf : ∀ k, (f k).length = 32) (k n i : Nat) (hi : i < 32 * n) :
    nth 0#8 ((List.range' k n).flatMap f) i = nth 0#8 (f (k + i / 32)) (i % 32) := by
  induction n generalizing k i with
  | zero => omega
  | succ n ih =>
    rw [List.range'_succ, List.flatMap_cons, nth_eq_getD, List.getElem?_append, hf]
    split
    · next h => rw [← nth_eq_getD, Nat.div_eq_of_lt h, Nat.mod_eq_of_lt h, Nat.add_zero]
    · next h =>
      rw [← nth_eq_getD, ih (k + 1) (i - 32) (by omega), show k + 1 + (i - 32) / 32 = k + i / 32 by omega, show (i - 32) % 32 = i % 32 by omega]

theorem length_blocks {f : Nat → List Byte} (hf : ∀ k, (f k).length = 32) (l : List Nat) : (l.flatMap f).length = 32 * l.length := by
  induction l with
  | nil => rfl
  | cons k l ih => rw [List.flatMap_cons, List.length_append, hf, ih, List.length_cons, Nat.mul_succ, Nat.add_comm]

theorem State.length_granSeen (s : State) (g : Nat) (key : Option Nat) : (s.granSeen g key).length = 32 := by
  unfold State.granSeen
  dsimp only
  split
  · exact length_readBytes ..
  · exact length_natToBytes ..

theorem State.length_blockAt (s : State) (g : Nat) : (s.blockAt g).length = 32 := by
  unfold State.blockAt
  split
  · exact s.length_granSeen ..
  · exact length_readBytes ..

theorem State.blockAt_clean {g : Nat} (h : s.granAt g = Gran.clean) : s.blockAt g = s.mem.readBytes g 32 := by
  have hseen : s.granSeen g none = s.mem.readBytes g 32 := congrArg GranRead.bytes (State.readGran_plain h)
  rw [State.blockAt, hseen]
  exact ite_self _

theorem State.readPlain_eq (s : State) (a n : Nat) :
    (s.readPlain a n).1 = (((List.range' 0 (ceilDiv (a % 32 + n) 32)).flatMap fun i => s.blockAt (granOf a + 32 * i)).drop (a % 32)).take n := by
  unfold State.readPlain
  dsimp only
  rw [show a - granOf a = a % 32 by unfold granOf; omega, List.flatMap_map, ← List.range_eq_range']

/-- Clean granules read what memory holds. -/
theorem State.readPlain_clean {a n : Nat} (h : ∀ i, i < n → s.granAt (a + i) = Gran.clean) :
    (s.readPlain a n).1 = (List.range n).map fun i => s.mem.read (a + i) := by
  have hf (i : Nat) := s.length_blockAt (granOf a + 32 * i)
  have hroom : a % 32 + n ≤ 32 * ceilDiv (a % 32 + n) 32 := by unfold ceilDiv; omega
  rw [s.readPlain_eq]
  have hlen : ((((List.range' 0 (ceilDiv (a % 32 + n) 32)).flatMap fun i => s.blockAt (granOf a + 32 * i)).drop (a % 32)).take n).length = n := by
    rw [List.length_take, List.length_drop, length_blocks hf, List.length_range']
    omega
  rw [← map_nth_range (List.take n _), hlen]
  refine List.map_congr_left fun i hi => ?_
  have hi : i < n := List.mem_range.mp hi
  have hgran : granOf (granOf a + 32 * ((a % 32 + i) / 32)) = granOf (a + i) := by unfold granOf; omega
  have hclean : s.granAt (granOf a + 32 * ((a % 32 + i) / 32)) = Gran.clean := by
    rw [← s.granAt_granOf, hgran, s.granAt_granOf, h i hi]
  rw [nth_eq_getD, List.getElem?_take_of_lt hi, List.getElem?_drop, ← nth_eq_getD, nth_blocks hf _ _ _ (by omega), Nat.zero_add,
    State.blockAt_clean hclean, nth_readBytes, if_pos (Nat.mod_lt _ (by decide))]
  congr 1
  unfold granOf
  omega

/-! ### Writes of whole bytes -/

/-- The last of the whole bytes written to an address stands there, where all of them agree. -/
theorem merged_whole {ws : List Wr} {c : Nat} {v : Byte} (hall : ∀ w ∈ ws, w.addr = c → w.val = v ∧ w.mask = 0xFF#8) (b : Byte)
    (hb : b = v ∨ ∃ w ∈ ws, w.addr = c) : ws.foldl (fun b w => if w.addr == c then mergeByte b w.val w.mask else b) b = v := by
  induction ws generalizing b with
  | nil =>
    rcases hb with hb | ⟨w, hw, -⟩
    · exact hb
    · exact absurd hw (by simp)
  | cons w ws ih =>
    refine ih (fun w' hw' => hall w' (by simp [hw'])) _ ?_
    dsimp only
    by_cases hc : w.addr = c
    · obtain ⟨hval, hmask⟩ := hall w (by simp) hc
      exact .inl (by rw [if_pos (by simp [hc]), hmask, mergeByte_whole, hval])
    · rw [if_neg (by simp [hc])]
      rcases hb with hb | ⟨w', hw', hc'⟩
      · exact .inl hb
      · rcases List.mem_cons.mp hw' with rfl | hw'
        · exact absurd hc' hc
        · exact .inr ⟨w', hw', hc'⟩

theorem State.writeGran_elsewhere (s : State) {g c : Nat} (hg : granOf g = g) (hc : granOf c ≠ g) (ws : List Wr) :
    (s.writeGran .plain g ws).mem.read c = s.mem.read c ∧ (s.writeGran .plain g ws).granAt c = s.granAt c := by
  unfold State.writeGran
  extract_lets m key gen seen new whole bad p s1
  have hlen : new.length = 32 := (length_numberFrom ..).trans (s.length_granSeen ..)
  refine ⟨(Memory.read_writeBytes_nth ..).trans (if_neg ?_), (Sparse.get_set ..).trans (if_neg fun h => hc (h.trans hg))⟩
  rw [hlen]
  unfold granOf at hg hc
  omega

theorem State.writeGran_whole (s : State) {c : Nat} {v : Byte} {ws : List Wr} (hall : ∀ w ∈ ws, w.addr = c → w.val = v ∧ w.mask = 0xFF#8)
    (hsome : ∃ w ∈ ws, w.addr = c) : (s.writeGran .plain (granOf c) ws).mem.read c = v := by
  have hin : granOf c ≤ c ∧ c < granOf c + 32 := by unfold granOf; omega
  have hsum : granOf c + (0 + (c - granOf c)) = c := by omega
  unfold State.writeGran
  extract_lets m key gen seen new whole bad p s1
  have hseen : seen.length = 32 := s.length_granSeen ..
  have hlen : new.length = 32 := (length_numberFrom ..).trans hseen
  refine (Memory.read_writeBytes_nth ..).trans ?_
  rw [if_pos (by omega), nth_numberFrom, if_pos (by omega), hsum]
  exact merged_whole hall _ (.inr hsome)

theorem mem_numberFrom_nth {α β : Type} {f : Nat → α → β} {y : β} (d : α) (l : List α) (k : Nat) :
    y ∈ numberFrom f k l ↔ ∃ i, i < l.length ∧ y = f (k + i) (nth d l i) := by
  induction l generalizing k with
  | nil => simp [numberFrom]
  | cons x l ih =>
    rw [numberFrom, List.mem_cons, ih]
    constructor
    · rintro (rfl | ⟨i, hi, rfl⟩)
      · exact ⟨0, by simp, rfl⟩
      · exact ⟨i + 1, by simpa using hi, by rw [Nat.add_assoc, Nat.add_comm 1]; rfl⟩
    · rintro ⟨_ | i, hi, rfl⟩
      · exact .inl rfl
      · exact .inr ⟨i, by simpa using hi, by rw [Nat.add_assoc, Nat.add_comm 1]; rfl⟩

theorem mem_wrBytes {a : Nat} {bs : List Byte} {w : Wr} : w ∈ wrBytes a bs ↔ ∃ i, i < bs.length ∧ w = ⟨a + i, nth 0#8 bs i, 0xFF#8, false⟩ := by
  rw [wrBytes, mem_numberFrom_nth 0#8]
  simp only [Nat.zero_add]

/-- The writes of one granule are done, the granule named by an address in it. -/
def State.writeGranOf (ws : List Wr) (s : State) (g : Nat) : State :=
  s.writeGran .plain (granOf g) (ws.filter fun w => granOf w.addr == granOf g)

/-- Writes to HBM or CXL go granule by granule. -/
theorem State.writeAll_eq (s : State) {ws : List Wr} (hg : ∀ w ∈ ws, isGran w.addr = true) :
    s.writeAll .plain ws = (granulesOf ws).foldl (State.writeGranOf ws) s := by
  have hchip : ws.filter (fun w => !isGran w.addr) = [] := List.filter_eq_nil_iff.mpr fun w hw => by simp [hg w hw]
  have hgr : ws.filter (fun w => isGran w.addr) = ws := List.filter_eq_self.mpr hg
  unfold State.writeAll
  rw [hchip, hgr]
  refine List.foldl_ext _ _ _ fun t g hgs => ?_
  obtain ⟨w, -, rfl⟩ := List.mem_map.mp (mem_dedupNat.mp hgs)
  rw [State.writeGranOf, granOf_granOf]

theorem mem_granulesOf_wrBytes {a g : Nat} {bs : List Byte} : g ∈ granulesOf (wrBytes a bs) ↔ ∃ i, i < bs.length ∧ g = granOf (a + i) := by
  rw [granulesOf, mem_dedupNat, List.mem_map]
  refine ⟨fun ⟨w, hw, h⟩ => ?_, fun ⟨i, hi, h⟩ => ⟨_, mem_wrBytes.mpr ⟨i, hi, rfl⟩, h.symm⟩⟩
  obtain ⟨i, hi, rfl⟩ := mem_wrBytes.mp hw
  exact ⟨i, hi, h.symm⟩

theorem State.read_writeGranOf (s : State) {a i g : Nat} {bs : List Byte} (hi : i < bs.length) (hg : granOf (a + i) = granOf g) :
    (s.writeGranOf (wrBytes a bs) g).mem.read (a + i) = nth 0#8 bs i := by
  rw [State.writeGranOf, ← hg]
  refine s.writeGran_whole (fun w hw haddr => ?_) ⟨_, List.mem_filter.mpr ⟨mem_wrBytes.mpr ⟨i, hi, rfl⟩, by simp⟩, rfl⟩
  obtain ⟨j, -, rfl⟩ := mem_wrBytes.mp (List.mem_filter.mp hw).1
  obtain rfl : j = i := by simpa using haddr
  exact ⟨rfl, rfl⟩

theorem wrBytes_isGran {a : Nat} {bs : List Byte} (hg : ∀ i, i < bs.length → isGran (a + i) = true) : ∀ w ∈ wrBytes a bs, isGran w.addr = true := fun w hw => by
  obtain ⟨i, hi, rfl⟩ := mem_wrBytes.mp hw
  exact hg i hi

/-- Whole bytes written to HBM or CXL stand there. -/
theorem State.read_writeAll (s : State) {a i : Nat} {bs : List Byte} (hg : ∀ j, j < bs.length → isGran (a + j) = true) (hi : i < bs.length) :
    (s.writeAll .plain (wrBytes a bs)).mem.read (a + i) = nth 0#8 bs i := by
  rw [s.writeAll_eq (wrBytes_isGran hg)]
  refine foldl_establishes (Q := fun g t => granOf (a + i) = granOf g → t.mem.read (a + i) = nth 0#8 bs i)
    (fun t g h => t.read_writeGranOf hi h) (fun t q g hQ h => ?_) _ s (mem_granulesOf_wrBytes.mpr ⟨i, hi, rfl⟩) (granOf_granOf _).symm
  by_cases hq : granOf (a + i) = granOf q
  · exact t.read_writeGranOf hi hq
  · exact (t.writeGran_elsewhere (granOf_granOf q) hq _).1.trans (hQ h)

/-- Every granule that whole bytes do not touch stays as it was. -/
theorem State.writeAll_elsewhere (s : State) {a b : Nat} {bs : List Byte} (hg : ∀ i, i < bs.length → isGran (a + i) = true)
    (hb : ∀ i, i < bs.length → granOf (a + i) ≠ granOf b) :
    (s.writeAll .plain (wrBytes a bs)).mem.read b = s.mem.read b ∧ (s.writeAll .plain (wrBytes a bs)).granAt b = s.granAt b := by
  rw [s.writeAll_eq (wrBytes_isGran hg)]
  refine List.foldlRecOn (motive := fun t : State => t.mem.read b = s.mem.read b ∧ t.granAt b = s.granAt b) _ _ ⟨rfl, rfl⟩ fun t ht g hgs => ?_
  obtain ⟨hm, hgr⟩ := ht
  obtain ⟨i, hi, rfl⟩ := mem_granulesOf_wrBytes.mp hgs
  obtain ⟨hm', hgr'⟩ := t.writeGran_elsewhere (c := b) (granOf_granOf (granOf (a + i))) (by rw [granOf_granOf]; exact (hb i hi).symm) _
  exact ⟨hm'.trans hm, hgr'.trans hgr⟩

theorem MemoryOnly.writeChip (h : MemoryOnly s t) (w : Wr) : MemoryOnly s (t.writeChip w) := by
  unfold MemoryOnly at h ⊢
  exact congrArg (fun v : State => { v with mem := (t.writeChip w).mem }) h

theorem MemoryOnly.writeGran (h : MemoryOnly s t) (via : Via) (g : Nat) (ws : List Wr) : MemoryOnly s (t.writeGran via g ws) := by
  unfold MemoryOnly at h ⊢
  exact congrArg (fun v : State => { v with mem := (t.writeGran via g ws).mem, gran := (t.writeGran via g ws).gran }) h

theorem State.writeAll_rest (s : State) (via : Via) (ws : List Wr) : MemoryOnly s (s.writeAll via ws) :=
  List.foldlRecOn (motive := MemoryOnly s) _ _ (List.foldlRecOn (motive := MemoryOnly s) _ _ rfl fun _ h w _ => h.writeChip w)
    fun _ h g _ => h.writeGran via g _

end Sys2Proof.Machine
end

section
/-!
SUPPORT. The companion's requests (R425, R494, R495, R500, R512): their turn, what they do, and the answers that leave.
-/
namespace Sys2Proof.Machine

variable {s s1 t u : State} {m : Nat} {x : Pkt} {e : Env}

/-! ### Answers (R494) -/

/-- A packet for the companion leaves by port `m`: nothing seals it, or a session does. -/
def State.CanAnswerMlm (s : State) (m : Nat) : Prop := s.dataProt = false ∨ (s.session (65536 + m)).isSome = true

theorem State.CanAnswerMlm.congr (h : s.CanAnswerMlm m) (ha : t.active = s.active) (hs : t.sessions = s.sessions) : t.CanAnswerMlm m := by
  unfold State.CanAnswerMlm State.dataProt State.session at h ⊢
  rwa [ha, hs]

theorem State.sendMlm_leaves (h : x.enc = false ∨ (s.session (65536 + m)).isSome = true) :
    ∃ ctr, OutMsg.mlm m { x with ctr } ∈ (s.sendMlm m x).outbox := by
  unfold State.sendMlm
  split
  · exact ⟨x.ctr, List.mem_cons_self⟩
  · next hc =>
    obtain ⟨y, hy⟩ := Option.isSome_iff_exists.mp (h.resolve_left fun hno => hc (by simp [hno]))
    rw [hy]
    refine ⟨y.sent, ?_⟩
    dsimp only
    split
    · exact List.mem_cons_self
    · exact List.mem_cons_self

theorem State.sendMlm_memory (s : State) (m : Nat) (x : Pkt) : SameMemory s (s.sendMlm m x) := by
  have hsent (key : Option Nat) (z : Pkt) : SameMemory s ((s.egressPkt (8 + m) key z).send (.mlm m z)) :=
    (State.egressPkt_memory ..).trans (.of_eq rfl rfl rfl)
  unfold State.sendMlm
  split
  · exact hsent ..
  · split
    · exact .refl s
    · next y _ =>
      have hsealed := hsent (some y.sendKey) { x with ctr := y.sent }
      exact .ite (hsealed.trans (.of_eq rfl rfl rfl)) (hsealed.trans (.of_eq rfl rfl rfl))

theorem State.answerMlm_memory (s : State) (m : Nat) (x : Pkt) (ptype status : Nat) (data : List Byte) (mask : Nat) :
    SameMemory s (s.answerMlm m x ptype status data mask) := State.sendMlm_memory ..

theorem State.answerMlm_data (hm : m < 2) (s : State) (x : Pkt) (ptype status : Nat) (data : List Byte) (mask : Nat) :
    DataStep s (s.answerMlm m x ptype status data mask) := State.sendMlm_data _ hm _

theorem State.answerMlm_answers (h : s.CanAnswerMlm m) (x : Pkt) (ptype status : Nat) (data : List Byte) (mask : Nat) :
    AnsweredMlm (s.answerMlm m x ptype status data mask) m ptype status x data := by
  obtain ⟨ctr, hleaves⟩ := State.sendMlm_leaves (s := s) (m := m)
    (x := { pktData (wrPacket ptype x.addr x.cls (s.dataProt && ptype < 0x20) [] x.aux) x.addr data mask with status, tag := x.tag })
    (h.imp_left fun hno => by simp [pktData, wrPacket, hno])
  exact ⟨_, hleaves, rfl, rfl, rfl, rfl⟩

/-! ### A request's turn (R419, R494, R501) -/

theorem State.drainPkt_rest (s : State) (ports : List Nat) (x : Pkt) : s.drainPkt ports x = { s with links := (s.drainPkt ports x).links } := by
  unfold State.drainPkt
  split
  · rfl
  · rfl

theorem State.mlmQueue_free (h : ∀ p ∈ s.heldMlm, p.port ≠ m) : s.mlmQueue m x e = s.mlmServe m x e :=
  if_neg (by simpa using h)

/-- A request that passes the checks with nothing waiting at its port is served at once. -/
theorem Admits.mlmRequest {ty : Nat} (h : Admits s m ty x s1) : s.mlmRequest m ty x e = s1.mlmServe m x e := by
  obtain ⟨-, hopen, htype, hres, hfree, hcheck⟩ := h
  have hrest := s.drainPkt_rest [8 + m] x
  unfold State.mlmRequest
  dsimp only
  generalize s.drainPkt [8 + m] x = d at hrest hopen hcheck ⊢
  have hheld : d.heldMlm = s.heldMlm := (congrArg State.heldMlm hrest).trans rfl
  have hprot : d.dataProt = s.dataProt := (congrArg State.dataProt hrest).trans rfl
  have hsession : d.session (65536 + m) = s.session (65536 + m) := (congrArg (State.session · (65536 + m)) hrest).trans rfl
  rw [if_neg (by simp [hopen, htype, hres]), hprot, hsession]
  rcases hcheck with ⟨hno, henc, rfl⟩ | ⟨hyes, henc, htag, hctr, y, hy, haccepts, rfl⟩
  · simp only [hno, henc, Bool.not_false, if_true, Bool.false_eq_true, if_false]
    exact State.mlmQueue_free (by rwa [hheld])
  · simp only [hyes, hy, henc, htag, haccepts, hctr, Bool.not_true, Bool.false_eq_true, if_false]
    exact State.mlmQueue_free (show ∀ p ∈ d.heldMlm, _ by rwa [hheld])

theorem Admits.type {ty : Nat} (h : Admits s m ty x s1) : x.ptype = ty := h.2.2.1

/-! ### Memory (R500) -/

theorem State.mlmMem_isGran {a n i : Nat} (h : s.mlmMem a n = true) (hi : i < n) : isGran (a + i) = true := by
  simp only [State.mlmMem, isGran, isHbm, isCxl, Bool.or_eq_true, Bool.and_eq_true, decide_eq_true_eq] at h ⊢
  omega

theorem State.noteReads_sessions (he : NoErrors e) (ls : List Loc) : (s.noteReads none e ls).sessions = s.sessions := by
  unfold State.noteReads
  extract_lets count
  refine List.foldlRecOn (motive := fun t : State => t.sessions = s.sessions) _ _ rfl fun t h p _ => ?_
  dsimp only
  rw [State.noteGran_quiet he]
  simp only [apply_ite State.sessions, State.noteCxl, State.tallyUe, State.bump_sessions, count, h, ite_self]

theorem State.noteTargets_clean {always : Bool} {ls : List Loc} (he : NoErrors e) (h : ∀ p a, always = true → Loc.page p a ∈ ls → s.granAt a = Gran.clean) :
    s.noteTargets always e ls = s := by
  unfold State.noteTargets
  extract_lets addrs reads
  refine foldl_same fun g hg => ?_
  rw [List.mem_filter, mem_dedupNat, List.mem_map] at hg
  obtain ⟨⟨a, ha, rfl⟩, -⟩ := hg
  obtain ⟨l, hl, hla⟩ := List.mem_filterMap.mp ha
  rw [State.noteGran_quiet he]
  refine if_neg fun hbad => ?_
  rw [Bool.and_eq_true, s.granAt_granOf] at hbad
  obtain ⟨halways, hpoison⟩ := hbad
  cases l with
  | page p b =>
    obtain rfl : b = a := by simpa using hla
    rw [h p b halways hl] at hpoison
    exact absurd hpoison (by decide)
  | chip b => simp at hla
  | bad k => simp at hla

theorem State.mlmRead_spec (he : NoErrors e) (hs : s.CanAnswerMlm m) (hc : ∀ i, i < x.len → s.granAt (x.addr + i) = Gran.clean) :
    AnsweredMlm (s.mlmRead m x e) m 2 0 x ((List.range x.len).map fun i => s.mem.read (x.addr + i)) ∧ SameMemory s (s.mlmRead m x e) := by
  have hmem : SameMemory s (s.noteReads none e (plainPlaces x.addr x.len)) := (SameMemory.refl s).noteReads he
  have hcan := hs.congr ((congrArg State.active (s.noteReads_data none e (plainPlaces x.addr x.len)).rest).trans rfl)
    (State.noteReads_sessions he (plainPlaces x.addr x.len))
  unfold State.mlmRead
  extract_lets t bad bs out mask
  have hgran (a : Nat) : t.granAt a = s.granAt a := congrArg (Sparse.get Gran.clean · (granOf a)) hmem.2.1
  have hbs : bs = (List.range x.len).map fun i => s.mem.read (x.addr + i) :=
    (State.readPlain_clean fun i hi => (hgran _).trans (hc i hi)).trans (List.map_congr_left fun i _ => hmem.1 _)
  have hlen : bs.length = x.len := by simp [hbs]
  have hout : out = bs := by
    rw [← map_nth_range out, ← map_nth_range bs, length_numberFrom]
    refine List.map_congr_left fun i hi => ?_
    have hi : i < bs.length := List.mem_range.mp hi
    have hclean : bad (x.addr + (0 + i)) = false := by
      rw [Nat.zero_add]
      exact congrArg Gran.poison ((hgran _).trans (hc i (hlen ▸ hi)))
    rw [nth_numberFrom, if_pos hi, hclean]
    rfl
  rw [hout, hbs]
  exact ⟨State.answerMlm_answers hcan .., hmem.trans (State.answerMlm_memory ..)⟩

theorem pktWrites_unmasked (h : x.pmask = none) : pktWrites x = wrBytes x.addr x.data := by
  unfold pktWrites wrBytes
  simp only [h, Option.getD_none, bitAt, Nat.zero_testBit]

theorem MemoryOnly.canAnswerMlm (h : MemoryOnly s t) (hs : s.CanAnswerMlm m) : t.CanAnswerMlm m := by
  unfold MemoryOnly at h
  exact hs.congr ((congrArg State.active h).trans rfl) ((congrArg State.sessions h).trans rfl)

/-- Whole bytes have been written from `a` on, and the granules that they do not touch are as they were. -/
def GranulesWritten (s t : State) (a : Nat) (bs : List Byte) : Prop :=
  (∀ i, i < bs.length → t.mem.read (a + i) = nth 0#8 bs i)
    ∧ ∀ b, (∀ i, i < bs.length → granOf (a + i) ≠ granOf b) → t.mem.read b = s.mem.read b ∧ t.granAt b = s.granAt b

/-- Whole bytes are written where memory lies, and the request is answered. -/
theorem State.writeAll_answers {a : Nat} {bs : List Byte} (hs : s.CanAnswerMlm m) (hm : s.mlmMem a bs.length = true) (x : Pkt) (ptype status : Nat) :
    AnsweredMlm ((s.writeAll .plain (wrBytes a bs)).answerMlm m x ptype status [] 0) m ptype status x []
    ∧ GranulesWritten s ((s.writeAll .plain (wrBytes a bs)).answerMlm m x ptype status [] 0) a bs := by
  have hgran (i : Nat) (hi : i < bs.length) : isGran (a + i) = true := State.mlmMem_isGran hm hi
  obtain ⟨hread, hgr, -⟩ := (s.writeAll .plain (wrBytes a bs)).answerMlm_memory m x ptype status [] 0
  refine ⟨State.answerMlm_answers ((s.writeAll_rest ..).canAnswerMlm hs) .., fun i hi => (hread _).trans (s.read_writeAll hgran hi), fun b hb => ?_⟩
  obtain ⟨hmem, hat⟩ := s.writeAll_elsewhere hgran hb
  exact ⟨(hread b).trans hmem, (congrArg (Sparse.get Gran.clean · (granOf b)) hgr).trans hat⟩

theorem State.mlmWrite_eq (he : NoErrors e) (hp : x.pmask = none) :
    s.mlmWrite m x e = (s.writeAll .plain (wrBytes x.addr x.data)).answerMlm m x 4 0 [] 0 := by
  rw [State.mlmWrite, State.noteTargets_clean he fun _ _ h => absurd h (by decide), pktWrites_unmasked hp]

/-- R330: a single operation on clean granules writes its result. -/
theorem State.mlmAtomic_eq (he : NoErrors e) (hp : x.pmask = none) (hd : x.data.length = 4) (h4 : bitAt x.aux 4 = false) (hop : field x.aux 0 3 < 6)
    (hc : ∀ i, i < 4 → s.granAt (x.addr + i) = Gran.clean) :
    s.mlmAtomic m x e = (s.writeAll .plain (wrBytes x.addr (atomResult s x x.addr))).answerMlm m x 6 0 [] 0 := by
  have hnote : s.noteTargets true e (plainBytes x.addr x.data.length) = s := State.noteTargets_clean he fun p a _ ha => by
    obtain ⟨i, hi, hpage⟩ := List.mem_map.mp ha
    obtain ⟨-, rfl⟩ : _ ∧ x.addr + i = a := by simpa using hpage
    exact hc i (hd ▸ List.mem_range.mp hi)
  have hpoison (i : Nat) (hi : i < 4) : (s.granAt (x.addr + i)).poison = false := congrArg Gran.poison (hc i hi)
  have hnone : ((List.range (4 * 1)).filter fun i => (s.granAt (x.addr + i)).poison) = [] := List.filter_eq_nil_iff.mpr fun i hi => by
    simp [hpoison i (List.mem_range.mp hi)]
  have htake : (x.data.drop (4 * 0)).take 4 = x.data := List.take_of_length_le hd.le
  have hold := State.readPlain_clean hc
  unfold State.mlmAtomic
  rw [hnote, h4, hd, hp]
  simp only [Bool.false_eq_true, if_false, Nat.div_self (by decide : 0 < 4), hnone, Option.getD_none, popCount_zero, List.map_nil, dedupNat, List.length_nil,
    List.range_one, List.foldl_cons, List.foldl_nil, htake, Nat.mul_zero, Nat.add_zero]
  have hlast : (s.granAt (x.addr + 3)).poison = false := hpoison 3 (by decide)
  have hfirst : (s.granAt x.addr).poison = false := hpoison 0 (by decide)
  rw [if_neg (by simp [bitAt, hfirst, hlast, hop]), hold]
  rfl

theorem State.mlmAtomic_spec (he : NoErrors e) (hp : x.pmask = none) (hd : x.data.length = 4) (h4 : bitAt x.aux 4 = false) (hop : field x.aux 0 3 < 6)
    (hc : ∀ i, i < 4 → s.granAt (x.addr + i) = Gran.clean) (hs : s.CanAnswerMlm m) (hm : s.mlmMem x.addr 4 = true) (ht : s.mlmAtomic m x e = t) :
    AnsweredMlm t m 6 0 x []
    ∧ bytesToNat ((List.range 4).map fun i => t.mem.read (x.addr + i))
      = atomOp (field x.aux 0 3) (bitAt x.aux 3) 32 (bytesToNat ((List.range 4).map fun i => s.mem.read (x.addr + i))) (bytesToNat x.data) % 2 ^ 32
    ∧ (∀ b, (∀ i, i < 4 → granOf (x.addr + i) ≠ granOf b) → t.mem.read b = s.mem.read b) := by
  have hlen : (atomResult s x x.addr).length = 4 := length_natToBytes ..
  rw [State.mlmAtomic_eq he hp hd h4 hop hc] at ht
  obtain ⟨hanswer, hread, hother⟩ := State.writeAll_answers (bs := atomResult s x x.addr) hs (hlen.symm ▸ hm) x 6 0
  rw [hlen] at hread hother
  subst ht
  refine ⟨hanswer, ?_, fun b hb => (hother b hb).1⟩
  rw [List.map_congr_left fun i hi => hread i (List.mem_range.mp hi), ← hlen, map_nth_range]
  exact bytesToNat_natToBytes ..

/-! ### Control space and no target (R425, R500, R512) -/

theorem State.csrRead_state (s : State) (p : Party) (a : Nat) : (s.csrRead p a).2 = s ∨ (s.csrRead p a).2 = s.deny := by
  unfold State.csrRead
  cases regAt a with
  | none => simp only [apply_ite Prod.snd]; split_ifs <;> simp
  | some d => simp only [apply_ite Prod.snd]; split_ifs <;> simp

theorem State.CanAnswerMlm.bump (h : s.CanAnswerMlm m) (a n : Nat) : (s.bump a n).CanAnswerMlm m := h.congr (s.bump_active a n) (s.bump_sessions a n)

/-- A read of eight aligned bytes of control space. (The split of the address is made opaque: the kernel would count down from the base of
control space.) -/
theorem State.mlmCsrRead_eq {p : Party} {o : Nat} (hn : x.len = 8) (hv : viewOf (x.addr - csrBase) = (p, o)) (ho : o % 8 = 0) :
    s.mlmCsrRead m x = (s.csrRead p o).2.answerMlm m x 2 0 (natToBytes 8 (s.csrRead p o).1) 0 := by
  generalize hf : @State.mlmCsrRead = f
  delta State.mlmCsrRead at hf
  generalize @viewOf = view at hf hv
  subst hf
  beta_reduce
  generalize x.addr - csrBase = b at hv ⊢
  rw [hv]
  exact if_neg (by simp [hn, ho])

theorem State.mlmCsrRead_spec {p : Party} {o : Nat} (hs : s.CanAnswerMlm m) (hn : x.len = 8) (hv : viewOf (x.addr - csrBase) = (p, o)) (ho : o % 8 = 0) :
    AnsweredMlm (s.mlmCsrRead m x) m 2 0 x (natToBytes 8 (s.csrRead p o).1) ∧ SameMemory s (s.mlmCsrRead m x) := by
  rw [State.mlmCsrRead_eq hn hv ho]
  have hstate : (s.csrRead p o).2.CanAnswerMlm m ∧ SameMemory s (s.csrRead p o).2 := by
    rcases s.csrRead_state p o with h | h
    · rw [h]
      exact ⟨hs, .refl s⟩
    · rw [h]
      exact ⟨hs.bump .., s.sameMemory_deny⟩
  exact ⟨State.answerMlm_answers hstate.1 .., hstate.2.trans (State.answerMlm_memory ..)⟩

theorem mlmInFaults_not_data : ¬ DataReg A.mlmInFaults := fun h => by
  have hplace := h.place
  simp only [A.mlmInFaults, A.mem] at hplace
  omega

theorem State.mlmFault_spec (hm : m < 2) (hs : s.CanAnswerMlm m) (ptype : Nat) :
    AnsweredMlm (s.mlmFault m x ptype) m ptype 2 x []
    ∧ (s.mlmFault m x ptype).reg A.mlmInFaults = BitVec.ofNat 64 (satAdd 48 (s.regN A.mlmInFaults) 1) ∧ SameMemory s (s.mlmFault m x ptype) :=
  ⟨State.answerMlm_answers (hs.bump ..) .., ((State.answerMlm_data hm ..).reg _ mlmInFaults_not_data).trans (s.reg_bump_one _),
    (SameMemory.refl s).bump.trans (State.answerMlm_memory ..)⟩

/-! ### What serves a request -/

theorem State.mlmServe_read (ht : x.ptype = 1) (hc : inCsr x.addr x.len = false) (hm : s.mlmMem x.addr x.len = true) (hw : s.mlmWaits x x.len = false) :
    s.mlmServe m x e = s.mlmRead m x e := by
  simp [State.mlmServe, ht, hc, hm, hw]

theorem State.mlmServe_csrRead (ht : x.ptype = 1) (hc : inCsr x.addr x.len = true) : s.mlmServe m x e = s.mlmCsrRead m x := by
  simp [State.mlmServe, ht, hc]

theorem State.mlmServe_write (ht : x.ptype = 3) (hc : inCsr x.addr x.data.length = false) (hm : s.mlmMem x.addr x.data.length = true)
    (hw : s.mlmWaits x x.data.length = false) : s.mlmServe m x e = s.mlmWrite m x e := by
  simp [State.mlmServe, ht, hc, hm, hw]

theorem State.mlmServe_atomic (ht : x.ptype = 5) (hc : inCsr x.addr x.data.length = false) (hm : s.mlmMem x.addr x.data.length = true)
    (hw : s.mlmWaits x x.data.length = false) : s.mlmServe m x e = s.mlmAtomic m x e := by
  simp [State.mlmServe, ht, hc, hm, hw]

theorem State.mlmServe_fault {n : Nat} (hn : (if x.ptype = 1 then x.len else x.data.length) = n) (ht : x.ptype ≠ 0x20) (hc : inCsr x.addr n = false)
    (hm : s.mlmMem x.addr n = false) : s.mlmServe m x e = s.mlmFault m x (cplOf x.ptype) := by
  simp [State.mlmServe, hn, ht, hc, hm]

/-! ### Key exchange (R447, R495) -/

/-- The packets of a key exchange leave unsealed; none of their flits is counted. -/
theorem State.answerMlm_unsealed (s : State) (m : Nat) (x : Pkt) {ptype : Nat} (h : 0x20 ≤ ptype) (status : Nat) (data : List Byte) (mask : Nat) :
    LinkStep (8 + m) s (s.answerMlm m x ptype status data mask) := by
  have hplain : (s.dataProt && (ptype < 0x20 : Bool)) = false := by simp [h]
  unfold State.answerMlm
  rw [hplain]
  have hsent (key : Option Nat) (y : Pkt) : LinkStep (8 + m) s (s.egressPkt (8 + m) key y) := (s.setLink_step _ _).trans (State.pump_step _ _)
  exact (hsent (some 0) _).trans ⟨rfl, fun _ _ => rfl⟩

theorem State.mlmKex_spec (hd : x.data.length = 56) (hs : s.session (65536 + m) = none) (hr : s.rngOk = true) (ht : s.mlmKex m x = t) :
    (t.session (65536 + m)).isSome = true ∧ t.bit (A.mlmStatus m) 2 = true ∧ (∀ a, a ≠ A.mlmStatus m → t.reg a = s.reg a) ∧ SameMemory s t := by
  unfold State.mlmKex at ht
  rw [if_neg (by simp [hd, hs, hr])] at ht
  extract_lets priv reply label s1 s2 s3 at ht
  have hstep : LinkStep (8 + m) s2 s3 := State.answerMlm_unsealed _ _ _ (by decide) ..
  have hsessions : s3.sessions = s2.sessions := (congrArg State.sessions hstep.rest).trans rfl
  have hsession : (s2.session (65536 + m)).isSome = true := by
    rw [State.session_openSession]
    rfl
  have hreg (a : Nat) : s3.reg a = s.reg a := hstep.reg a (by omega)
  have hmem : SameMemory s s3 := SameMemory.trans (.of_eq rfl rfl rfl) hstep.sameMemory
  clear_value s3
  subst ht
  refine ⟨?_, State.bit_setB_same _ _ _ (by decide), fun a ha => (State.reg_setB_ne _ _ _ ha).trans (hreg a), hmem.trans (.of_eq rfl rfl rfl)⟩
  unfold State.session at hsession ⊢
  rw [← hsessions] at hsession
  exact hsession

theorem State.mlmKexHello_eq (hopen : s.mlmOpen m = true) (hprot : s.dataProt = true) (ht : x.ptype = 0x20) (henc : x.enc = false)
    (hres : x.reserved = 0) : s.mlmKexHello m x = (s.drainPkt [8 + m] x).mlmServe m x noEnv := by
  have hrest := s.drainPkt_rest [8 + m] x
  unfold State.mlmKexHello
  dsimp only
  generalize s.drainPkt [8 + m] x = d at hrest ⊢
  have hopen' : d.mlmOpen m = true := ((congrArg (State.mlmOpen · m) hrest).trans rfl).trans hopen
  have hprot' : d.dataProt = true := ((congrArg State.dataProt hrest).trans rfl).trans hprot
  exact if_neg (by simp [hopen', hprot', ht, henc, hres])

theorem State.mlmServe_kex (ht : x.ptype = 0x20) (ha : s.activating = false) : s.mlmServe m x e = s.mlmKex m x := by
  simp [State.mlmServe, ht, ha]

theorem State.mlmServe_kexWaits (ht : x.ptype = 0x20) (ha : s.activating = true) : s.mlmServe m x e = s.holdMlm m x e := by
  simp [State.mlmServe, ht, ha]

theorem exec_mlmKexHello (hm : m < 2) (hx : x.ok = true) : exec (.mlmKexHello m x) s = .next (s.mlmKexHello m x) :=
  if_pos (by simp [Instr.wf, hm, hx])

/-- A key exchange of the companion: its session opens, or the request waits for the activation's end. -/
theorem mlmKexHello_acts (hm : m < 2) (hx : x.ok = true) (hopen : s.mlmOpen m = true) (hprot : s.dataProt = true) (ht : x.ptype = 0x20)
    (henc : x.enc = false) (hres : x.reserved = 0) :
    (s.activating = false → x.data.length = 56 → s.session (65536 + m) = none → s.rngOk = true →
      Completes (.mlmKexHello m x) s fun t =>
        (t.session (65536 + m)).isSome = true ∧ t.bit (A.mlmStatus m) 2 = true ∧ (∀ a, a ≠ A.mlmStatus m → t.reg a = s.reg a) ∧ SameMemory s t)
    ∧ (s.activating = true → Completes (.mlmKexHello m x) s fun t =>
        (∃ h ∈ t.heldMlm, h.port = m ∧ h.pkt = x) ∧ t.sessions = s.sessions ∧ (∀ a, t.reg a = s.reg a) ∧ SameMemory s t) := by
  have hexec := (exec_mlmKexHello hm hx).trans (congrArg Host.Outcome.next (State.mlmKexHello_eq hopen hprot ht henc hres))
  have hrest := s.drainPkt_rest [8 + m] x
  generalize s.drainPkt [8 + m] x = d at hexec hrest
  have hact : d.activating = s.activating := (congrArg State.activating hrest).trans rfl
  have hsessions : d.sessions = s.sessions := (congrArg State.sessions hrest).trans rfl
  have hreg (a : Nat) : d.reg a = s.reg a := (congrArg (State.reg · a) hrest).trans rfl
  have hmem : SameMemory s d :=
    .of_eq ((congrArg State.mem hrest).trans rfl) ((congrArg State.gran hrest).trans rfl) ((congrArg State.flash hrest).trans rfl)
  refine ⟨fun ha hd hs hr => ?_, fun ha => ?_⟩
  · rw [State.mlmServe_kex ht (hact.trans ha)] at hexec
    have hs' : d.session (65536 + m) = none := (congrArg (List.find? _) hsessions).trans hs
    have hr' : d.rngOk = true := ((congrArg State.rngOk hrest).trans rfl).trans hr
    obtain ⟨hopens, hbit, hregs, hmems⟩ := State.mlmKex_spec hd hs' hr' rfl
    exact .of_exec hexec ⟨hopens, hbit, fun a ha => (hregs a ha).trans (hreg a), hmem.trans hmems⟩
  · rw [State.mlmServe_kexWaits ht (hact.trans ha)] at hexec
    exact .of_exec hexec ⟨⟨⟨m, x, noEnv⟩, by simp [State.holdMlm], rfl, rfl⟩, hsessions, hreg, hmem.trans (.of_eq rfl rfl rfl)⟩

/-! ### The requests as the module takes them -/

theorem exec_mlmRdReq (hm : m < 2) (h : Admits s m 1 x s1) : exec (.mlmRdReq m x e) s = .next (s1.mlmServe m x e) :=
  (if_pos (by simp [Instr.wf, hm, h.1])).trans (congrArg Host.Outcome.next h.mlmRequest)

theorem exec_mlmWr (hm : m < 2) (h : Admits s m 3 x s1) : exec (.mlmWr m x e) s = .next (s1.mlmServe m x e) :=
  (if_pos (by simp [Instr.wf, hm, h.1])).trans (congrArg Host.Outcome.next h.mlmRequest)

theorem exec_mlmAtom (hm : m < 2) (h : Admits s m 5 x s1) : exec (.mlmAtom m x e) s = .next (s1.mlmServe m x e) :=
  (if_pos (by simp [Instr.wf, hm, h.1])).trans (congrArg Host.Outcome.next h.mlmRequest)

/-- A request outside the targets, whatever its kind. -/
theorem mlmServe_faults {ty n : Nat} (hm : m < 2) (hs : s1.CanAnswerMlm m) (ha : Admits s m ty x s1) (hty : ty ≠ 0x20)
    (hn : (if ty = 1 then x.len else x.data.length) = n) (hc : inCsr x.addr n = false) (hout : s1.mlmMem x.addr n = false) {i : Instr}
    (hexec : exec i s = .next (s1.mlmServe m x e)) :
    Completes i s fun t => AnsweredMlm t m (ty + 1) 2 x [] ∧ t.reg A.mlmInFaults = BitVec.ofNat 64 (satAdd 48 (s1.regN A.mlmInFaults) 1)
      ∧ SameMemory s1 t := by
  obtain rfl := ha.type
  rw [State.mlmServe_fault hn hty hc hout] at hexec
  exact .of_exec hexec (State.mlmFault_spec hm hs _)

/-- Settles O52, request by request: each that is admitted is served at once, by what its target is. -/
theorem companionRequestsAct : Obligations.CompanionRequestsAct := by
  refine fun s s1 m x e hm hs hp he => ⟨fun ha hcsr hmem hw hc => ?_, fun ha hcsr hn p o hv ho => ?_, fun ha hcsr hmem hw => ?_,
    fun ha hcsr hd h4 hop hmem hw hc => ?_, fun i ty n hi ha hcsr hmem => ?_, fun hx hopen hprot ht henc hres => ?_⟩
  · have hexec := exec_mlmRdReq (e := e) hm ha
    rw [State.mlmServe_read ha.type hcsr hmem hw] at hexec
    exact .of_exec hexec (State.mlmRead_spec he hs hc)
  · have hexec := exec_mlmRdReq (e := e) hm ha
    rw [State.mlmServe_csrRead ha.type hcsr] at hexec
    exact .of_exec hexec (State.mlmCsrRead_spec hs hn hv ho)
  · have hexec := exec_mlmWr (e := e) hm ha
    rw [State.mlmServe_write ha.type hcsr hmem hw, State.mlmWrite_eq he hp] at hexec
    exact .of_exec hexec (State.writeAll_answers hs hmem x 4 0)
  · have hexec := exec_mlmAtom (e := e) hm ha
    rw [State.mlmServe_atomic ha.type (hd ▸ hcsr) (hd ▸ hmem) (hd ▸ hw)] at hexec
    exact .of_exec hexec (State.mlmAtomic_spec he hp hd h4 hop hc hs hmem rfl)
  · rcases hi with ⟨rfl, rfl, rfl⟩ | ⟨rfl, rfl, rfl⟩ | ⟨rfl, rfl, rfl⟩
    · exact mlmServe_faults hm hs ha (by decide) rfl hcsr hmem (exec_mlmRdReq hm ha)
    · exact mlmServe_faults hm hs ha (by decide) rfl hcsr hmem (exec_mlmWr hm ha)
    · exact mlmServe_faults hm hs ha (by decide) rfl hcsr hmem (exec_mlmAtom hm ha)
  · exact mlmKexHello_acts hm hx hopen hprot ht henc hres

end Sys2Proof.Machine
end
